-- ==== Sys2Proof/Word.lean ====
section
/-! DEFINITION. The word and unit types of the model, and plain byte-order arithmetic. -/

namespace Sys2Proof

/-- One byte of a structure, a frame or a memory. -/
abbrev Byte := BitVec 8

/-- A byte string in increasing offset. -/
abbrev Bytes := List Byte

/-- A function identifier, `(hp << 10) | vf` (R44). -/
abbrev Fid := Fin 8192

/-- A host link: host port × 2, plus 1 for link B of a bifurcated port (R43). -/
abbrev LinkId := Fin 16

/-- A logical port, LP0 to LP127 (R170). -/
abbrev LpId := Fin 128

/-- A pipeline, its transport sequencer or its network port, 0 to 15 (R18). -/
abbrev PipeId := Fin 16

/-- A half: 0 west, 1 east (R16). -/
abbrev Half := Fin 2

/-- An offload core (R377). -/
abbrev CoreId := Fin 128

/-- An offload thread, core × 16 + thread (R377). -/
abbrev ThreadId := Fin 2048

/-- A microcoded engine: 0 to 15 transport sequencers, 16 to 47 DMA engines, 48 and 49 cipher schedulers (R422). -/
abbrev EngineId := Fin 50

/-- A cipher core, 0 to 19 west, 20 to 39 east (R331). -/
abbrev CipherCoreId := Fin 40

/-- A ring number as doorbells and commands carry it (R95, R141). -/
abbrev RingNo := BitVec 18

/-- A general register of a thread. -/
abbrev RegNo := Fin 32

/-- A sparse table keyed by a number: pairs with strictly rising keys. -/
abbrev Tab (α : Type) := List (Nat × α)

end Sys2Proof
end

