-- ==== Sys2Proof/Syntax.lean ====
section
/-! DEFINITION. The commands and events of the block: one constructor of `Instr` per row of the table of operations and events,
with the operands that come from outside the device (who acts, the value written, the data a host or a partner gives). -/

namespace Sys2Proof

/-- Ring kinds, with the KIND codes 0, 1, 2 of R95 and R141. -/
inductive RingKind where
  | sq | cq | eq
  deriving DecidableEq, Repr

/-- How a host answers a device read (R42, R53); `lost`: the completion is dropped at a clocked crossing for its parity (R528). -/
inductive CplStatus where
  | ok | ecrcFail | poisoned | unsupported | abort | lost
  deriving DecidableEq, Repr

/-- What the checks of R528 find of a TLP that reaches the device: nothing, a failed ECRC (R42), or a parity error at a clocked crossing. -/
inductive TlpCheck where
  | ok | ecrc | fifo
  deriving DecidableEq, Repr

/-- What the checks of R528 find as a packet passes: nothing; a parity error at a clocked crossing; an uncorrectable error of the packet
buffer or of a table, in an SRAM row or an HBM pseudo-channel by its resource identifier; a header vector that fails its parity (R203); an FCS that does not carry (R530). -/
inductive PktCheck where
  | ok | fifo
  | buffer (row : BitVec 32)
  | vector | carry
  deriving DecidableEq, Repr

/-- An error that a SECDED read or a scrub meets: the SRAM row or HBM pseudo-channel by its resource identifier, and whether it could not be
corrected (R519, R528). -/
structure MemErr where
  resource : BitVec 32
  uncorrectable : Bool
  deriving DecidableEq, Repr

/-- A bit of a rule's TCAM entry that has flipped: bits 0 to 511 are those of the key, 512 to 1,023 those of the mask (R529, R531). -/
structure TcamFlip where
  rule : BitVec 32
  bit  : Fin 1024
  deriving DecidableEq, Repr

/-- What befalls the memories a block reads in an event: the errors its reads meet, and the bits of its pipeline's TCAM that have flipped
since (R528, R531). DESIGN CHOICE (log 106). -/
structure MemEnv where
  errs  : List MemErr := []
  flips : List TcamFlip := []
  deriving DecidableEq, Repr

/-- The arithmetic, logic, shifts and compares of a parse program (R218). DESIGN CHOICE (log 118). -/
inductive DeepAlu where
  | add | sub | and | or | xor | shl | shr
  deriving DecidableEq, Repr
inductive DeepCmp where
  | eq | ne | lt | ge
  deriving DecidableEq, Repr

/-- The operations of a parse program (R218): reads of 1, 2 or 4 bytes from the frame at a register plus a constant, from the header vector and
from the constant table; computation; conditional branches; stores to DEEP_DATA and DEEP_CODE; ACCEPT and REJECT. DESIGN CHOICE (log 118). -/
inductive DeepOp where
  | load (size : Fin 3) (rd rs : Fin 16) (off : BitVec 32)
  | vector (size : Fin 3) (rd rs : Fin 16) (off : BitVec 32)
  | const (size : Fin 3) (rd rs : Fin 16) (off : BitVec 32)
  | alu (op : DeepAlu) (rd ra rb : Fin 16)
  | branch (c : DeepCmp) (ra rb : Fin 16) (target : Nat)
  | storeData (size : Fin 3) (rs ra : Fin 16) (off : BitVec 32)
  | storeCode (rs : Fin 16)
  | accept
  | reject (code : Byte)
  deriving DecidableEq, Repr

/-- A parse program of the image: its worst-case steps W, its operations and its constant table (R218). DESIGN CHOICE (log 118). -/
structure DeepProg where
  w      : Nat := 0
  ops    : List DeepOp := []
  consts : Bytes := []
  deriving DecidableEq, Repr

/-- The registers of a function's configuration space that act on the device (R38, R40, R42, R50): the identifiers, class code and revision,
Device Control, Device Control 2, the uncorrectable error status and the control word of AER, Message Control of MSI-X. The offset of an access
names none of them. PRESUMED (log 135). -/
inductive CfgReg where
  | ids | classRev | devCtl | devCtl2 | aerStatus | aerCtl | msixCtl
  deriving DecidableEq, Repr

/-- Where a register lies: a function's BAR0 (R47), its configuration space (R38 to R42), or the control processor's address space (R441,
R460, R462). -/
inductive RegSpace where
  | bar0 (fid : Fid)
  | config (fid : Fid) (reg : CfgReg)
  | cp
  deriving DecidableEq, Repr


/-- The alarm sources of R370. -/
inductive AlarmSource where
  | voltage | temperature | stepRate | tamperMesh | debugIntrusion
  deriving DecidableEq, Repr

/-- An error the hardware finds while a thread or an engine runs: of the core or the engine itself, or, for a thread's access to shared
memory or its packet window, of the SRAM row or the HBM pseudo-channel it meets (R380, R395, R417, R437, R440, R519). DESIGN CHOICE (log
106). -/
inductive HwError where
  | none | corrected | uncorrectable | parity
  | memory (resource : BitVec 32) (uncorrectable : Bool)
  deriving DecidableEq, Repr

/-- The reference clocks that R561 monitors, and STBY_REFCLK. -/
inductive RefClk where
  | stby | sysWest | sysEast | sdWest | sdEast | ptp
  | host (link : LinkId)
  deriving DecidableEq, Repr

/-- The MCTP bindings of R495 and R496, with the address that a message on a bus names, none where it is Hearth's own; whether its PEC is right
(R495); and what the checks of a TLP that carries it find (R42, R528). -/
inductive Binding where
  | i3c (addr : Option (BitVec 7) := none)
  | smbus (addr : Option (BitVec 7) := none) (pec : Bool := true)
  | vdm (link : LinkId) (check : TlpCheck := .ok)
  deriving DecidableEq, Repr

/-- What a debug-port access reaches: the rows of R469. -/
inductive DebugReach where
  | boundary | runControl | engineRegs | secrets
  deriving DecidableEq, Repr

/-- What a debug-port access does within its reach: run control halts or resumes an offload thread or the control processor of a half; a register
of the control processor's address space is written or read, an engine's or a pipeline's among them. DESIGN CHOICE (log 141). -/
inductive DebugAct where
  | none
  | halt (thread : ThreadId)
  | resume (thread : ThreadId)
  | haltCp (half : Half)
  | resumeCp (half : Half)
  | write (offset : BitVec 32) (size : Nat) (value : BitVec 64)
  | read (offset : BitVec 32) (size : Nat)
  deriving DecidableEq, Repr

/-- The NC-SI commands that R503 names. -/
inductive NcsiCmd where
  | clearInitialState | selectPackage | deselectPackage | enableChannel | disableChannel | resetChannel
  | enableTx | disableTx
  | aenEnable (on : Bool)
  | setLink
  | getLinkStatus
  | setVlanFilter (slot : Fin 2) (vid : Nat) (on : Bool)
  | enableVlan (on : Bool)
  | setMac (slot : Fin 4) (mac : Bytes) (on : Bool)
  | broadcastFilter (on : Bool)
  | multicastFilter (on : Bool)
  | getVersion | getCapabilities | getParameters
  | other (code : Byte)
  deriving DecidableEq, Repr

/-- How a memory port's transfer ends (R424, R430, R437): with the bytes read or streamed, with a fault class, or with an uncorrectable
read. -/
inductive PortEnd where
  | ok (data : Bytes)
  | failed (cls : Nat)
  | uncorrectable
  deriving DecidableEq, Repr

/-- What the blocks around an engine show it in a step: the conditions 48 to 63 of its kind that name what its microprogram has asked for (R431), the
words that neighbours have put into its queues and the credit they have given back since (R429), the end of its ports' transfers, a request of its own
sources (R435), an error of the word fetched or of its registers (R437, R440), and the errors that its accesses meet in SRAM rows and HBM
pseudo-channels, by resource identifier, true for an uncorrectable one (R519, R522, R523, R545). -/
structure EngEnv where
  conds   : BitVec 16 := 0
  words   : List (Fin 16 × BitVec 64) := []
  credits : List (Fin 16 × Nat) := []
  aDone   : Option PortEnd := none
  bDone   : Option PortEnd := none
  intr    : Bool := false
  err     : HwError := .none
  mem     : List (BitVec 32 × Bool) := []
  deriving DecidableEq, Repr

/-- What cuts off a row that writes the flash or the fuses: a loss of standby power, a POR, a DEVICE_WARM that is due (R466, R472, R493). -/
inductive Cut where
  | power | por | warm
  deriving DecidableEq, Repr

/-- What the control processor and Hearth find while they run the release of R462: the parse programs the image holds, by index (R218), the
cipher cores that fail their first test, the engines whose control store disagrees twice with its CRC (R446), whether BOOT_SERIAL could be written,
and the D2D links that train. DESIGN CHOICE (log 105). -/
structure BootEnv where
  progs      : List (Nat × DeepProg) := []
  badCores   : List Nat := []
  badEngines : List EngineId := []
  serialOk   : Bool := true
  links      : Nat := 5
  /-- Flash operations that are done before the row is cut off, and by what (R493). -/
  cut        : Option (Nat × Cut) := none
  deriving DecidableEq, Repr

/-- What the release of one half finds (R540): whether BOOT_SERIAL could be written (R288, R289), the engines whose control store disagrees twice
with its CRC (R446, R447), whether the golden copies pass their SECDED check (R447, R541), and for west the block of CONTROL_FW that cannot be read
(R459, R540). DESIGN CHOICE (log 105). -/
structure HalfEnv where
  serialOk   : Bool := true
  badEngines : List EngineId := []
  goldenOk   : Bool := true
  badRead    : Option Nat := none
  deriving DecidableEq, Repr

/-- The commands and events of the block. DESIGN CHOICE (log 13). -/
inductive Instr where
  -- mailbox protocol (R66 to R77, R460)
  | mbxDoorbell (fid : Fid)
  | cpUnavailableAnswer (fid : Fid)
  | cpHeartbeatTimeout (half : Half) (dt : Nat)
  | cpRestart (half : Half)
  | hrtHeartbeat (half : Half) (value : BitVec 32)
  | ticketWorkEnd (fid : Fid) (ticket : BitVec 32)
  -- mailbox commands: the request that waits for the function is run (R84 to R128)
  | devQuery (fid : Fid)
  | ticketQuery (fid : Fid)
  | faultQuery (fid : Fid)
  | sensorRead (fid : Fid)
  | ledgerRead (fid : Fid)
  | resetRequest (fid : Fid)
  | powerCapSet (fid : Fid)
  | fnCreate (fid : Fid)
  | fnDestroy (fid : Fid)
  | fnQuery (fid : Fid)
  | hpGrantSet (fid : Fid)
  | infraListSet (fid : Fid)
  | serviceHold (fid : Fid)
  | ringCreate (fid : Fid)
  | ringDestroy (fid : Fid)
  | ringQuery (fid : Fid)
  | ringReset (fid : Fid)
  | ringModify (fid : Fid)
  | pipeConfig (fid : Fid)
  | ruleInsert (fid : Fid)
  | ruleDelete (fid : Fid)
  | tableInsert (fid : Fid)
  | tableDelete (fid : Fid)
  | tableLookup (fid : Fid)
  | queueSet (fid : Fid)
  | spreadSet (fid : Fid)
  | lrdConfig (fid : Fid)
  | tdKeySet (fid : Fid)
  | epBackingSet (fid : Fid)
  | epCreate (fid : Fid)
  | epDestroy (fid : Fid)
  | mrRegister (fid : Fid)
  | mrDeregister (fid : Fid)
  | keyLoad (fid : Fid)
  | keyDestroy (fid : Fid)
  | keyQuery (fid : Fid)
  | saCreate (fid : Fid)
  | saDestroy (fid : Fid)
  | portConfig (fid : Fid)
  | portQuery (fid : Fid)
  | statsRead (fid : Fid)
  | timeAdjust (fid : Fid)
  -- coreLoad, readReq: the requests of the read whose first completion fails its ECRC (R42)
  | coreLoad (fid : Fid) (image : Option Bytes) (ecrcFails : Nat := 0)
  | coreModeSet (fid : Fid)
  | coreSlotsSet (fid : Fid)
  | slotTableSwitch (core : CoreId)
  | threadCtrl (fid : Fid)
  | chanCreate (fid : Fid)
  | chAbandon (fid : Fid)
  | updateBegin (fid : Fid) (cut : Option (Nat × Cut) := none)
  | updateStage (fid : Fid) (readBack : Bool) (badPage : Nat := 0) (cut : Option (Nat × Cut) := none)
  | updateArm (fid : Fid) (cut : Option (Nat × Cut) := none)
  | updateCommit (fid : Fid) (cut : Option (Nat × Cut) := none)
  | updateCancel (fid : Fid) (cut : Option (Nat × Cut) := none)
  | updateQuery (fid : Fid)
  -- functions and abort (R54 to R57)
  | fnAbort (fid : Fid) (value : BitVec 64)
  | fnVfAbort (fid : Fid) (value : BitVec 64)
  | abortPass (half : Half)
  | fenceTimeout (engine : EngineId) (dt : Nat := 300000)
  | abortPassDone (half : Half) (unsent : List (Nat × Nat)) (dt : Nat)
  -- rings (R135 to R166)
  | sqDoorbell (fid : Fid) (ring : RingNo)
  | cqDoorbell (fid : Fid) (ring : RingNo)
  | eqDoorbell (fid : Fid) (ring : RingNo)
  | cqArm (fid : Fid) (ring : RingNo)
  | eqArm (fid : Fid) (ring : RingNo)
  | indexBlockReadDone (kind : RingKind) (ring : RingNo) (hostIdx : BitVec 32)
  | fetchVisit (engine : Fin 32)
  | descriptorReadDone (ring : RingNo) (descs : List (Bytes × Bytes))
  | tx (ring : RingNo) (data : Bytes)
  | rxPost (ring : RingNo)
  | nop (ring : RingNo)
  | hostReadCompletion (link : LinkId) (tag : BitVec 14) (status : CplStatus)
  | completionTimeout (link : LinkId) (tag : BitVec 14) (dt : Nat := 0)
  -- completionWrite: which of the completions due goes next, where R156 leaves their order open
  | completionWrite (cq : RingNo) (pick : Nat)
  | rxPacketDelivery (ring : RingNo) (check : PktCheck := .ok) (mem : MemEnv := {})
  | eqModerationTimer (eq : RingNo) (dt : Nat)
  -- the bytes of a write beyond its first eight stand in `more` (R48)
  -- registerWrite: the W1C bits whose condition coincides with the write (R15), and what the checks of the TLP find (R42, R528)
  | registerWrite (space : RegSpace) (offset : BitVec 32) (size : Nat) (value : BitVec 64) (coincident : BitVec 64 := 0) (check : TlpCheck := .ok) (more : Bytes := [])
  | rcRegisterRead (space : RegSpace) (offset : BitVec 32) (size coincident : Nat) (check : TlpCheck := .ok)
  -- function-level resets and links (R52, R61 to R63, R463)
  | flr (fid : Fid)
  | pfFlr (link : LinkId)
  | vfEnable (link : LinkId) (numVfs : Nat)
  | vfDisable (link : LinkId) (numVfs : Nat)
  | linkDown (link : LinkId)
  | hotReset (link : LinkId)
  | perstAssert (link : LinkId)
  | perstDeassert (link : LinkId)
  | linkRetrain (link : LinkId)
  | linkUp (link : LinkId) (rate width : Nat) (degraded : Bool)
  | quarantineEnd (fid : Fid) (dt : Nat)
  -- network ports and time (R172 to R189)
  -- frameReceive: the codewords with corrected symbols, and symbol errors by lane of the network port (R183)
  | frameReceive (lp : LpId) (frame : Bytes) (fcsOk : Bool) (corrected : Nat) (symbols : List (Fin 8 × Nat))
  | frameTransmit (lp : LpId) (check : PktCheck) (mem : MemEnv := {})
  | trainingAttemptDone (lp : LpId)
  -- the lanes of the network port that failed to converge or lost lock, and the FEC symbol errors of each over the last 1 ms (R178)
  | trainingAttemptFail (lp : LpId) (lanes : List (Fin 8)) (symbols : List (Fin 8 × Nat) := [])
  | localFault (lp : LpId) (lanes : List (Fin 8)) (symbols : List (Fin 8 × Nat) := [])
  | remoteFault (lp : LpId)
  | highBer (lp : LpId) (codewords : Nat) (symbols : List (Fin 8 × Nat) := [])
  | timeHoldover (dt : Nat)
  -- pipelines (R34, R193 to R265, R531)
  | ingressSlot (pipe : PipeId) (check : PktCheck) (mem : MemEnv := {})
  -- deepParseDone: a parity error of the processor's registers or store, and whether classification reads a vector that passes (R203, R519)
  | deepParseDone (pipe : PipeId) (slot : Nat) (procError : Bool) (vectorOk : Bool := true)
  | learnRequestProcess (pipe : PipeId)
  | agingPass (pipe : PipeId) (dt : Nat)
  | egressPass (pipe : PipeId) (mem : MemEnv := {})
  | spreaderDispatch (group : Fin 1024)
  | reorderTimeout (group : Fin 1024) (steps : Nat)
  | tcamScrub (pipe : PipeId) (differing : Nat) (mem : MemEnv := {})
  -- transport (R285 to R325)
  | write (ring : RingNo) (data : Bytes)
  | read (ring : RingNo)
  | writeNotify (ring : RingNo) (data : Bytes)
  | pacerSend (half : Half) (node : BitVec 32)
  | writePacket (seq : PipeId)
  | readReq (seq : PipeId) (data : Option Bytes) (ecrcFails : Nat := 0)
  | readResp (seq : PipeId)
  | ack (seq : PipeId)
  | nak (seq : PipeId)
  | release (seq : PipeId)
  | contextFetchDone (ep : BitVec 20) (ok : Bool)
  | contextEviction (ep : BitVec 20)
  | keyDerivationDone (seq : PipeId)
  | retransmitTimer (ep : BitVec 20) (msg : BitVec 48) (dt : Nat)
  | backoffEnd (ep : BitVec 20) (msg : BitVec 48) (dt : Nat)
  | messageLifetimeExpiry (ep : BitVec 20) (msg : BitVec 48) (dt : Nat)
  | ackTimer (half : Half) (node : BitVec 32) (ep : BitVec 20) (msg : BitVec 48) (dt : Nat)
  | recordExpiry (half : Half) (node : BitVec 32) (ep : BitVec 20) (msg : BitVec 48) (dt : Nat)
  | releasedRecordExpiry (half : Half) (node : BitVec 32) (ep : BitVec 20) (msg : BitVec 48) (dt : Nat)
  | pathUpdateInterval (half : Half) (node : BitVec 32) (dt : Nat)
  | sendingKeySwitch (td : Fin 4096) (dt : Nat)
  | startGuardEnd (dt : Nat)
  -- cipher engine (R333 to R373)
  | cipherDispatch (half : Half)
  | encrypt (ring : RingNo) (input : Bytes)
  | decrypt (ring : RingNo) (input : Bytes) (tag : Bytes)
  | keyUnwrapDone (slot : BitVec 18) (ok : Bool)
  | cipherJobDone (core : CipherCoreId)
  | knownAnswerTest (core : CipherCoreId) (pass : Bool)
  | katRetest (core : CipherCoreId) (pass : Bool)
  -- cipherAlarm: the voltage in mV that the comparator of VDD_CORE on a die sees, for VOLTAGE (R370, R508)
  | cipherAlarm (source : AlarmSource) (volts : Option (Half × Nat) := none)
  | alarmRecovery (dt : Nat)
  -- offload cores (R378 to R416)
  | instruction (thread : ThreadId) (hw : HwError)
  | lysWait (thread : ThreadId) (rd rs1 : RegNo)
  | lysPoll (thread : ThreadId) (rd rs1 : RegNo)
  | lysSignal (thread : ThreadId) (rd rs1 rs2 : RegNo)
  | lysTimer (thread : ThreadId) (rs1 : RegNo)
  | lysEvclr (thread : ThreadId) (rs1 : RegNo)
  | lysChput (thread : ThreadId) (rd rs1 rs2 : RegNo)
  | lysChrecv (thread : ThreadId) (rd rs1 rs2 : RegNo) (hw : HwError := .none)
  | lysChstat (thread : ThreadId) (rd rs1 : RegNo)
  | lysLookup (thread : ThreadId) (rd rs1 rs2 : RegNo) (hw : HwError := .none)
  | lysPktget (thread : ThreadId) (rd : RegNo)
  | lysPktput (thread : ThreadId) (rd rs1 rs2 : RegNo)
  | lysPktnew (thread : ThreadId) (rd : RegNo)
  | lysTstart (thread : ThreadId) (rd rs1 rs2 : RegNo)
  | lysTstop (thread : ThreadId) (rd rs1 : RegNo)
  | lysTread (thread : ThreadId) (rd rs1 rs2 : RegNo)
  | lysByrebind (thread : ThreadId) (rd rs1 rs2 : RegNo)
  | threadWake (thread : ThreadId)
  | signalDelivery (thread : ThreadId)
  | evTimer (thread : ThreadId) (dt : Nat)
  | lookupDone (thread : ThreadId) (slot : Nat)
  | chBusyTimeout (thread : ThreadId)
  | stallSentinel (core : CoreId)
  -- microcoded engines (R423 to R443)
  | microwordStep (engine : EngineId) (env : EngEnv)
  | waitLimit (engine : EngineId) (dt : Nat := 0) (env : EngEnv := {})
  | engineTimer (engine : EngineId) (steps : Nat)
  -- a reset that hardware raises; `bad` says that a store reloaded after CS_ECC disagrees twice with its CRC (R440, R446)
  | engineReset (engine : EngineId) (bad : Bool := false)
  | engineAutoRestart (engine : EngineId)
  | engRun (engine : EngineId)
  | engCtrlReset (engine : EngineId)
  | csCheck (engine : EngineId)
  | csCheckDone (engine : EngineId)
  | quiesce (engine : EngineId)
  | control (engine : EngineId)
  | engCsDataWrite (engine : EngineId) (value : BitVec 32)
  | engCsDataRead (engine : EngineId)
  | engCsAddrWrite (engine : EngineId) (value : BitVec 32)
  | csScrub (engine : EngineId) (addr : Nat) (err : HwError)
  | csReload (engine : EngineId) (bad : Bool := false)
  -- boot, power and updates (R452 to R493, R506 to R517, R561 to R567)
  -- stbyPwrgdRise: the straps, and the resources that fail their built-in self-test (R521)
  -- and the journal's positions whose records fail read-back: the flash itself (R488)
  | stbyPwrgdRise (mgmtAddr : Fin 8) (failed : List (BitVec 32)) (worn : List (Fin 32768) := [])
  | firstStage (recoveryReqN : Bool) (badReads : List (Fin 2 × Nat × Nat) := []) (cut : Option (Nat × Cut) := none)
  | partVerified (kind : Fin 7) (badRead : Option Nat := none) (cut : Option (Nat × Cut) := none)
  | mainPwrgdRise
  | porNPulse (ns : Nat) (taken : Bool)
  | hrtRelease (env : BootEnv)
  | hrtCpStatus (value : BitVec 32)
  | readyTimeout (dt : Nat)
  | pplRelease (half : Half) (value : BitVec 32)
  | recoveryLoader (image : Bytes) (cut : Option (Nat × Cut) := none)
  | mainPwrgdFall
  | stbyPwrgdFall
  | pwrHoldupN
  | refclkLoss (clk : RefClk)
  | sensorSample (sensor : Fin 190) (value : Int)
  | powerWindow (watts : Nat)
  | slewDone
  | hearthRestart (watchdog : Bool)
  | ledgerWrite (readBack : Bool)
  -- Molgori management messages (R498)
  | challengeGet (b : Binding)
  | lcTransition (b : Binding) (token : Bytes) (cut : Option (Nat × Cut) := none)
  | ownerLockSet (b : Binding) (token : Bytes)
  | kikInstall (b : Binding) (payload : Bytes)
  | boardDataSet (b : Binding) (payload : Bytes)
  | rootRevoke (b : Binding) (token : Bytes)
  | capSet (b : Binding) (payload : Bytes)
  | ledgerGet (b : Binding) (payload : Bytes)
  | fnAbortReq (b : Binding) (payload : Bytes)
  | statusGet (b : Binding)
  | updateCommitReq (b : Binding) (cut : Option (Nat × Cut) := none)
  -- MCTP, PLDM, SPDM, NC-SI (R495, R496, R500 to R504)
  | setEndpointId (b : Binding) (eid : Byte)
  | requestUpdate (b : Binding)
  | passComponentTable (b : Binding) (component : BitVec 16 := 0x5120)
  | updateComponent (b : Binding) (imageSize : BitVec 32) (stamp : BitVec 32) (component : BitVec 16 := 0x5120) (cut : Option (Nat × Cut) := none)
  | requestFirmwareData (b : Binding) (data : Bytes) (readBack : Bool) (badPage : Nat := 0) (cut : Option (Nat × Cut) := none)
  | activateFirmware (b : Binding) (selfContained : Bool) (cut : Option (Nat × Cut) := none)
  | cancelUpdate (b : Binding) (cut : Option (Nat × Cut) := none)
  | getStatus (b : Binding)
  | getTid (b : Binding)
  | getPldmVersion (b : Binding) (type : Byte)
  | getPldmTypes (b : Binding)
  | getPldmCommands (b : Binding) (type : Byte)
  | getSensorReading (b : Binding) (id : BitVec 16)
  | getStateSensorReadings (b : Binding) (id : BitVec 16)
  | getPdr (b : Binding) (handle : BitVec 32)
  | getPdrRepositoryInfo (b : Binding)
  | setNumericSensorEnable (b : Binding) (id : BitVec 16) (state : Byte)
  | getVersion (b : Binding)
  | getCapabilities (b : Binding) (v12 : Bool := false)
  | negotiateAlgorithms (b : Binding) (ecdsaP384 sha384 : Bool)
  | getDigests (b : Binding)
  | getCertificate (b : Binding) (slot : Byte) (offset length : BitVec 16)
  | challenge (b : Binding) (slot : Byte) (nonce : Bytes)
  | getMeasurements (b : Binding) (index : Byte) (signed : Bool) (nonce : Bytes)
  | chunkGet (b : Binding) (seqNo : BitVec 32)
  | ncsiCommand (b : Binding) (channel : Fin 16) (cmd : NcsiCmd)
  | ncsiTxPassthrough (frame : Bytes)
  -- faults, split mode and resets (R518 to R544)
  | bucketLeak (resource : BitVec 32) (dt : Nat)
  | hbmMigrationDone (resource : BitVec 32) (lost : Nat := 0)
  | d2dLinkLoss (link : Fin 5)
  | splitDeclare (dt : Nat)
  -- rejoin: it comes to its opening, or has yet to (R536, R538)
  | rejoin (opens : Bool)
  | halfUnhealthy (half : Half)
  -- halfReset, d2dLinkReturn, refclkReturn: what the release of a half finds (R288, R289, R447)
  | halfReset (half : Half) (env : HalfEnv := {})
  | datapathReset (mask : BitVec 16)
  | deviceWarm
  -- d2dLaneLoss: a loss of lock, or flit replays within 1 ms that are traced to the lane (R519)
  | d2dLaneLoss (link : Fin 5) (dir : Fin 2) (lane : Fin 104) (replays : Option Nat)
  | d2dLinkReturn (link : Fin 5) (env : HalfEnv := {})
  | refclkReturn (clk : RefClk) (dt : Nat) (env : HalfEnv := {})
  | holdupDeassert
  | ppsEdge (dt : Nat)
  | secondStageWatchdog
  | avsTargetRetry (half : Half) (reported : Option Nat)
  | debugPortAccess (reach : DebugReach) (act : DebugAct := .none)
  | i3cDynamicAddress (addr : BitVec 7)
  | mctpControlMessage (b : Binding) (command : Byte)
  deriving DecidableEq, Repr

end Sys2Proof
end

