-- ==== Sys2Proof/Decode.lean ====
section
/-! DEFINITION. The commands that words spell. No row of the table of operations gives bits, so no word spells a command: they reach the block as
bus operations, protocol messages and events, which `Instr` names. -/

namespace Sys2Proof

/-- The command that a word spells by the table's bits: none. DESIGN CHOICE (log 10). -/
def decodeTableWord (_nbits _w : Nat) : Option Instr := none

end Sys2Proof
end

