-- ==== Sys2Proof/Machine/Tab.lean ====
section
/-! DEFINITION. Operations over sparse tables and byte strings: the one place that searches, writes and removes keyed data, and the
byte-order conversions of R8 and R9. -/

namespace Sys2Proof

/-- The entry at key `k`, if one is listed. -/
def Tab.find {α : Type} (k : Nat) : Tab α → Option α
  | [] => none
  | (j, v) :: t => if k = j then some v else Tab.find k t

/-- The entry at key `k`, or `d` where none is listed. -/
def Tab.getD {α : Type} (t : Tab α) (k : Nat) (d : α) : α := (Tab.find k t).getD d

/-- The table with `v` at key `k`, keys kept rising. -/
def Tab.set {α : Type} (k : Nat) (v : α) : Tab α → Tab α
  | [] => [(k, v)]
  | (j, w) :: t => if k = j then (k, v) :: t else if k < j then (k, v) :: (j, w) :: t else (j, w) :: Tab.set k v t

/-- The table with nothing at key `k`. -/
def Tab.del {α : Type} (k : Nat) (t : Tab α) : Tab α := t.filter (fun e => e.1 != k)

/-- The table with `f` applied at key `k`, starting from `d` where nothing is listed. -/
def Tab.upd {α : Type} (k : Nat) (d : α) (f : α → α) (t : Tab α) : Tab α := Tab.set k (f (t.getD k d)) t

/-- The table with every entry changed by `f`. -/
def Tab.mapV {α : Type} (f : Nat → α → α) (t : Tab α) : Tab α := t.map (fun e => (e.1, f e.1 e.2))

/-- The keys whose entries satisfy `p`, rising. -/
def Tab.keysWhere {α : Type} (p : Nat → α → Bool) (t : Tab α) : List Nat :=
  (t.filter (fun e => p e.1 e.2)).map (·.1)

/-- Whether some entry satisfies `p`. -/
def Tab.anyV {α : Type} (p : Nat → α → Bool) (t : Tab α) : Bool := t.any (fun e => p e.1 e.2)

/-- How many entries satisfy `p`. -/
def Tab.countV {α : Type} (p : Nat → α → Bool) (t : Tab α) : Nat := t.countP (fun e => p e.1 e.2)

/-- The lowest number from `lo`, below `lo + n`, that `used` does not hold. DESIGN CHOICE (log 12). -/
def lowestFree (used : Nat → Bool) (lo : Nat) : Nat → Option Nat
  | 0 => none
  | n + 1 => if used lo then lowestFree used (lo + 1) n else some lo

/-- The keys of a table whose keys rise are strictly rising. -/
def Tab.rising {α : Type} : Tab α → Bool
  | [] => true
  | [_] => true
  | (j, _) :: (k, w) :: t => decide (j < k) && Tab.rising ((k, w) :: t)

/-- The canonical form of a byte memory whose unlisted bytes read as `d`: keys rise and no entry equals `d`. -/
def Mem.wf (d : Byte) (m : Tab Byte) : Bool := Tab.rising m && m.all (fun e => e.2 != d)

/-- One byte of a memory whose unlisted bytes read as `d`. -/
def Mem.get (d : Byte) (m : Tab Byte) (a : Nat) : Byte := m.getD a d

/-- A memory with byte `b` at `a`, in canonical form. -/
def Mem.put (d : Byte) (m : Tab Byte) (a : Nat) (b : Byte) : Tab Byte :=
  if b = d then Tab.del a m else Tab.set a b m

/-- `n` bytes from `a` on. -/
def Mem.read (d : Byte) (m : Tab Byte) (a : Nat) : Nat → Bytes
  | 0 => []
  | n + 1 => Mem.get d m a :: Mem.read d m (a + 1) n

/-- A memory with `bs` written from `a` on. -/
def Mem.write (d : Byte) (m : Tab Byte) (a : Nat) : Bytes → Tab Byte
  | [] => m
  | b :: bs => Mem.write d (Mem.put d m a b) (a + 1) bs

/-- A number from its little-endian bytes (R8). -/
def leNat : Bytes → Nat
  | [] => 0
  | b :: bs => b.toNat + 256 * leNat bs

/-- A number from its big-endian bytes (R9). -/
def beNat (bs : Bytes) : Nat := leNat bs.reverse

/-- `n` bytes of a number, least significant first. -/
def toLe : Nat → Nat → Bytes
  | 0, _ => []
  | n + 1, v => BitVec.ofNat 8 v :: toLe n (v / 256)

/-- `n` bytes of a number, most significant first. -/
def toBe (n v : Nat) : Bytes := (toLe n v).reverse

/-- The bytes from `off`, `n` of them; bytes past the end read as zero. -/
def slice (bs : Bytes) (off n : Nat) : Bytes :=
  let t := (bs.drop off).take n
  t ++ List.replicate (n - t.length) 0

/-- The little-endian field of `n` bytes at `off`. -/
def le (bs : Bytes) (off n : Nat) : Nat := leNat ((bs.drop off).take n)

/-- The big-endian field of `n` bytes at `off`. -/
def be (bs : Bytes) (off n : Nat) : Nat := beNat (slice bs off n)

/-- Bits `lo` to `lo + n - 1` of a number. -/
def bits (v lo n : Nat) : Nat := v / 2 ^ lo % 2 ^ n

/-- One bit of a number. -/
def bit (v i : Nat) : Bool := v / 2 ^ i % 2 == 1

/-- A truth value as a number. -/
def b2n (b : Bool) : Nat := if b then 1 else 0

/-- A byte string with `bs` in place of what stood at `off`. -/
def putBytes (a : Bytes) (off : Nat) (bs : Bytes) : Bytes :=
  slice a 0 off ++ bs ++ a.drop (off + bs.length)

/-- Whether every byte is zero. -/
def allZero (bs : Bytes) : Bool := bs.all (· == 0)

/-- A signed number from `n` bits in two's complement. -/
def signed (n v : Nat) : Int := if v % 2 ^ n < 2 ^ (n - 1) then (v % 2 ^ n : Nat) else ((v % 2 ^ n : Nat) : Int) - (2 ^ n : Nat)

/-- The `n`-bit two's complement of a signed number. -/
def unsigned (n : Nat) (v : Int) : Nat := (v % ((2 ^ n : Nat) : Int)).toNat

/-- Groups of two bits that are set in a mask, as the rising list of their places. -/
def maskBits (n v : Nat) : List Nat := (List.range n).filter (fun i => bit v i)

end Sys2Proof
end

