-- ==== Sys2Proof/Machine/Hash.lean ====
section
/-! DEFINITION. The hash functions and signatures that the manual takes from public standards: SHA-256 and SHA-384 (FIPS 180-4), HMAC
(FIPS 198-1), ECDSA over P-384 (FIPS 186-5), log entry 40; and the CRCs of R573. -/

namespace Sys2Proof

/-! ## Constants: the first bits of the fractional parts of roots of primes (FIPS 180-4) -/

/-- No number from `d` up, `n` of them, divides `p`. -/
def noDivisor (p : Nat) : Nat → Nat → Bool
  | _, 0 => true
  | d, n + 1 => p % d != 0 && noDivisor p (d + 1) n

/-- The first 80 primes: those below 410. -/
def primes80 : List Nat := (List.range 410).filter (fun p => decide (2 ≤ p) && noDivisor p 2 (min (p - 2) 19))

/-- The largest `r` below `2 ^ n` above `acc` whose power `k` is at most `x`. -/
def rootFrom (k x : Nat) : Nat → Nat → Nat
  | acc, 0 => acc
  | acc, n + 1 => if (acc + 2 ^ n) ^ k ≤ x then rootFrom k x (acc + 2 ^ n) n else rootFrom k x acc n

/-- The first 64 bits of the fractional part of the `k`-th root of `p`. -/
def fracRoot (k p : Nat) : Nat := rootFrom k (p * 2 ^ (64 * k)) 0 69 % 2 ^ 64

/-! ## SHA-2 -/

/-- What tells the two hash functions apart: word width, block bytes, bytes of the length field, rounds, and the rotations. -/
structure Sha where
  w      : Nat
  block  : Nat
  lenB   : Nat
  rounds : Nat
  s0 : Nat × Nat × Nat
  s1 : Nat × Nat × Nat
  e0 : Nat × Nat × Nat
  e1 : Nat × Nat × Nat

def sha2small : Sha := ⟨32, 64, 8, 64, (7, 18, 3), (17, 19, 10), (2, 13, 22), (6, 11, 25)⟩
def sha2large : Sha := ⟨64, 128, 16, 80, (1, 8, 7), (19, 61, 6), (28, 34, 39), (14, 18, 41)⟩

def Sha.rotr (h : Sha) (x n : Nat) : Nat := (x / 2 ^ n + x * 2 ^ (h.w - n)) % 2 ^ h.w
def xor3 (a b c : Nat) : Nat := Nat.xor (Nat.xor a b) c
def Sha.small (h : Sha) (r : Nat × Nat × Nat) (x : Nat) : Nat := xor3 (h.rotr x r.1) (h.rotr x r.2.1) (x / 2 ^ r.2.2)
def Sha.big (h : Sha) (r : Nat × Nat × Nat) (x : Nat) : Nat := xor3 (h.rotr x r.1) (h.rotr x r.2.1) (h.rotr x r.2.2)

/-- The constants of the rounds. -/
def Sha.ks (h : Sha) : List Nat := (primes80.take h.rounds).map (fun p => fracRoot 3 p / 2 ^ (64 - h.w))

/-- The message schedule, newest word first. -/
def Sha.schedule (h : Sha) : Nat → List Nat → List Nat
  | 0, ws => ws
  | n + 1, ws =>
    let w := (h.small h.s1 (ws.getD 1 0) + ws.getD 6 0 + h.small h.s0 (ws.getD 14 0) + ws.getD 15 0) % 2 ^ h.w
    h.schedule n (w :: ws)

/-- One round on the eight working variables. -/
def Sha.round (h : Sha) (v : List Nat) (kw : Nat) : List Nat :=
  match v with
  | [a, b, c, d, e, f, g, i] =>
    let ch := Nat.xor (Nat.land e f) (Nat.land (2 ^ h.w - 1 - e) g)
    let maj := xor3 (Nat.land a b) (Nat.land a c) (Nat.land b c)
    let t1 := i + h.big h.e1 e + ch + kw
    let t2 := h.big h.e0 a + maj
    [(t1 + t2) % 2 ^ h.w, a, b, c, (d + t1) % 2 ^ h.w, e, f, g]
  | v => v

/-- The big-endian words of a block. -/
def Sha.words (h : Sha) (b : Bytes) : List Nat := (List.range 16).map (fun i => be b (h.w / 8 * i) (h.w / 8))

/-- One block. -/
def Sha.compress (h : Sha) (v : List Nat) (b : Bytes) : List Nat :=
  let ws := (h.schedule (h.rounds - 16) (h.words b).reverse).reverse
  let x := (List.zipWith (· + ·) h.ks ws).foldl h.round v
  List.zipWith (fun a b => (a + b) % 2 ^ h.w) v x

/-- The message in blocks, `n` of them. -/
def blocksOf (size : Nat) : Nat → Bytes → List Bytes
  | 0, _ => []
  | n + 1, bs => slice bs 0 size :: blocksOf size n (bs.drop size)

/-- The padded message. -/
def Sha.pad (h : Sha) (m : Bytes) : List Bytes :=
  let n := (m.length + 1 + h.lenB + h.block - 1) / h.block
  let z := n * h.block - (m.length + 1 + h.lenB)
  blocksOf h.block n (m ++ [0x80] ++ List.replicate z 0 ++ toBe h.lenB (8 * m.length))

def Sha.digest (h : Sha) (iv : List Nat) (m : Bytes) : Bytes :=
  ((h.pad m).foldl h.compress iv).flatMap (toBe (h.w / 8))

/-- SHA-256. PRESUMED (log 40). -/
def sha256 (m : Bytes) : Bytes := sha2small.digest ((primes80.take 8).map (fun p => fracRoot 2 p / 2 ^ 32)) m
/-- SHA-384: the first 48 bytes; its initial values come from the ninth to the sixteenth prime. PRESUMED (log 40). -/
def sha384 (m : Bytes) : Bytes := (sha2large.digest (((primes80.drop 8).take 8).map (fracRoot 2)) m).take 48

/-- HMAC-SHA-256 with a key of at most 64 bytes. PRESUMED (log 40). -/
def hmac256 (key m : Bytes) : Bytes :=
  let k := slice key 0 64
  sha256 (k.map (· ^^^ 0x5C) ++ sha256 (k.map (· ^^^ 0x36) ++ m))

/-! ## ECDSA over P-384 -/

def p384 : Nat := 2 ^ 384 - 2 ^ 128 - 2 ^ 96 + 2 ^ 32 - 1
def p384n : Nat := 0xFFFFFFFFFFFFFFFFFFFFFFFFFFFFFFFFFFFFFFFFFFFFFFFFC7634D81F4372DDF581A0DB248B0A77AECEC196ACCC52973
def p384b : Nat := 0xB3312FA7E23EE7E4988E056BE3F82D19181D9C6EFE8141120314088F5013875AC656398D8A2ED19D2A85C8EDD3EC2AEF
/-- A point in Jacobian coordinates: (X / Z², Y / Z³), and the point at infinity where Z is 0. -/
abbrev EcPoint := Nat × Nat × Nat
def p384g : EcPoint :=
  (0xAA87CA22BE8B05378EB1C71EF320AD746E1D3B628BA79B9859F741E082542A385502F25DBF55296C3A545E3872760AB7,
   0x3617DE4A96262C6F5D9E98BF9292DC29F8F41DBD289A147CE9DA3113B5F0B8C00A60B1CE1D7E819D7A431D7C90EA0E5F, 1)

/-- `a ^ e` modulo `m`, `n` bits of the exponent. -/
def powMod (m a : Nat) : Nat → Nat → Nat
  | 0, _ => 1 % m
  | n + 1, e =>
    let h := powMod m a n (e / 2)
    if e % 2 = 1 then h * h % m * a % m else h * h % m

/-- The inverse modulo a prime. -/
def invMod (m a : Nat) : Nat := powMod m (a % m) 384 (m - 2)

/-- Products and differences in the field. -/
def mulP (a b : Nat) : Nat := a * b % p384
def subP (a b : Nat) : Nat := (a + (p384 - b % p384)) % p384

/-- Twice a point. -/
def ecDouble (q : EcPoint) : EcPoint :=
  match q with
  | (x, y, z) =>
    let zz := mulP z z
    let yy := mulP y y
    let m := mulP 3 (mulP (subP x zz) (x + zz))
    let v := mulP 4 (mulP x yy)
    let x' := subP (mulP m m) (2 * v)
    (x', subP (mulP m (subP v x')) (mulP 8 (mulP yy yy)), mulP 2 (mulP y z))

/-- The sum of two points. -/
def ecAdd (a b : EcPoint) : EcPoint :=
  match a, b with
  | (x1, y1, z1), (x2, y2, z2) =>
    if z1 = 0 then b
    else if z2 = 0 then a
    else
      let u := mulP x1 (mulP z2 z2)
      let v := mulP y1 (mulP z2 (mulP z2 z2))
      let h := subP (mulP x2 (mulP z1 z1)) u
      let r := subP (mulP y2 (mulP z1 (mulP z1 z1))) v
      if h = 0 then (if r = 0 then ecDouble a else (1, 1, 0))
      else
        let hh := mulP h h
        let x := subP (mulP r r) (mulP h hh + 2 * mulP u hh)
        (x, subP (mulP r (subP (mulP u hh) x)) (mulP v (mulP h hh)), mulP h (mulP z1 z2))

/-- A multiple of a point, `n` bits of the factor. -/
def ecMul (q : EcPoint) : Nat → Nat → EcPoint
  | 0, _ => (1, 1, 0)
  | n + 1, k =>
    let d := ecDouble (ecMul q n (k / 2))
    if k % 2 = 1 then ecAdd d q else d

/-- A point lies on the curve. -/
def ecOn (x y : Nat) : Bool :=
  decide (x < p384) && decide (y < p384) && (y * y % p384 == (x * x % p384 * x + p384b + (p384 - 3) * x) % p384)

/-- ECDSA P-384 with SHA-384: a public key of 96 bytes (X, Y), a signature of 96 bytes (r, s), big-endian. PRESUMED (log 40). -/
def ecdsaVerify (pub msg sig : Bytes) : Bool :=
  let x := be pub 0 48
  let y := be pub 48 48
  let r := be sig 0 48
  let s := be sig 48 48
  let z := beNat (sha384 msg)
  if !ecOn x y || r == 0 || decide (p384n ≤ r) || s == 0 || decide (p384n ≤ s) then false
  else
    let w := invMod p384n s
    match ecAdd (ecMul p384g 384 (z * w % p384n)) (ecMul (x, y, 1) 384 (r * w % p384n)) with
    | (v, _, t) => t != 0 && mulP v (invMod p384 (mulP t t)) % p384n == r

/-! ## CRCs (R573) -/

/-- One bit of a reflected CRC with polynomial `poly`. -/
def crcBit (poly c : Nat) : Nat := if c % 2 = 1 then Nat.xor (c / 2) poly else c / 2
/-- One byte of a reflected CRC. -/
def crcByte (poly c : Nat) (b : Byte) : Nat :=
  let x := Nat.xor c b.toNat
  crcBit poly (crcBit poly (crcBit poly (crcBit poly (crcBit poly (crcBit poly (crcBit poly (crcBit poly x)))))))
/-- A reflected CRC of width `w`, register at the complement of `seed`, final value complemented (R573). -/
def crcOf (w poly seed : Nat) (bs : Bytes) : Nat :=
  Nat.xor (bs.foldl (crcByte poly) (Nat.xor seed (2 ^ w - 1))) (2 ^ w - 1)
/-- CRC-32C: polynomial 0x1EDC_6F41, reflected, begun at the complement of a seed and complemented at the end (R573). -/
def crc32c (seed : Nat) (bs : Bytes) : Nat := crcOf 32 0x82F63B78 seed bs
/-- The CRC-64 of the NVM Express protection format: polynomial 0xAD93_D235_94C9_3659, reflected, likewise (R573). -/
def crc64 (seed : Nat) (bs : Bytes) : Nat := crcOf 64 0x9A6C9329AC4BC9B5 seed bs

end Sys2Proof
end

