-- ==== Sys2Proof/Machine/Aead.lean ====
section
/-! DEFINITION. The algorithms of R338 and the key wraps, from the standards that the manual names: AES and GCM (SP 800-38D), ChaCha20 and
Poly1305 (RFC 8439), AES key wrap (SP 800-38F), and the key derivation of R286. Log entry 40. -/

namespace Sys2Proof

/-! ## AES -/

/-- Multiplication by x in the field of AES. -/
def gfX (b : Nat) : Nat := if 128 ≤ b then Nat.xor (2 * b % 256) 27 else 2 * b
/-- Byte `b` of a table of 256 bytes, held as eight rows of 32, the lowest byte first. -/
def byteOf (t : List Nat) (b : Nat) : Nat := t.getD (b / 32) 0 / 2 ^ (8 * (b % 32)) % 256
/-- The S-box of FIPS 197. -/
def aesS (b : Nat) : Nat := byteOf
  [0xc072a49cafa2d4adf04759fa7dc982ca76abd7fe2b670130c56f6bf27b777c63, 0x75b227ebe28012079a059618c323c7041531d871f1e5a534ccf73f362693fdb7,
   0xcf584c4a39becb6a5bb1fc20ed00d153842fe329b3d63b52a05a6e1b1a2c8309, 0xd2f3ff1021dab6bcf5389d928f40a351a89f3c507f02f94585334d43fbaaefd0,
   0xdb0b5ede14b8ee4688902a22dc4f816073195d643d7ea7c41744975fec130ccd, 0x08ae7a65eaf4566ca94ed58d6d37c8e779e4959162acd3c25c2406490a3a32e0,
   0x9e1dc186b95735610ef6034866b53e708a8bbd4b1f74dde8c6b4a61c2e2578ba, 0x16bb54b00f2d99416842e6bf0d89a18cdf2855cee9871e9b948ed9691198f8e1] b
/-- The inverse S-box of FIPS 197. -/
def aesSInv (b : Nat) : Nat := byteOf
  [0xcbe9dec444438e3487ff2f9b8239e37cfbd7f3819ea340bf38a53630d56a0952, 0x25d18b6d49a25b76b224d92866a12e084ec3fa420b954cee3d23c2a632947b54,
   0x849d8da75746155edab9edfd5048706c92b6655dcc5ca4d41698688664f6f872, 0x6b8a130103bdafc1020f3fca8f1e2cd00645b3b80558e4f70ad3bc8c00abd890,
   0x6edf751ce837f9e28535ade72274ac9673e6b4f0cecff297eadc674f4111913a, 0xf45acd78fec0db9a2079d2c64b3e56fc1bbe18aa0e62b76f89c5291d711af147,
   0xef9cc9939f7ae52d0d4ab519a97f51605fec8027591012b131c7078833a8dd1f, 0x7d0c2155631469e126d677ba7e042b17619953833cbbebc8b0f52aae4d3be0a0] b

/-- The key schedule as words, newest first: `n` more words for a key of `nk` words. -/
def aesWords (nk : Nat) : Nat → Nat → Nat → List (List Nat) → List (List Nat)
  | 0, _, _, ws => ws
  | n + 1, i, rcon, ws =>
    let t := ws.getD 0 []
    let t' :=
      if i % nk = 0 then
        match t with
        | [a, b, c, d] => [Nat.xor (aesS b) rcon, aesS c, aesS d, aesS a]
        | t => t
      else if 6 < nk ∧ i % nk = 4 then t.map aesS
      else t
    aesWords nk n (i + 1) (if i % nk = 0 then gfX rcon else rcon) (List.zipWith Nat.xor (ws.getD (nk - 1) []) t' :: ws)

/-- The round keys of a 16- or 32-byte key, each of 16 bytes. -/
def aesKeys (key : Bytes) : List (List Nat) :=
  let nk := key.length / 4
  let rounds := nk + 6
  let w0 := ((List.range nk).map (fun i => (slice key (4 * i) 4).map (·.toNat))).reverse
  let ws := (aesWords nk (4 * (rounds + 1) - nk) nk 1 w0).reverse
  (List.range (rounds + 1)).map (fun r => ((ws.drop (4 * r)).take 4).flatten)

/-- Byte `i` of the state after the rows are shifted, or shifted back. -/
def shiftRows (s : List Nat) : List Nat := (List.range 16).map (fun i => s.getD ((i + 4 * (i % 4)) % 16) 0)
def shiftRowsInv (s : List Nat) : List Nat := (List.range 16).map (fun i => s.getD ((i + 12 * (i % 4)) % 16) 0)

/-- One column times the matrix of MixColumns. -/
def mixCol (c : List Nat) : List Nat :=
  match c with
  | [x, y, z, w] =>
    let t := Nat.xor (Nat.xor x y) (Nat.xor z w)
    let m := fun (a b : Nat) => Nat.xor (Nat.xor a t) (gfX (Nat.xor a b))
    [m x y, m y z, m z w, m w x]
  | c => c
/-- One column times the inverse matrix, which is that of MixColumns times another. -/
def mixColInv (c : List Nat) : List Nat :=
  match c with
  | [x, y, z, w] =>
    let u := gfX (gfX (Nat.xor x z))
    let v := gfX (gfX (Nat.xor y w))
    mixCol [Nat.xor x u, Nat.xor y v, Nat.xor z u, Nat.xor w v]
  | c => c
/-- A function of columns over the four columns of the state. -/
def eachCol (f : List Nat → List Nat) (s : List Nat) : List Nat := (List.range 4).flatMap (fun c => f ((s.drop (4 * c)).take 4))

def addKey (k s : List Nat) : List Nat := List.zipWith Nat.xor s k

/-- The rounds after the first key addition. -/
def aesRounds : List (List Nat) → List Nat → List Nat
  | [], s => s
  | [k], s => addKey k (shiftRows (s.map aesS))
  | k :: ks, s => aesRounds ks (addKey k (eachCol mixCol (shiftRows (s.map aesS))))

def aesRoundsInv : List (List Nat) → List Nat → List Nat
  | [], s => s
  | [k], s => addKey k (shiftRowsInv s |>.map aesSInv)
  | k :: ks, s => aesRoundsInv ks (eachCol mixColInv (addKey k (shiftRowsInv s |>.map aesSInv)))

/-- One block, encrypted. -/
def aesEnc (keys : List (List Nat)) (b : Bytes) : Bytes :=
  (aesRounds (keys.drop 1) (addKey (keys.headD []) (b.map (·.toNat)))).map (BitVec.ofNat 8)
/-- One block, decrypted. -/
def aesDec (keys : List (List Nat)) (b : Bytes) : Bytes :=
  (aesRoundsInv (keys.reverse.drop 1) (addKey (keys.reverse.headD []) (b.map (·.toNat)))).map (BitVec.ofNat 8)

/-! ## GCM -/

/-- The product in the field of GCM: `n` bits of `x`, most significant first. -/
def ghMul (x : Nat) : Nat → Nat → Nat → Nat
  | 0, _, z => z
  | n + 1, v, z =>
    ghMul x n (if v % 2 = 1 then Nat.xor (v / 2) 0xE1000000000000000000000000000000 else v / 2)
      (if x / 2 ^ n % 2 = 1 then Nat.xor z v else z)

/-- GHASH over whole blocks. -/
def ghash (h : Nat) (bs : List Bytes) : Nat := bs.foldl (fun y b => ghMul (Nat.xor y (beNat b)) 128 h 0) 0

/-- Blocks of 16 bytes, the last padded with zeros. -/
def blocks16 (bs : Bytes) : List Bytes := blocksOf 16 ((bs.length + 15) / 16) bs

/-- The exclusive or of a text and a key stream, as long as the text. -/
def xorBytes (a b : Bytes) : Bytes := List.zipWith (· ^^^ ·) a b

/-- Counter mode from counter `c`. -/
def gcmCtr (keys : List (List Nat)) (nonce : Bytes) (c : Nat) (text : Bytes) : Bytes :=
  let n := (text.length + 15) / 16
  xorBytes text ((List.range n).flatMap (fun i => aesEnc keys (nonce ++ toBe 4 (c + i))))

/-- The tag of GCM over associated data and ciphertext. -/
def gcmTag (keys : List (List Nat)) (nonce aad ct : Bytes) : Bytes :=
  let h := beNat (aesEnc keys (List.replicate 16 0))
  let s := ghash h (blocks16 aad ++ blocks16 ct ++ [toBe 8 (8 * aad.length) ++ toBe 8 (8 * ct.length)])
  gcmCtr keys nonce 1 (toBe 16 s)

/-! ## ChaCha20-Poly1305 -/

def rotl32 (x : BitVec 32) (n : Nat) : BitVec 32 := x.rotateLeft n

def quarter (s : List (BitVec 32)) (a b c d : Nat) : List (BitVec 32) :=
  let va := s.getD a 0 + s.getD b 0
  let vd := rotl32 (s.getD d 0 ^^^ va) 16
  let vc := s.getD c 0 + vd
  let vb := rotl32 (s.getD b 0 ^^^ vc) 12
  let va := va + vb
  let vd := rotl32 (vd ^^^ va) 8
  let vc := vc + vd
  let vb := rotl32 (vb ^^^ vc) 7
  (((s.set a va).set b vb).set c vc).set d vd

def chaRounds : Nat → List (BitVec 32) → List (BitVec 32)
  | 0, s => s
  | n + 1, s =>
    let s := quarter (quarter (quarter (quarter s 0 4 8 12) 1 5 9 13) 2 6 10 14) 3 7 11 15
    chaRounds n (quarter (quarter (quarter (quarter s 0 5 10 15) 1 6 11 12) 2 7 8 13) 3 4 9 14)

/-- The little-endian words of a byte string. -/
def words32 (bs : Bytes) (n : Nat) : List (BitVec 32) := (List.range n).map (fun i => BitVec.ofNat 32 (le bs (4 * i) 4))

def chaBlock (key nonce : Bytes) (c : Nat) : Bytes :=
  let s := [0x61707865, 0x3320646e, 0x79622d32, 0x6b206574] ++ words32 key 8 ++ [BitVec.ofNat 32 c] ++ words32 nonce 3
  (List.zipWith (· + ·) s (chaRounds 10 s)).flatMap (fun w => toLe 4 w.toNat)

def chaCrypt (key nonce text : Bytes) : Bytes :=
  let n := (text.length + 63) / 64
  xorBytes text ((List.range n).flatMap (fun i => chaBlock key nonce (1 + i)))

/-- Poly1305 over a message whose blocks are whole. -/
def poly1305 (key : Bytes) (blocks : List Bytes) : Bytes :=
  let r := Nat.land (le key 0 16) 0x0FFFFFFC0FFFFFFC0FFFFFFC0FFFFFFF
  let a := blocks.foldl (fun a b => (a + leNat b + 2 ^ 128) * r % (2 ^ 130 - 5)) 0
  toLe 16 ((a + le key 16 16) % 2 ^ 128)

def chaTag (key nonce aad ct : Bytes) : Bytes :=
  poly1305 ((chaBlock key nonce 0).take 32) (blocks16 aad ++ blocks16 ct ++ [toLe 8 aad.length ++ toLe 8 ct.length])

/-! ## The algorithms of R338 -/

/-- ALG 2 is ChaCha20-Poly1305, every other one is GCM or GMAC. -/
def aeadIsCha (alg : Nat) : Bool := alg == 2
def aeadIsGmac (alg : Nat) : Bool := alg == 3 || alg == 4
/-- Key bytes of an algorithm (R338). -/
def aeadKeyLen (alg : Nat) : Nat := if alg = 0 ∨ alg = 3 then 16 else 32

/-- Ciphertext and tag of an encryption. PRESUMED (log 40). -/
def aeadSeal (alg : Nat) (key nonce aad text : Bytes) : Bytes × Bytes :=
  if aeadIsCha alg then
    let ct := chaCrypt key nonce text
    (ct, chaTag key nonce aad ct)
  else
    let ks := aesKeys key
    let ct := gcmCtr ks nonce 2 text
    (ct, gcmTag ks nonce aad ct)

/-- Plaintext of a decryption, and whether the tag verifies. PRESUMED (log 40). -/
def aeadOpen (alg : Nat) (key nonce aad ct tag : Bytes) : Bytes × Bool :=
  if aeadIsCha alg then (chaCrypt key nonce ct, chaTag key nonce aad ct == tag)
  else
    let ks := aesKeys key
    (gcmCtr ks nonce 2 ct, gcmTag ks nonce aad ct == tag)

/-! ## Key wrap and derivation -/

/-- One inverse step of the key wrap on the register and the list of 8-byte parts. -/
def unwrapStep (keys : List (List Nat)) (n t : Nat) (s : Bytes × List Bytes) : Bytes × List Bytes :=
  let i := (t - 1) % n
  let b := aesDec keys (toBe 8 (Nat.xor (beNat s.1) t) ++ s.2.getD i [])
  (b.take 8, s.2.set i (b.drop 8))

/-- AES key unwrap (SP 800-38F): none where the integrity check fails. PRESUMED (log 40). -/
def aesUnwrap (kek wrapped : Bytes) : Option Bytes :=
  let n := wrapped.length / 8 - 1
  let keys := aesKeys kek
  let parts := (List.range n).map (fun i => slice wrapped (8 * (i + 1)) 8)
  let r := (List.range (6 * n)).foldl (fun s k => unwrapStep keys n (6 * n - k) s) (slice wrapped 0 8, parts)
  if r.1 == List.replicate 8 0xA6 then some r.2.flatten else none

/-- The pair key of R286. -/
def pairKey (kt : Bytes) (td epoch src dst : Nat) : Bytes :=
  hmac256 kt (toBe 4 1 ++ [0x4C, 0x52, 0x44, 0x2D, 0x50, 0x41, 0x49, 0x52, 0x2D, 0x76, 0x31] ++ [0] ++ toBe 2 td ++ toBe 2 epoch ++
    toBe 4 src ++ toBe 4 dst ++ toBe 4 0x100)

end Sys2Proof
end

