-- ==== Sys2Proof/Machine/Parser.lean ====
section
/-! DEFINITION. The fixed parser: from the header window of a frame to the 256-byte header vector, the malformed reason, or an inner
fragment (R193 to R215). -/

namespace Sys2Proof.Machine

open Sys2Proof

/-- How the fixed parser ends: parsed, malformed with a reason of R211, or an inner fragment (R209). -/
inductive ParseEnd where
  | ok
  | bad (reason : Nat)
  | innerFrag
  deriving DecidableEq, Repr

/-- The header vector built so far. -/
abbrev Hv := Bytes

/-- Writes a little-endian field of the header vector (R199). -/
def Hv.put (off n v : Nat) (h : Hv) : Hv := putBytes h off (toLe n v)
/-- Writes a byte string of the header vector. -/
def Hv.raw (off : Nat) (bs : Bytes) (h : Hv) : Hv := putBytes h off bs
/-- Sets a bit of PRESENT (R200). -/
def Hv.present (i : Nat) (h : Hv) : Hv := h.put 0 2 (le h 0 2 + (if bit (le h 0 2) i then 0 else 2 ^ i))
/-- Sets a bit of INFO (R201). -/
def Hv.info (i : Nat) (h : Hv) : Hv := h.put 2 1 (le h 2 1 + (if bit (le h 2 1) i then 0 else 2 ^ i))

/-- What the parser needs to know of a packet beside its bytes: the frame's first 256 bytes, its length, and the checksums the host
asked the device to fill (R204). -/
structure ParseCtx where
  win   : Bytes
  len   : Nat
  skipO : Bool := false
  skipI : Bool := false
  /-- In a first fragment: where its IP payload ends (R207). -/
  frag  : Option Nat := none
  deriving DecidableEq, Repr

/-- How a header of `n` bytes at `o` lies: whole, cut off by the window or a first fragment, or cut off by the frame's end. -/
inductive Fit where
  | whole | stop | trunc | tiny
  deriving DecidableEq, Repr

/-- R198, R207. -/
def ParseCtx.fit (c : ParseCtx) (o n : Nat) (outerL4 : Bool) : Fit :=
  let inFrag := match c.frag with
    | none => true
    | some f => decide (o + n ≤ f)
  if decide (o + n ≤ 256) && decide (o + n ≤ c.len) && inFrag then .whole
  else if inFrag then (if c.len ≤ 256 then .trunc else .stop)
  else if outerL4 then
    if c.len ≤ 256 ∧ c.len < o + n then .trunc
    else if 256 < o + n ∧ 256 ≤ c.frag.getD 0 then .stop else .tiny
  else .stop

/-- Parsing ends at the last whole header (R198). -/
def stopped (h : Hv) : Hv × ParseEnd := (h.info 2, .ok)

/-- The one's complement sum of a byte string taken as big-endian 16-bit words. -/
def sum16 : Bytes → Nat
  | [] => 0
  | [a] => a.toNat * 256
  | a :: b :: t => a.toNat * 256 + b.toNat + sum16 t

/-- Folds carries into 16 bits; sums of frames stay far below 2^48. -/
def fold16 (n : Nat) : Nat :=
  let a := n % 65536 + n / 65536
  let b := a % 65536 + a / 65536
  b % 65536 + b / 65536

/-- The reason code of a header cut off. -/
def cutReason : Fit → Option Nat
  | .trunc => some 0x03
  | .tiny => some 0x0D
  | _ => none

/-- The offsets of the fields that an outer or an inner header fills. -/
structure L3Slots where
  inner : Bool
  off   : Nat
  sip   : Nat
  dip   : Nat
  proto : Nat
  tos   : Nat
  ttl   : Nat
  l4    : Nat
  flags : Nat
  sport : Nat
  dport : Nat
  deriving DecidableEq, Repr

def outerSlots : L3Slots :=
  { inner := false, off := 32, sip := 64, dip := 80, proto := 96, tos := 97, ttl := 98, l4 := 34, flags := 99, sport := 100, dport := 102 }
def innerSlots : L3Slots :=
  { inner := true, off := 40, sip := 112, dip := 128, proto := 144, tos := 145, ttl := 146, l4 := 42, flags := 147, sport := 148, dport := 150 }

/-- TCP at `o`, with the IP payload ending at `ipEnd` (R196, R211). PRESUMED (log 113). -/
def parseTcp (c : ParseCtx) (k : L3Slots) (o ipEnd : Nat) (h : Hv) : Hv × ParseEnd :=
  let outer := !k.inner
  match c.fit o 20 outer with
  | .stop => stopped h
  | .trunc => (h, .bad 0x03)
  | .tiny => (h, .bad 0x0D)
  | .whole =>
    let hl := be c.win (o + 12) 1 / 16 * 4
    match c.fit o (max 20 hl) outer with
    | .stop => stopped h
    | .trunc => (h, .bad 0x03)
    | .tiny => (h, .bad 0x0D)
    | .whole =>
      if hl < 20 ∨ ipEnd < o + hl then (h, .bad 0x0E)
      else
        let h := (h.present (if k.inner then 14 else 5)).put k.l4 2 o
        let h := (h.put k.sport 2 (be c.win o 2)).put k.dport 2 (be c.win (o + 2) 2)
        ((h.put k.flags 1 (be c.win (o + 13) 1)).put 44 2 (o + hl), .ok)

/-- UDP at `o`; answers the vector and, where the header is whole and sound, its length field. PRESUMED (log 113). -/
def parseUdp (c : ParseCtx) (k : L3Slots) (o ipEnd : Nat) (h : Hv) : (Hv × ParseEnd) × Option Nat :=
  match c.fit o 8 (!k.inner) with
  | .stop => (stopped h, none)
  | .trunc => ((h, .bad 0x03), none)
  | .tiny => ((h, .bad 0x0D), none)
  | .whole =>
    let ul := be c.win (o + 4) 2
    if ul < 8 ∨ (c.frag.isNone ∧ ipEnd < o + ul) then ((h, .bad 0x0F), none)
    else
      let h := (h.present (if k.inner then 15 else 6)).put k.l4 2 o
      let h := (h.put k.sport 2 (be c.win o 2)).put k.dport 2 (be c.win (o + 2) 2)
      ((h.put 44 2 (o + 8), .ok), some ul)

/-- What an IP header leads to. -/
inductive AfterIp where
  | fin (r : Hv × ParseEnd)
  /-- The upper-layer protocol, where it begins, where the IP payload ends, whether the header is a fragment and a first one. -/
  | on (h : Hv) (proto o ipEnd : Nat) (frag first : Bool)
  deriving Repr

/-- IPv4 at `o` (R196, R204, R206, R211); only a fragment gives FRAG_ID its identification (R199). PRESUMED (log 113). DESIGN CHOICE (log 147). -/
def parseIpv4 (c : ParseCtx) (k : L3Slots) (o : Nat) (h : Hv) : AfterIp :=
  match c.fit o 20 false with
  | .stop => .fin (stopped h)
  | .trunc => .fin (h, .bad 0x03)
  | .tiny => .fin (h, .bad 0x0D)
  | .whole =>
    let b0 := be c.win o 1
    let hl := b0 % 16 * 4
    match c.fit o (max 20 hl) false with
    | .stop => .fin (stopped h)
    | .trunc => .fin (h, .bad 0x03)
    | .tiny => .fin (h, .bad 0x0D)
    | .whole =>
      let tl := be c.win (o + 2) 2
      let skip := if k.inner then c.skipI else c.skipO
      if b0 / 16 ≠ 4 then .fin (h, .bad 0x04)
      else if hl < 20 then .fin (h, .bad 0x05)
      else if tl < hl ∨ (c.len < o + tl ∧ ¬ (k.inner ∧ c.frag.isSome)) then .fin (h, .bad 0x06)
      else if ¬ skip ∧ fold16 (sum16 (slice c.win o hl)) ≠ 0xFFFF then .fin (h, .bad 0x07)
      else
        let fw := be c.win (o + 6) 2
        let fo := fw % 8192
        let mf := bit fw 13
        let frag := mf || fo != 0
        let pay := tl - hl
        if frag ∧ (65535 < fo * 8 + pay ∨ (mf ∧ pay % 8 ≠ 0)) then .fin (h, .bad 0x0C)
        else
          let h := (h.present (if k.inner then 12 else 3)).put k.off 2 o
          let h := ((h.put k.tos 1 (be c.win (o + 1) 1)).put k.ttl 1 (be c.win (o + 8) 1)).put k.proto 1 (be c.win (o + 9) 1)
          let h := (h.raw k.sip (slice c.win (o + 12) 4)).raw k.dip (slice c.win (o + 16) 4)
          let h := h.put 44 2 (o + hl)
          let h := if !k.inner && decide (20 < hl) then h.info 3 else h
          let h := if !k.inner && frag then
              let h := ((h.info 0).put 56 4 (be c.win (o + 4) 2)).put 60 2 fo
              if fo = 0 then h.info 1 else h
            else h
          .on h (be c.win (o + 9) 1) (o + hl) (o + tl) frag (fo == 0)

/-- An IPv6 next header that the parser takes as an extension header (R196). -/
def isExt (nh : Nat) : Bool := nh == 0 || nh == 43 || nh == 60 || nh == 44

/-- IPv6 extension headers at `o`: `seen` of them have been parsed, `fragSeen` whether one was a Fragment header (R196, R206 to R208). A
first fragment's headers are read to the end of its payload; an inner one's too, and it goes to the Byre queue all the same (R209). DEDUCED
(log 104). -/
def parseExt (c : ParseCtx) (k : L3Slots) (ipEnd : Nat) : Nat → Nat → Nat → Nat → Bool → Bool → Hv → AfterIp
  | 0, nh, o, _, frag, _, h => .on h nh o ipEnd frag true
  | fuel + 1, nh, o, seen, frag, fragSeen, h =>
    let h := (h.put k.proto 1 nh).put 44 2 o
    if !isExt nh then .on h nh o ipEnd frag true
    else
      let cut : AfterIp := .fin (if frag && k.inner then ((stopped h).1, .innerFrag) else stopped h)
      match c.fit o 2 false with
      | .stop => cut
      | .trunc => .fin (h, .bad 0x03)
      | .tiny => .fin (h, .bad 0x0D)
      | .whole =>
        let n := if nh = 44 then 8 else (be c.win (o + 1) 1 + 1) * 8
        match c.fit o n false with
        | .stop => cut
        | .trunc => .fin (h, .bad 0x03)
        | .tiny => .fin (h, .bad 0x0D)
        | .whole =>
          if 2 ≤ seen then .fin (h, .bad 0x0A)
          else if (nh = 0 ∧ seen ≠ 0) ∨ (nh = 44 ∧ fragSeen) then .fin (h, .bad 0x0B)
          else
            let next := be c.win o 1
            if nh ≠ 44 then parseExt c k ipEnd fuel next (o + n) (seen + 1) frag fragSeen h
            else
              let fw := be c.win (o + 2) 2
              let fo := fw / 8
              let m := bit fw 0
              let pay := ipEnd - (o + 8)
              if fo = 0 ∧ ¬ m then
                parseExt c k ipEnd fuel next (o + 8) (seen + 1) frag true (if k.inner then h else h.info 5)
              else if 65535 < fo * 8 + pay ∨ (m ∧ pay % 8 ≠ 0) then .fin (h, .bad 0x0C)
              else
                let h := if k.inner then h else
                  let h := ((h.info 0).put 56 4 (be c.win (o + 4) 4)).put 60 2 fo
                  if fo = 0 then h.info 1 else h
                if fo = 0 then
                  let f := match c.frag with
                    | none => ipEnd
                    | some f => min f ipEnd
                  parseExt { c with frag := some f } k ipEnd fuel next (o + 8) (seen + 1) true true h
                else .on ((h.put k.proto 1 next).put 44 2 (o + 8)) next (o + 8) ipEnd true false

/-- IPv6 at `o` (R196, R211). DEDUCED (log 104). PRESUMED (log 113). -/
def parseIpv6 (c : ParseCtx) (k : L3Slots) (o : Nat) (h : Hv) : AfterIp :=
  match c.fit o 40 false with
  | .stop => .fin (stopped h)
  | .trunc => .fin (h, .bad 0x03)
  | .tiny => .fin (h, .bad 0x0D)
  | .whole =>
    let w0 := be c.win o 4
    let pl := be c.win (o + 4) 2
    if w0 / 2 ^ 28 ≠ 6 then .fin (h, .bad 0x08)
    else if c.len < o + 40 + pl ∧ ¬ (k.inner ∧ c.frag.isSome) then .fin (h, .bad 0x09)
    else
      let h := (h.present (if k.inner then 13 else 4)).put k.off 2 o
      let h := (h.put k.tos 1 (w0 / 2 ^ 20)).put k.ttl 1 (be c.win (o + 7) 1)
      let h := if k.inner then h else h.put 52 4 (w0 % 2 ^ 20)
      let h := (h.raw k.sip (slice c.win (o + 8) 16)).raw k.dip (slice c.win (o + 24) 16)
      parseExt c k (o + 40 + pl) 4 (be c.win (o + 6) 1) (o + 40) 0 false false h

/-- The inner L3 and L4 headers at `o` for an inner EtherType (R196, R209). -/
def parseInnerL3 (c : ParseCtx) (et o : Nat) (h : Hv) : Hv × ParseEnd :=
  let after : AfterIp :=
    if et = 0x0800 then parseIpv4 c innerSlots o h
    else if et = 0x86DD then parseIpv6 c innerSlots o h
    else .fin (h, .ok)
  match after with
  | .fin r => r
  | .on h proto o ipEnd frag _ =>
    if frag then (h, .innerFrag)
    else if proto = 6 then parseTcp c innerSlots o ipEnd h
    else if proto = 17 then (parseUdp c innerSlots o ipEnd h).1
    else (h, .ok)

/-- A tag's TPID (R196). -/
def isTpid (et : Nat) : Bool := et == 0x8100 || et == 0x88A8

/-- Up to two tags after an Ethernet header whose type field lies at `o`: answers the vector, the EtherType after the tags and where the
next header begins, or an end. `slot1` and `slot2` take the TCIs. DEDUCED (log 104). -/
def parseTags (c : ParseCtx) (inner : Bool) : Nat → Nat → Hv → Sum (Hv × ParseEnd) (Hv × Nat × Nat)
  | seen, 0, h => .inr (h, 0, seen)
  | o, fuel + 1, h =>
    let et := be c.win o 2
    if !isTpid et then .inr (h, et, o + 2)
    else if fuel = 0 then .inl (h, .bad 0x01)
    else
      match c.fit (o + 2) 4 false with
      | .stop => .inl (stopped h)
      | .trunc => .inl (h, .bad 0x03)
      | .tiny => .inl (h, .bad 0x0D)
      | .whole =>
        let tci := be c.win (o + 2) 2
        let first := fuel == 2
        let h := if inner then (if first then h.put 164 2 tci else h)
          else if first then
            let h := (h.present 1).put 24 2 tci
            if et = 0x88A8 then h.info 4 else h
          else (h.present 2).put 26 2 tci
        parseTags c inner (o + 4) fuel (h.put 44 2 (o + 6))

/-- The inner Ethernet header at `o` and what follows. DEDUCED (log 104). -/
def parseInnerEth (c : ParseCtx) (o : Nat) (h : Hv) : Hv × ParseEnd :=
  match c.fit o 14 false with
  | .stop => stopped h
  | .trunc => (h, .bad 0x03)
  | .tiny => (h, .bad 0x0D)
  | .whole =>
    let h := ((h.present 11).put 38 2 o).put 44 2 (o + 14)
    let h := (h.raw 152 (slice c.win o 6)).raw 158 (slice c.win (o + 6) 6)
    match parseTags c true (o + 12) 3 h with
    | .inl r => r
    | .inr (h, et, o3) => parseInnerL3 c et o3 (h.put 166 2 et)

/-- Where the first byte of a tunnel header lies (R198): readable, cut off, or past the frame. -/
def ParseCtx.flagByte (c : ParseCtx) (o : Nat) : Fit :=
  match c.frag with
  | some f => if o < f ∧ o < 256 ∧ o < c.len then .whole else .stop
  | none => if c.len ≤ o then .trunc else if o < 256 then .whole else .stop

/-- VXLAN at `o` (R196, R198). PRESUMED (log 113). -/
def parseVxlan (c : ParseCtx) (o : Nat) (h : Hv) : Hv × ParseEnd :=
  match c.flagByte o with
  | .stop => stopped h
  | .trunc => (h, .ok)
  | .tiny => (h, .ok)
  | .whole =>
    if !bit (be c.win o 1) 3 then (h, .ok)
    else
      match c.fit o 8 false with
      | .stop => stopped h
      | .trunc => (h, .bad 0x03)
      | .tiny => (h, .bad 0x0D)
      | .whole =>
        let h := ((h.present 9).put 36 2 o).put 44 2 (o + 8)
        parseInnerEth c (o + 8) ((h.put 48 4 (be c.win (o + 4) 3)).put 62 2 0x6558)

/-- GENEVE at `o`, in a UDP datagram that ends at `udpEnd` (R196, R198, R211). PRESUMED (log 113). -/
def parseGeneve (c : ParseCtx) (o udpEnd : Nat) (h : Hv) : Hv × ParseEnd :=
  match c.flagByte o with
  | .stop => stopped h
  | .trunc => (h, .ok)
  | .tiny => (h, .ok)
  | .whole =>
    let b0 := be c.win o 1
    if b0 / 64 ≠ 0 then (h, .ok)
    else
      let ol := b0 % 64 * 4
      match c.fit o (8 + ol) false with
      | .stop => stopped h
      | .trunc => (h, .bad 0x03)
      | .tiny => (h, .bad 0x0D)
      | .whole =>
        if c.frag.isNone ∧ udpEnd < o + 8 + ol then (h, .bad 0x10)
        else
          let pt := be c.win (o + 2) 2
          let h := ((h.present 10).put 36 2 o).put 44 2 (o + 8 + ol)
          let h := ((h.put 46 1 ol).put 48 4 (be c.win (o + 4) 3)).put 62 2 pt
          if pt = 0x6558 then parseInnerEth c (o + 8 + ol) h
          else if pt = 0x0800 ∨ pt = 0x86DD then parseInnerL3 c pt (o + 8 + ol) h
          else (h, .ok)

/-- The LRD header at `o`, in a datagram whose UDP length is `ul` (R196, R211). -/
def parseLrdHdr (c : ParseCtx) (o ul : Nat) (h : Hv) : Hv × ParseEnd :=
  match c.fit o 32 false with
  | .stop => stopped h
  | .trunc => (h, .bad 0x03)
  | .tiny => (h, .bad 0x0D)
  | .whole =>
    if ul < 40 then (h, .bad 0x12)
    else (((h.present 8).raw 168 (slice c.win o 32)).put 44 2 (o + 32), .ok)

/-- ESP at `o` (R196, R211). PRESUMED (log 113). -/
def parseEsp (c : ParseCtx) (o : Nat) (h : Hv) : Hv × ParseEnd :=
  match c.fit o 8 false with
  | .stop => stopped h
  | .trunc => (h, .bad 0x03)
  | .tiny => (h, .bad 0x0D)
  | .whole =>
    if be c.win o 4 = 0 then (h, .bad 0x11)
    else
      let h := ((h.present 7).put 34 2 o).put 44 2 (o + 8)
      ((h.put 104 4 (be c.win o 4)).put 108 4 (be c.win (o + 4) 4), .ok)

/-- What follows the outer L3 header (R196, R207 to R210). -/
def parseL4 (c : ParseCtx) (v6 : Bool) : AfterIp → Hv × ParseEnd
  | .fin r => r
  | .on h proto o ipEnd frag first =>
    if frag && !first then (h.put 34 2 o, .ok)
    else
      let c := if frag then { c with frag := some ipEnd } else c
      if proto = 6 then parseTcp c outerSlots o ipEnd h
      else if proto = 17 then
        match parseUdp c outerSlots o ipEnd h with
        | (r, none) => r
        | ((h, e), some ul) =>
          let dp := be c.win (o + 2) 2
          if dp = 4789 then parseVxlan c (o + 8) h
          else if dp = 6081 then parseGeneve c (o + 8) (o + ul) h
          else if dp = 20768 ∧ v6 ∧ ¬ frag then parseLrdHdr c (o + 8) ul h
          else (h, e)
      else if proto = 50 ∧ ¬ frag then parseEsp c o h
      else (h, .ok)

/-- The fixed parser from byte 0 (R196, R212). -/
def parseFrom (c : ParseCtx) (h : Hv) : Hv × ParseEnd :=
  match c.fit 0 14 false with
  | .whole =>
    let h := (h.present 0).put 44 2 14
    let h := (h.raw 12 (slice c.win 0 6)).raw 18 (slice c.win 6 6)
    if bit (be c.win 6 1) 0 then (h, .bad 0x02)
    else
      match parseTags c false 12 3 h with
      | .inl r => r
      | .inr (h, et, o) =>
        let h := h.put 28 2 et
        if et = 0x0800 then parseL4 c false (parseIpv4 c outerSlots o h)
        else if et = 0x86DD then parseL4 c true (parseIpv6 c outerSlots o h)
        else (h, .ok)
  | _ => (h, .bad 0x03)

/-- The header vector before parsing: what the ingress half knows of the packet (R199). -/
def hvStart (source pass lp pipe fid len : Nat) : Hv :=
  let h : Hv := List.replicate 256 0
  ((((h.put 3 1 (source + 4 * pass)).put 4 1 (if source = 0 then lp else 0)).put 5 1 pipe).put 6 2 (if source = 1 then fid else 0)).put 8 2 len

/-- Parses a frame (R193 to R212). PRESUMED (log 113). -/
def parseFrame (frame : Bytes) (source pass lp pipe fid : Nat) (skipO skipI : Bool) : Hv × ParseEnd :=
  let r := parseFrom { win := frame.take 256, len := frame.length, skipO := skipO, skipI := skipI }
    (hvStart source pass lp pipe fid frame.length)
  match r.2 with
  | .bad c => (r.1.put 10 1 c, r.2)
  | _ => r

/-- A bit of PRESENT (R200). -/
def hvHas (h : Hv) (i : Nat) : Bool := bit (le h 0 2) i

end Sys2Proof.Machine
end

