-- ==== Sys2Proof/Machine/DeepParse.lean ====
section
/-! DEFINITION. Deep-parse programs and how they run (R218, R220). DESIGN CHOICE (log 118): the manual names the operations by kind and gives
no encoding of them. -/

namespace Sys2Proof.Machine

open Sys2Proof

/-- What a program has while it runs: the place of its next operation, its registers, DEEP_CODE and DEEP_DATA (R218). -/
structure DeepRegs where
  pc   : Nat := 0
  regs : Tab (BitVec 32) := []
  code : Byte := 0
  data : Bytes := List.replicate 48 0
  deriving DecidableEq, Repr

/-- How a program ends, or that it goes on (R220). -/
inductive DeepStep where
  | next (r : DeepRegs)
  | accept
  | reject (code : Byte)
  | fault
  deriving DecidableEq, Repr

def DeepRegs.reg (r : DeepRegs) (i : Fin 16) : BitVec 32 := r.regs.getD i.val 0
/-- The register written, and on to the next operation. -/
def DeepRegs.put (r : DeepRegs) (i : Fin 16) (v : BitVec 32) : DeepStep := .next { r with pc := r.pc + 1, regs := Tab.set i.val v r.regs }
/-- Bytes of an access. -/
def deepSize (size : Fin 3) : Nat := 2 ^ size.val


/-- The header vector as a program reads it: DEEP_CODE and DEEP_DATA as it has left them. -/
def DeepRegs.vector (r : DeepRegs) (h : Hv) : Bytes := putBytes (putBytes h 11 [r.code]) 208 r.data

/-- The arithmetic, logic and shifts. DESIGN CHOICE (log 118). -/
def deepAlu (op : DeepAlu) (a b : BitVec 32) : BitVec 32 :=
  match op with
  | .add => a + b
  | .sub => a - b
  | .and => a &&& b
  | .or => a ||| b
  | .xor => a ^^^ b
  | .shl => a <<< b.toNat
  | .shr => a >>> b.toNat

/-- The compares, unsigned. -/
def deepCmp (c : DeepCmp) (a b : BitVec 32) : Bool :=
  match c with
  | .eq => a == b
  | .ne => a != b
  | .lt => a.ult b
  | .ge => !a.ult b

/-- One operation (R218, R220): frame reads are in network byte order and zero past the frame's end; a frame read past byte 511, a
constant-table read out of range and a branch outside the program are faults; the header vector reads as zero past its end. DESIGN CHOICE (log
118, 147). -/
def deepStep (p : DeepProg) (h : Hv) (f : Bytes) (r : DeepRegs) : DeepStep :=
  match p.ops[r.pc]? with
  | none => .fault
  | some op =>
    match op with
    | .load size rd rs off =>
      let a := (r.reg rs + off).toNat
      if 512 < a + deepSize size then .fault else r.put rd (BitVec.ofNat 32 (be f a (deepSize size)))
    | .vector size rd rs off => r.put rd (BitVec.ofNat 32 (le (r.vector h) (r.reg rs + off).toNat (deepSize size)))
    | .const size rd rs off =>
      let a := (r.reg rs + off).toNat
      if 1024 < a + deepSize size then .fault else r.put rd (BitVec.ofNat 32 (le p.consts a (deepSize size)))
    | .alu op rd ra rb => r.put rd (deepAlu op (r.reg ra) (r.reg rb))
    | .branch c ra rb t =>
      if !deepCmp c (r.reg ra) (r.reg rb) then .next { r with pc := r.pc + 1 }
      else if p.ops.length ≤ t then .fault else .next { r with pc := t }
    | .storeData size rs ra off =>
      let a := (r.reg ra + off).toNat
      .next { r with
        pc := r.pc + 1
        data := if a + deepSize size ≤ 48 then putBytes r.data a (toLe (deepSize size) (r.reg rs).toNat) else r.data }
    | .storeCode rs => .next { r with pc := r.pc + 1, code := (r.reg rs).truncate 8 }
    | .accept => .accept
    | .reject c => .reject c

/-- Runs a program for at most `n` operations: the reason of a packet that is malformed by it, none for ACCEPT, with what it has stored
(R220). -/
def deepProgram (p : DeepProg) (h : Hv) (f : Bytes) : Nat → DeepRegs → Option Nat × DeepRegs
  | 0, r => (some 0x3E, r)
  | n + 1, r =>
    match deepStep p h f r with
    | .next r => deepProgram p h f n r
    | .accept => (none, r)
    | .reject c => (some (if 0x20 ≤ c.toNat ∧ c.toNat ≤ 0x3D then c.toNat else 0x3F), r)
    | .fault => (some 0x3F, r)

end Sys2Proof.Machine
end

