-- ==== Sys2Proof/Config.lean ====
section
/-! DEFINITION. What an implementation fixes and the manual leaves open: the free values, which have no body, so that a statement
holds for every value of them. -/

namespace Sys2Proof

/-- The `n`-th value drawn where the manual states no value: random draws (R243, R340, R472), readings of step counters (R3, R385),
results an operation leaves open. Log entry 1. -/
opaque Config.freeWord : Nat → BitVec 64

/-- What an unwritten byte of private or shared memory holds: undefined at reset (R419). Log entry 2. -/
opaque Config.freeByte : Nat → Nat → BitVec 8

/-- A byte string the manual leaves to the implementation (a signature, a certificate, a record's contents), by draw and place. Log
entry 3. -/
opaque Config.freeBytes : Nat → Nat → BitVec 8

/-- The SEVERITY that Hearth gives a Ledger record of a code, and the ORIGIN of one of a code about a subject with an INDEX: R514 names the fields
with their values 0 to 4 and does not say which a record has. Log entry 4. -/
opaque Config.ledgerSeverity : Nat → Fin 5
opaque Config.ledgerOrigin : Nat → Nat → Nat → Fin 5

/-- The microcoded engines: whether MIN and MAX compare signed words, whether an address of a port's space lies on the other half, and the space and
address that a stream's registers spell; R426 and R428 state none of them. Log entry 5. -/
opaque Config.minMaxSigned : Bool
opaque Config.portFar : Nat → BitVec 64 → Bool
opaque Config.streamSpace : BitVec 64 → BitVec 4
opaque Config.streamAddr : BitVec 64 → BitVec 60


/-- IFACE of the running firmware, and Hearth's VERSION while no image runs; no value is stated (R47, R84). Log entry 6. -/
opaque Config.iface : BitVec 8

/-- The bucket of a host-route key under the keyed hash of R254, whose function no rule states. Log entry 7. -/
opaque Config.routeBucket : List (BitVec 8) → BitVec 23

/-- The certificate chain of slot 0, and contents of management responses that no rule states, by item and place (R495, R500, R502). Log
entry 8. -/
opaque Config.certChain : List (BitVec 8)
opaque Config.mgmtByte : Nat → Nat → BitVec 8

/-- The vendor ID that configuration space gives, and the Relaxed Ordering and ID-Based Ordering attributes of the completion of a register read
other than that of FN_ABORT_STATUS, by offset; no value is stated (R40, R58). Log entry 126. -/
opaque Config.vendorId : BitVec 16
opaque Config.readAttr : BitVec 32 → BitVec 2

end Sys2Proof
end

