-- ==== Sys2Proof/Machine/State.lean ====
section
/-! DEFINITION. The state of the block: everything the manual gives the machine, as plain data, with its value right after power-on
reset; the faults and refusals; what leaves the block. Each field's docstring names its rule. -/

namespace Sys2Proof.Machine

/-- The machine never stops with a fault of its own: an error of the hardware is an effect (an error flag, an event, a ring in ERROR,
a parked thread, a status). The type has this one constructor for a step that reaches past the block's address spaces. -/
inductive Fault where
  /-- Raised by no command of this model. Safe: it only stops. -/
  | outsideAddressSpace
  deriving DecidableEq, Repr

/-- Why a command is refused by the model. -/
inductive Refusal where
  /-- Raised by an arm of `exec` that has no meaning yet. Safe: it only stops. -/
  | notModelled (mnemonic : String)
  deriving DecidableEq, Repr

/-! ## What leaves the block -/

/-- One thing the device sends: a posted write, a message-signalled interrupt or a read request on a function's link (R41), the value of a
register read, a frame on a logical port, a message on a management binding, or a frame to the BMC. DESIGN CHOICE (log 17). -/
inductive Out where
  | write (fid : Nat) (addr : BitVec 64) (data : Bytes)
  | msi (fid vec : Nat)
  /-- A read request; `strict` marks one whose Relaxed Ordering is clear by rule (R321). -/
  | read (fid : Nat) (addr : BitVec 64) (len : Nat) (strict : Bool := false)
  /-- The completion of a register read, with its Relaxed Ordering and ID-Based Ordering attributes (R58), and its bytes beyond the first eight (R48). -/
  | reg (value : BitVec 64) (ro ido : Bool) (more : Bytes := [])
  | frame (lp : Nat) (bytes : Bytes)
  | mgmt (b : Binding) (bytes : Bytes)
  | bmcFrame (bytes : Bytes)
  /-- An in-band interrupt on I3C (R495). -/
  | ibi
  /-- A register read by the debug port (R469). -/
  | debug (value : BitVec 64)
  /-- An operation an engine issues on a memory port, a word it pushes onto a queue, a word its CRC unit takes (R426, R429). -/
  | engPort (engine op space : Nat) (addr data : BitVec 64) (size : Nat)
  | engStream (engine : Nat) (src dst len : BitVec 64)
  | engPush (engine queue : Nat) (word : BitVec 64)
  | engCrc (engine : Nat) (crc64 : Bool) (word : BitVec 64)
  /-- A configuration request completed with Request Retry Status (R463). -/
  | retry
  /-- A TLP with ECRC appended (R42). -/
  | ecrc (o : Out)
  deriving DecidableEq, Repr

/-! ## Clocks and time -/

/-- Clocks and device time (R7, R184 to R192). DESIGN CHOICE (log 20). -/
structure Clock where
  /-- Wall-clock ns since standby power good (R7). -/
  now : Nat := 0
  /-- Device time, in ns since its epoch: 48 bits of seconds and 32 bits of ns (R184). -/
  dev : Nat := 0
  /-- Device time that the frequency correction has earned and not yet a whole ns, in 10^-9 ns (R185). -/
  sub : Int := 0
  /-- FREQ_PPB of the last TIME_ADJUST (R118, R188). -/
  freqPpb : Int := 0
  /-- Slew not yet absorbed, ns (R188). -/
  slew : Int := 0
  /-- Synchronised (R189). -/
  synced : Bool := false
  /-- Device time of the last TIME_ADJUST (R182, R189). -/
  lastAdjust : Nat := 0
  /-- EV_TIME_HOLDOVER has been posted since the last TIME_ADJUST (R189). -/
  holdover : Bool := false
  /-- The step guard mark G, while it is raised (R192). -/
  guardG : Option Nat := none
  /-- The start mark G0 (R305). -/
  startG0 : Option Nat := none
  /-- Reference clocks that are lost (R561). -/
  missing : List RefClk := []
  /-- Rising edges of TIME_PPS_OUT since reset (R185). -/
  pps : Nat := 0
  deriving DecidableEq, Repr

/-! ## Host links -/

/-- What an outstanding host read is for. -/
inductive ReadUse where
  | index (ring : Nat)
  /-- The descriptor slots that a class-7 SQ reads together with its index block (R147). -/
  | spec (ring : Nat)
  | descs (ring : Nat)
  /-- What the descriptor of an index names: its fragment table, its data, its tag (R150, R361). -/
  | data (ring : Nat) (index : BitVec 32)
  | image
  | context (ep : Nat)
  /-- The bytes that a READ_REQ for an endpoint asks for (R314). -/
  | response (ep : Nat)
  deriving DecidableEq, Repr

/-- An outstanding host read (R42, R56). -/
structure HostRead where
  fid     : Nat
  addr    : BitVec 64 := 0
  len     : Nat := 0
  use     : ReadUse
  /-- When it was issued (R38). -/
  issued  : Nat := 0
  /-- It has been issued a second time after an ECRC failure (R42). -/
  retried : Bool := false
  /-- Its function was aborted: the completion is discarded (R56). -/
  orphan  : Bool := false
  deriving DecidableEq, Repr

/-- One host link; entry 2h is host port h, or its link A (R38, R43, R47). DESIGN CHOICE (log 21). PRESUMED (log 135). -/
structure Link where
  up         : Bool := false
  /-- HIF_LINK.RATE and WIDTH, as trained (R47). -/
  rate       : Nat := 0
  width      : Nat := 0
  /-- PERST# is asserted (R63, R463). -/
  perst      : Bool := true
  /-- The link trains or waits for its partner (R63, R463). -/
  training   : Bool := false
  /-- SR-IOV VF Enable and NumVFs (R43, R52). -/
  vfEnable   : Bool := false
  numVfs     : Nat := 0
  /-- HIF_ERR (R47). -/
  err        : BitVec 4 := 0
  /-- HIF_SCRATCH (R47). -/
  scratch    : BitVec 64 := 0
  /-- What the host programs in configuration space (R38, R42): completion timeout in ns, Max Read Request Size and Max Payload Size in
  bytes, ECRC generation and checking. PRESUMED (log 135). -/
  cplTimeout : Nat := 10000000
  mrrs       : Nat := 512
  mps        : Nat := 128
  ecrcGen    : Bool := false
  ecrcChk    : Bool := false
  /-- AER has recorded an ECRC error (R42). -/
  aerEcrc    : Bool := false
  /-- Outstanding reads by tag (R42). -/
  reads      : Tab HostRead := []
  /-- Reads that wait for a free tag, oldest first (R38). -/
  readQ      : List HostRead := []
  deriving DecidableEq, Repr

/-! ## Functions -/

/-- The states of a function, with the values of R51. -/
inductive FnState where
  | disabled | idle | active | aborting | aborted | quarantine
  deriving DecidableEq, Repr

/-- Where an abort or a quarantine leads (R52). -/
inductive Goal where
  | none | idle | active | disabled | aborted
  deriving DecidableEq, Repr

/-- The privilege levels of R46. -/
inductive Priv where
  | tenant | host | infra
  deriving DecidableEq, Repr

/-- The grant layout of R90. -/
structure Grant where
  maxClass : Nat := 0
  sq : Nat := 0
  cq : Nat := 0
  eq : Nat := 0
  rule : Nat := 0
  ep : Nat := 0
  key : Nat := 0
  mr : Nat := 0
  msg : Nat := 0
  bufKib : Nat := 0
  deriving DecidableEq, Repr

/-- A request the device has copied (R66, R71). -/
structure Req where
  header     : Bytes
  payload    : Bytes
  acceptedAt : Nat
  /-- Its place in the order of acceptance (R78). -/
  order      : Nat := 0
  /-- It was accepted while CP_UNAVAILABLE was 1: the hardware answers it (R70). -/
  refused    : Bool := false
  deriving DecidableEq, Repr

/-- One entry of the MSI-X table: message address, message data and the mask bit (R50). PRESUMED (log 23). -/
structure MsixEntry where
  addr : BitVec 64 := 0
  data : BitVec 32 := 0
  ctrl : BitVec 32 := 1
  deriving DecidableEq, Repr

/-- Where an event goes: a named event queue, or the function EQ chosen when it is written (R163). -/
inductive EvTarget where
  | eq (num : Nat)
  | fn
  deriving DecidableEq, Repr

/-- A pending-bit event that waits (R162, R164). -/
structure EvBit where
  code   : Nat
  source : Nat
  target : EvTarget
  data   : Bytes
  deriving DecidableEq, Repr

/-- A held event that waits (R164). -/
structure EvHeld where
  code   : Nat
  source : Nat
  target : EvTarget
  data   : Bytes
  deriving DecidableEq, Repr

/-- One function (R44 to R57). DESIGN CHOICE (log 22). PRESUMED (log 23). -/
structure Fn where
  state        : FnState := .disabled
  /-- FN_STATE.REASON (R53). -/
  reason       : Nat := 0
  /-- Generation (R45). -/
  gen          : Byte := 0
  priv         : Priv := .tenant
  /-- FN_ABORT_STATUS (R47). -/
  abInProgress : Bool := false
  abDone       : Bool := false
  abEngReset   : Bool := false
  abHostSilent : Bool := false
  abElapsed    : Nat := 0
  /-- FN_ERR (R47). -/
  err          : BitVec 4 := 0
  /-- FN_DB_REJECT_CNT, saturating (R47). -/
  dbReject     : Nat := 0
  /-- MBX_CTRL (R47). -/
  irqEn        : Bool := false
  vector       : Byte := 0
  owner        : Bool := false
  /-- MBX_STATUS (R47). -/
  dbOwned      : Bool := false
  respSeq      : Byte := 0
  /-- The mailbox area: bytes not listed read zero (R65). -/
  area         : Tab Byte := []
  /-- The copied request that waits for the control processor (R66). -/
  req          : Option Req := none
  /-- MSI-X table, pending bits, enable and function mask (R50). -/
  msix         : Tab MsixEntry := []
  msixPend     : List Nat := []
  msixOn       : Bool := false
  msixMask     : Bool := false
  /-- The grant of FN_CREATE (R90). -/
  grant        : Option Grant := none
  /-- The next ticket serial (R76). -/
  serial       : Nat := 1
  /-- Critical-service hold (R94). -/
  svcHold      : Bool := false
  /-- When the function last left ACTIVE (R52). -/
  leftAt       : Option Nat := none
  goal         : Goal := .none
  /-- An abort in split mode has left it resources on the other half, which rejoin releases before it re-enters ACTIVE (R60). -/
  across       : Bool := false
  deriving DecidableEq, Repr

/-- What a function owns beside its registers. -/
structure FnRes where
  /-- EP_BACKING_SET: address and KiB (R106). -/
  backing  : Option (BitVec 64 × Nat) := none
  /-- Completions held for full completion rings, oldest first: ring and entry bytes (R158). -/
  hold     : List (Nat × Bytes) := []
  /-- Held events and pending-bit events that wait (R164). -/
  evHold   : List EvHeld := []
  evBits   : List EvBit := []
  deriving DecidableEq, Repr

/-! ## Tickets and the control processor -/

/-- The work a ticket stands for (R76). -/
inductive Work where
  | fnCreate (target : Nat) (wasIdle : Bool) (grant : Grant)
  | fnDestroy (target : Nat)
  | ringDestroy (ring : Nat)
  | epDestroy (ep : Nat)
  | portConfig (np breakout fec : Nat) (enable : Bool)
  | powerCap
  deriving DecidableEq, Repr

/-- A ticket (R76, R77, R85). -/
structure Ticket where
  fid     : Nat
  opcode  : Nat
  cookie  : BitVec 64
  /-- TICKET_EQ when EQ_VALID was 1. -/
  eq      : Option Nat
  autoRel : Bool
  work    : Work
  done    : Bool := false
  status  : Nat := 1
  detail  : Nat := 0
  result  : Bytes := []
  deriving DecidableEq, Repr

/-- The reset a RESET_REQUEST has scheduled (R89). -/
structure ResetReq where
  domain   : Nat
  half     : Nat
  pipeMask : Nat
  at_      : Nat
  deriving DecidableEq, Repr

/-- A control processor: the cores on west, or the shadow pair on east (R37, R70). DEDUCED (log 24). -/
structure Cp where
  /-- CP_UNAVAILABLE: not taking commands (R47, R70). -/
  unavailable : Bool := true
  running     : Bool := false
  /-- Time of the last heartbeat (R70, R460). -/
  lastBeat    : Nat := 0
  /-- Mailboxes answered since it failed (R515). -/
  answered    : Nat := 0
  /-- Run control of the debug port has halted it (R469). -/
  halted      : Bool := false
  deriving DecidableEq, Repr

/-! ## Packets -/

/-- What a host injection asked of its packet (R151). -/
structure TxAsk where
  csumL3 : Bool := false
  csumL4 : Bool := false
  inner  : Bool := false
  /-- The submission ring and index whose completion waits for the transmit time (R187). -/
  tstamp : Option (Nat × BitVec 32) := none
  deriving DecidableEq, Repr

/-- A packet inside the pipelines: the frame as buffered, its header vector, and what each pass has decided (R193 to R256). -/
structure Pkt where
  frame  : Bytes
  /-- The header vector, 256 bytes, once parsed (R199). -/
  hv     : Bytes := []
  /-- SOURCE of R199. -/
  source : Nat := 0
  /-- Recirculations so far (R239). -/
  pass   : Nat := 0
  /-- The LP it came in on from the network, on whatever pass it is (R256). -/
  arrLp  : Option Nat := none
  fid    : Nat := 0
  pipe   : Nat := 0
  /-- Class, queue and colour set on an earlier pass, the class its SQ gives it (R238), and those in force. -/
  cls0   : Option Nat := none
  queue0 : Option Nat := none
  col0   : Option Nat := none
  sqCls  : Option Nat := none
  cls    : Nat := 0
  queue  : Nat := 0
  colour : Nat := 0
  metaw  : BitVec 32 := 0
  scope  : Nat := 0x1FFF
  time   : BitVec 64 := 0
  ask    : TxAsk := {}
  /-- The half whose buffer holds it (R22). -/
  half   : Nat := 0
  /-- Rewrites that the egress half or the delivery applies: DECAP (R240), the next hop MAC of a route hit (R255). -/
  decap  : Bool := false
  hop    : Option Bytes := none
  /-- The security association its action names (R240). -/
  sa     : Option Nat := none
  emHit  : Bool := false
  emKind : Nat := 0
  /-- Spread group and sequence number while it is in one (R261). -/
  group  : Option (Nat × BitVec 32) := none
  /-- Device time at which it entered a spreader or a Byre queue (R405). -/
  entered : BitVec 64 := 0
  /-- An LRD packet that has passed steps 1 to 6 of R306 (R320). -/
  past   : Bool := false
  /-- Some byte has been changed since it was received (R530). -/
  touched : Bool := false
  deriving DecidableEq, Repr

/-- A resolved destination (R226, R242). -/
inductive Dest where
  | drop
  | lp (n : Nat)
  | ring (sq : Nat)
  | spread (g : Nat)
  | byre (q : Nat)
  | transport
  | flood (lps : List Nat)
  deriving DecidableEq, Repr

/-! ## Rings -/

inductive RingState where
  | running | error | fetchStopped
  deriving DecidableEq, Repr

/-- What an SQ carries (R133). -/
inductive SqUse where
  | packet | lrd | cipher
  deriving DecidableEq, Repr

inductive SqRole where
  | undecided | transmit | receive
  deriving DecidableEq, Repr

/-- A descriptor that has been fetched and checked, with its fragments (address, length, CRC_SKIP, CRC_PLACE) and its index. `begun`:
its own effect has taken place; `cpl`: the completion it has earned and that its order still holds back (R156). -/
structure FDesc where
  index : BitVec 32
  bytes : Bytes
  frags : List (BitVec 64 × Nat × Bool × Bool) := []
  begun : Bool := false
  cpl   : Option Bytes := none
  /-- The endpoint and message it has become (R293). -/
  msg   : Option (Nat × Nat) := none
  /-- A cipher job that has passed its key check, with the counter value it has drawn (R351, R362). -/
  taken : Bool := false
  ctr   : Option Nat := none
  /-- Wall-clock and device time of its fetch (R295). -/
  fetchedAt  : Nat := 0
  fetchedDev : Nat := 0
  /-- The read of its data waits for room in the host transit pool (R257). -/
  waits  : Bool := false
  /-- Flooded copies that carry its timestamp request and have not gone (R187). -/
  copies : Nat := 0
  deriving DecidableEq, Repr

/-- A receive buffer posted and held on chip (R152). -/
structure RxBuf where
  index : BitVec 32
  user  : BitVec 64
  addr  : BitVec 64
  len   : Nat
  tstamp : Bool
  deriving DecidableEq, Repr

/-- A completion caused and not yet written, as the 32 bytes of R154 with PHASE 0. -/
structure Cpl where
  bytes : Bytes
  sq    : Nat
  /-- The endpoint and message that stay outstanding until it is written (R159). -/
  lrd   : Option (Nat × Nat) := none
  /-- It stays in its message context since the CQ was found full (R294). -/
  held  : Bool := false
  deriving DecidableEq, Repr

/-- A ring; its key in the table is KIND × 2^18 + number (R129, R130). DEDUCED (log 38). -/
structure Ring where
  fid      : Nat
  gen      : Byte := 0
  log2     : Nat := 4
  /-- The CQ of an SQ, the EQ of a CQ, the vector of an EQ (R95). -/
  bind     : Nat := 0
  ringAddr : BitVec 64 := 0
  idxAddr  : BitVec 64 := 0
  weight   : Nat := 0
  burst    : Nat := 0
  /-- WEIGHT and BURST of a RING_MODIFY, until the next arbitration round (R97). -/
  arbNext  : Option (Nat × Nat) := none
  pipe     : Nat := 0
  cls      : Nat := 0
  use      : SqUse := .packet
  role     : SqRole := .undecided
  modUsec  : Nat := 0
  modCount : Nat := 0
  state    : RingState := .running
  error    : Nat := 0
  /-- PI_SEEN of an SQ, CI_SEEN of a CQ or EQ (R137). -/
  seen     : BitVec 32 := 0
  /-- Device CI of an SQ, device PI of a CQ or EQ (R134). -/
  dev      : BitVec 32 := 0
  dbPending : Bool := false
  readOut  : Bool := false
  /-- An ARM of the doorbells merged into the read that is outstanding, and of those that came after it was issued (R142). -/
  armWait  : Bool := false
  armNext  : Bool := false
  /-- Armed, with the events written since arming and the device time of the first (R165, R166). -/
  armed    : Bool := true
  armCount : Nat := 0
  armFirst : Option Nat := none
  destroying : Bool := false
  deriving DecidableEq, Repr

/-- The work of a ring that is on chip. -/
structure RingWork where
  /-- Tokens of the present round, and whether the ring has received them (R145). -/
  tokens   : Nat := 0
  given    : Bool := false
  /-- Descriptors whose read is outstanding (R146). -/
  reading  : Nat := 0
  /-- Descriptors fetched, checked and not yet completed, in index order. -/
  fetched  : List FDesc := []
  /-- Receive buffers posted and held on chip (R152). -/
  posted   : List RxBuf := []
  /-- Buffers that the first packet waiting has filled (R152). -/
  filled   : List RxBuf := []
  /-- Packets that wait for the receive ring (R133, R152). -/
  rxWait   : List Pkt := []
  /-- Completions caused for a CQ and not yet written (R156). -/
  due      : List Cpl := []
  /-- Descriptor slots of a class-7 SQ read together with the index block, and the device CI they start at (R147). -/
  spec     : Nat := 0
  specAt   : BitVec 32 := 0
  /-- A CQ found full has had its index block read once for the completion at the front (R158). -/
  reread   : Bool := false
  deriving DecidableEq, Repr

/-- What the host interface holds beside its links and functions. DESIGN CHOICE (log 21, 32). -/
structure Hif where
  /-- Bifurcated host ports, sampled at power-on reset (R39). -/
  bifurcated : List Nat := []
  /-- HIF_DEV_STATE.DEVSTATE (R47). -/
  devState   : Nat := 0
  /-- The reset a RESET_REQUEST has scheduled (R89). -/
  resetReq   : Option ResetReq := none
  /-- The abort sequencer of each half: the set of the pass that runs, or none (R56). -/
  passW      : Option (List Nat) := none
  passE      : Option (List Nat) := none
  /-- Link grants that HP_GRANT_SET has written, by link (R92). -/
  grants     : Tab Grant := []
  /-- The ring number each DMA engine visited last, by engine × 2 + level (R145). -/
  lastSq     : Tab Nat := []
  /-- Doorbells accepted so far (R78). -/
  accepted   : Nat := 0
  /-- The infrastructure list (R46, R93). -/
  infra      : Nat := 1
  deriving DecidableEq, Repr

/-! ## Network ports and lanes -/

inductive LpState where
  | down | training | up
  deriving DecidableEq, Repr

/-- A PORT_CONFIG that waits to take effect (R171, R181). -/
structure PortPend where
  breakout : Nat
  enable   : Bool
  deriving DecidableEq, Repr

/-- A network port: the setting in the settings store (R171) and its board data (R169). DESIGN CHOICE (log 25). -/
structure Np where
  breakout : Nat := 0
  enable   : Bool := false
  media    : Nat := 0
  pend     : Option PortPend := none
  deriving DecidableEq, Repr

/-- A frame as it came from the wire: bytes without FCS and its receive time. -/
structure RxFrame where
  bytes : Bytes
  time  : BitVec 64
  deriving DecidableEq, Repr

/-- A logical port (R170 to R180). -/
structure Lp where
  state   : LpState := .down
  /-- Lanes of its network port in use; empty when it stays DOWN for want of lanes (R180). -/
  lanes   : List Nat := []
  linkUps : Nat := 0
  /-- The receive FIFO (R174). -/
  fifo    : List RxFrame := []
  /-- The deficit round robin position: the class queue served next (R266). -/
  turn    : Nat := 0
  deriving DecidableEq, Repr

/-- A SerDes lane (R179). -/
structure Lane where
  retired : Bool := false
  /-- Training attempts in a row that failed at it. -/
  fails   : Nat := 0
  deriving DecidableEq, Repr

/-! ## Egress queues -/

/-- A class queue of a logical port; its key is LP × 8 + class (R266, R267). The share is none while it is the default. DESIGN CHOICE (log
26). -/
structure EgQ where
  weight   : Nat := 1
  shareKib : Option Nat := none
  permille : Nat := 100
  queue    : List Pkt := []
  deficit  : Int := 0
  /-- The token bucket of queue 7 in thousandths of a byte, and the wall-clock time it was last filled (R266). -/
  bucket   : Int := 4096000
  filledAt : Nat := 0
  deriving DecidableEq, Repr

/-! ## Pipelines -/

/-- An exact-match entry in the layout of R242, with where it stands. -/
structure EmEntry where
  bytes : Bytes
  hit   : Bool := false
  /-- It was written by a command (R537). -/
  cmd   : Bool := false
  deriving DecidableEq, Repr

/-- A learn request (R249). -/
structure LearnReq where
  moved : Bool
  keyType : Nat
  keyId : Nat
  mac   : Bytes
  lp    : Nat
  deriving DecidableEq, Repr

/-- How a packet leaves the deep-parse stage (R214, R220): ACCEPT, a malformed packet of a reason, or a drop for the parity of its vector or of
its processor. -/
inductive DeepEnd where
  | accept
  | reject (reason : Nat)
  | vector
  | processor
  deriving DecidableEq, Repr

/-- A packet in the deep-parse stage: its processor, the program it runs and the configuration it was taken under, and how it leaves once that is
known (R217, R221, R222). -/
structure DeepRun where
  pkt  : Pkt
  proc : Nat := 0
  prog : DeepProg := {}
  cfg  : Nat := 0
  done : Option DeepEnd := none
  deriving DecidableEq, Repr

/-- An inline packet for the cipher engine: the security association its action names and where it goes afterwards; `round` is set for a
packet that is sent round (R239, R240). -/
structure InlineJob where
  pkt   : Pkt
  dest  : Dest
  round : Bool := false
  pipe  : Nat := 0
  deriving DecidableEq, Repr

/-- An LRD packet that a sequencer has built and the scheduler is to encrypt (R281, R331): its sequencer, class, route (none to the device
itself), target node and endpoint, header, extension, payload, key and nonce. -/
structure SealJob where
  seq   : Nat
  cls   : Nat
  route : Option (Nat × Bytes)
  node  : Nat
  dstEp : Nat
  hdr   : Bytes
  ext   : Bytes
  pay   : Bytes
  key   : Bytes
  nonce : Bytes
  deriving DecidableEq, Repr

/-- A received LRD packet whose tag the scheduler is to check, with the key of its pair (R306, R331). -/
structure OpenJob where
  seq   : Nat
  pkt   : Pkt
  key   : Bytes
  deriving DecidableEq, Repr

/-- Inline work of a cipher scheduler, in order of arrival (R332, R333). -/
inductive InlJob where
  | esp (j : InlineJob)
  | enc (j : SealJob)
  | dec (j : OpenJob)
  deriving DecidableEq, Repr

/-- What packets in processors finish under when PIPE_CONFIG has replaced it: MALFORMED_ACTION with its counts, and MISS_ACTION (R213, R222). -/
structure OldCfg where
  mal     : Byte
  sampled : Tab Nat
  miss    : Bytes
  deriving DecidableEq, Repr

/-- One packet pipeline (R193, R226, R241). DESIGN CHOICE (log 27). -/
structure Pipe where
  /-- PPL_RELEASE.PIPE (R462). -/
  released : Bool := false
  /-- PIPE_CONFIG (R98, R213, R222). -/
  deep     : Bool := false
  prog     : Nat := 0
  malAct   : Byte := 0
  miss     : Bytes := List.replicate 16 0
  learnRing : Nat := 0
  noLearn  : Bool := true
  agingMs  : Nat := 0
  /-- The time the next aging pass is due (R252). -/
  agingDue : Nat := 0
  /-- Malformed packets of each reason since the commit point (R213). -/
  sampled  : Tab Nat := []
  /-- The number of the configuration in force, and what packets that were taken under earlier ones still finish under (R222). -/
  cfg      : Nat := 0
  oldMal   : Tab OldCfg := []
  /-- The program in the store that does not run (R218, R222). -/
  idleProg : Option Nat := none
  /-- Headers of network arrivals that hold a header credit, with their LPs, oldest first: at most 32 (R31). -/
  hdrs     : List (Nat × RxFrame) := []
  /-- Host injections that wait: class 7, and the others (R31, R34). -/
  inj7     : List Pkt := []
  inj      : List Pkt := []
  /-- Packets that wait for room at the input of a cipher scheduler (R31). -/
  cryWait  : List InlineJob := []
  /-- The second-pass queue (R31, R35). -/
  second   : List Pkt := []
  /-- Slots the other injections have had since the last second pass (R34). -/
  wrr      : Nat := 0
  deepRun  : List DeepRun := []
  /-- Packets handed to the egress half (R227). -/
  egIn     : List (Nat × Pkt) := []
  /-- The 128-bit hash seed (R243). -/
  seed     : BitVec 128 := 0
  /-- Buckets by bucket × 4 + way, the stash, and the move shadow (R241). -/
  ways     : Tab EmEntry := []
  stash    : List EmEntry := []
  shadow   : Option EmEntry := none
  learnQ   : List LearnReq := []
  /-- Learn records that wait for a full ring (R251), and records lost since the last one written (R250). -/
  recFifo  : List Bytes := []
  lost     : Nat := 0
  deriving DecidableEq, Repr

/-- A classification rule (R231, R233). -/
structure Rule where
  id     : BitVec 32
  fid    : Nat
  gen    : Byte
  priv   : Priv
  mask   : Nat
  egress : Bool
  prio   : Nat
  key    : Bytes
  kmask  : Bytes
  action : Bytes
  deriving DecidableEq, Repr

/-- What a spread group holds of one sequence number (R264). -/
inductive Verdict where
  | forward (p : Pkt) (dest : Nat)
  | discard
  deriving DecidableEq, Repr

/-- A spread group (R261 to R265). -/
structure Spread where
  defined : Bool := false
  threads : List Nat := []
  /-- Next sequence number to give, place in the rotation, next number to release. -/
  next    : BitVec 32 := 0
  rot     : Nat := 0
  rel     : BitVec 32 := 0
  /-- Packets waiting for the spreader, in order. -/
  waitq   : List Pkt := []
  /-- Verdicts held in the reorder stage with their sequence numbers, in the order they entered it. -/
  held    : List (BitVec 32 × Verdict) := []
  /-- Sequence numbers between the spreader and the end of reorder (R262). -/
  out     : Nat := 0
  deriving DecidableEq, Repr

/-- What the halves' buffers and paths hold: Byre queues by half × 32 + queue (R260), packets handed to transport sequencers, and work for the cipher schedulers (R31). DESIGN CHOICE
(log 28). -/
structure Net where
  nps    : Tab Np := []
  lps    : Tab Lp := []
  lanes  : Tab Lane := []
  egq    : Tab EgQ := []
  pipes  : Tab Pipe := []
  rules  : List Rule := []
  ruleSerial : Nat := 1
  /-- Host routes and flood sets, by key (R254): the copies of west and east. -/
  routesW : List Bytes := []
  routesE : List Bytes := []
  byre   : Tab (List Pkt) := []
  spread : Tab Spread := []
  /-- Packets handed to each transport sequencer (R236, R238). -/
  seqIn  : Tab (List Pkt) := []
  /-- The exact-match entries that commands have written, by pipeline: the control processor's records (R537). -/
  emRecs : Tab (List Bytes) := []
  /-- Received packets whose tag has verified, by sequencer, oldest first, with their plaintext (R306). -/
  opened : Tab (List (Pkt × Bytes)) := []
  /-- Inline work that waits for each half's cipher scheduler (R31, R332). -/
  inl    : Tab (List InlJob) := []
  /-- Packets of each sequencer that wait for transport-to-cipher credit, oldest first (R31). -/
  lrdOut : Tab (List SealJob) := []
  /-- Bits of TCAM entries that differ from their shadow, by pipeline (R531). -/
  flips  : List (Nat × TcamFlip) := []
  deriving DecidableEq, Repr
/-! ## The settings store -/

/-- What a settings copy holds (R39, R92, R93, R169, R171, R490, R509): its 64-byte header, erased where it is empty, link grants by link, the
infrastructure list, ports as breakout and enable, media, bifurcated host ports, and the power cap with its MODE_LIMIT. DEDUCED (log 87).
DESIGN CHOICE (log 25, 32). -/
structure SetCopy where
  hdr    : Bytes := []
  grants : Tab Grant := []
  infra  : Nat := 1
  ports  : Tab (Nat × Bool) := []
  media  : Tab Nat := []
  bifs   : List Nat := []
  capW   : Nat := 0
  limit  : Nat := 2
  deriving DecidableEq, Repr

/-- A settings write of Hearth (R39, R46, R169, R509). -/
inductive SetWrite where
  | media (l : Tab Nat)
  | bifs (l : List Nat)
  | infra (mask : Nat)
  | cap (watts limit : Nat)
  deriving DecidableEq, Repr

/-- The settings store (R490): its persistent area, and the copies. KIKs stand in `Cry.kiks`. DESIGN CHOICE (log 29). -/
structure Settings where
  /-- BOOT_SERIAL (R288). -/
  bootSerial : Nat := 0
  /-- LRD_PREFIX, 12 bytes (R277): in force, and as stored for the next start. -/
  lrdPrefix  : Bytes := List.replicate 12 0
  prefixNext : Bytes := List.replicate 12 0
  /-- OWNER_LOCK (R477). -/
  ownerLock  : Bool := false
  /-- The copies, 0 and 1, that are not erased, and the one in use (R491). -/
  copies     : Tab SetCopy := []
  inUse      : Option Nat := none
  /-- Settings writes of a trial that came before it has a copy of its own (R492). -/
  later      : List SetWrite := []
  deriving DecidableEq, Repr

/-! ## Transport -/

/-- A key of a trust domain (R285). -/
structure TdKey where
  epoch : Nat
  key   : Bytes
  deriving DecidableEq, Repr

/-- A trust domain as one half holds it (R285, R347). -/
structure Td where
  cur      : Option TdKey := none
  prev     : Option TdKey := none
  /-- Device time at which sending goes over to CURRENT, while that is pending. -/
  switchAt : Option Nat := none
  deriving DecidableEq, Repr

/-- An endpoint (R107, R280, R293, R319). -/
structure Ep where
  fid   : Nat
  gen   : Byte
  td    : Nat
  sq    : Nat
  cq    : Nat
  limit : Nat
  /-- Ordinal within its function: the place of its backing slot. -/
  ord   : Nat
  /-- The next MSG_ID. -/
  nextMsg : Nat := 1
  /-- Its context is on chip, or its context read is outstanding (R319, R320). -/
  onChip   : Bool := true
  fetching : Bool := false
  destroying : Bool := false
  /-- Its last use, for the least-recently-used choice. -/
  used  : Nat := 0
  deriving DecidableEq, Repr

/-- A memory window; entries stay once used, for their generation (R109, R110, R322). -/
structure Win where
  gen    : Byte := 1
  live   : Bool := true
  fid    : Nat
  addr   : Nat
  len    : Nat
  access : Nat
  ep     : Option Nat
  /-- When its deregistration ended. -/
  freed  : Option Nat := none
  deriving DecidableEq, Repr

/-- The states of R298. -/
inductive MsgState where
  | queued | sending | awaiting | backoff | ended
  deriving DecidableEq, Repr

/-- One packet of a message that has been handed to the pacer or sent: a WRITE packet, or a READ_REQ by its first index. -/
structure PktTx where
  /-- Device time of its last transmission. -/
  at_     : Nat := 0
  attempt : Nat := 0
  acked   : Bool := false
  /-- It waits in the pacer. -/
  wait    : Bool := true
  /-- READ: response packets it asks for. -/
  count   : Nat := 1
  deriving DecidableEq, Repr

/-- A message at its initiator (R293 to R303, R312, R313). -/
structure Msg where
  fid   : Nat
  sq    : Nat
  index : BitVec 32
  op    : Nat
  user  : Nat
  len   : Nat
  node  : Nat
  dstEp : Nat
  dstGen : Nat
  raddr : Nat
  rkey  : Nat
  imm   : Nat
  /-- T_life in ns. -/
  life  : Nat
  td    : Nat
  cls   : Nat
  /-- The sequencer that sends it. -/
  seq   : Nat
  /-- Its route once found: LP and next hop; none to the device itself (R279). -/
  route : Option (Nat × Bytes) := none
  /-- WRITE: the bytes of its source. -/
  data  : Bytes := []
  /-- READ: its destination buffer. -/
  frags : List (BitVec 64 × Nat) := []
  state : MsgState := .queued
  /-- Its source has been read, or it needs none: it may go on (R291). -/
  ready : Bool := false
  /-- Wall-clock and device time of its fetch. -/
  fetchedAt : Nat := 0
  fetchedDev : Nat := 0
  /-- Device time of the first transmission. -/
  msgTs : Option Nat := none
  pkts  : Tab PktTx := []
  /-- READ: responses that have arrived. -/
  got   : List Nat := []
  /-- The first index never handed to the pacer. -/
  next  : Nat := 0
  /-- The highest BASE_IDX that an ACK has given. -/
  base  : Nat := 0
  /-- The message's RTO, ns (R300). -/
  rto   : Nat := 50000
  /-- Device time at which BACKOFF ends. -/
  until_ : Nat := 0
  /-- The largest SEND_TS. -/
  lastTx : Nat := 0
  deriving DecidableEq, Repr

/-- A path-state entry (R315 to R318), by half × 2^32 + node. DEDUCED (log 59). -/
structure Path where
  /-- Bits a second. -/
  rate   : Nat
  line   : Nat
  rttMin : Option Nat := none
  srtt   : Nat := 0
  rttvar : Nat := 0
  /-- The update interval: device time of its first sample, smallest queuing delay in it, and whether a timer expiry has halved RATE. -/
  since  : Option Nat := none
  qmin   : Nat := 0
  halved : Bool := false
  /-- The bucket in 10^-9 bits, and the device time it was last filled. -/
  bucket : Nat := 131072000000000
  filled : Nat := 0
  /-- Messages with packets in the pacer, in their turn: endpoint × 2^48 + MSG_ID. -/
  turn   : List Nat := []
  used   : Nat := 0
  /-- The function that caused it to be cached (R56). -/
  fid    : Nat := 8192
  deriving DecidableEq, Repr

/-- The states of a receive record (R308); a released one with the device time it lasts to. -/
inductive RecState where
  | receiving | finished
  | failed (code : Nat)
  | released (last : Nat)
  deriving DecidableEq, Repr

/-- How a receiver answers a message: the sequencer that took its last packet, where answers go, and the packet's identity fields. -/
structure Reply where
  seq   : Nat
  /-- Source address of the packet; `loop` marks one that never left the device (R279). -/
  ip    : Bytes
  loop  : Bool
  cls   : Nat
  td    : Nat
  epoch : Nat
  node  : Nat
  ep    : Nat
  gen   : Nat
  dstEp : Nat
  dstGen : Nat
  msg   : Nat
  msgTs : BitVec 64
  deriving DecidableEq, Repr

/-- A receive record (R308, R309). Its key is (node, ep, gen, msg) of the reply. -/
structure Rec where
  reply   : Reply
  state   : RecState := .receiving
  created : Nat
  len     : Nat
  notify  : Bool
  imm     : Nat
  raddr   : Nat
  got     : List Nat := []
  /-- Packets newly received since the last ACK, and the device time of the first of them. -/
  newly   : Nat := 0
  firstAt : Option Nat := none
  /-- SEND_TS of the newest packet accepted since the last ACK, and its arrival. -/
  echo    : BitVec 64 := 0
  arrived : Nat := 0
  /-- When the last DONE ACK was sent. -/
  doneAck : Option Nat := none
  deriving DecidableEq, Repr

/-- A derived key in a half's cache (R286, R287), with the function that caused it to be cached. -/
structure PairKey where
  td    : Nat
  epoch : Nat
  src   : Nat
  dst   : Nat
  fid   : Nat
  deriving DecidableEq, Repr

/-- The transport. West and east copies carry W and E. -/
structure Lrd where
  /-- LRD_CONFIG (R104). -/
  nodeId  : Nat := 0
  lifeUs  : Nat := 1500
  target  : Nat := 4000
  /-- The salt of each half's sequencers; none while LRD is disabled there (R288, R289). -/
  saltW   : Option (BitVec 32) := none
  saltE   : Option (BitVec 32) := none
  /-- The nonce counter of each sequencer (R289). -/
  ctr     : Tab Nat := []
  tdW     : Tab Td := []
  tdE     : Tab Td := []
  /-- Packets sent under a domain's sending epoch (R290). -/
  tdSent  : Tab Nat := []
  eps     : Tab Ep := []
  /-- The last owner of each endpoint number, and when its destruction ended (R325). -/
  epLast  : Tab Nat := []
  epFreed : Tab Nat := []
  wins    : Tab Win := []
  /-- Messages by endpoint × 2^48 + MSG_ID. -/
  msgs    : Tab Msg := []
  paths   : Tab Path := []
  recsW   : List Rec := []
  recsE   : List Rec := []
  /-- Derived keys, most recently used first. -/
  keysW   : List PairKey := []
  keysE   : List PairKey := []
  /-- Derivations in progress, and packets that wait for theirs, by sequencer (R287). -/
  derive_ : Tab (List PairKey) := []
  keyWait : Tab (List Pkt) := []
  /-- The miss queue of each half, oldest first (R320). -/
  missW   : List Pkt := []
  missE   : List Pkt := []
  /-- Stamps of use given so far. -/
  stamp   : Nat := 0
  deriving DecidableEq, Repr

/-! ## The cipher engine and the key store -/

/-- A key in a slot (R339, R349). DEDUCED (log 35). -/
structure KeyInfo where
  fid   : Nat
  fgen  : Byte
  alg   : Nat
  salt  : BitVec 32
  limit : Nat
  used  : Nat := 0
  /-- The key, which the hardware holds wrapped under the half's key-wrapping key. -/
  key   : Bytes
  /-- LOST (R340, R372). -/
  lost  : Bool := false
  deriving DecidableEq, Repr

/-- A key slot (R339, R342). DEDUCED (log 35). -/
structure Slot where
  gen  : Byte := 1
  info : Option KeyInfo := none
  /-- The function that last held a key in it (R368). -/
  last : Option Nat := none
  deriving DecidableEq, Repr

/-- A security association (R113, R354 to R358). -/
structure Sa where
  fid    : Nat
  spi    : Nat
  out    : Bool
  tunnel : Bool
  esn    : Bool
  hdr    : Bytes
  slot   : Nat
  win    : Nat
  /-- Outbound: the next sequence number. -/
  seq    : Nat := 1
  /-- Outbound: the next IPv4 identification. -/
  ident  : Nat := 0
  /-- Inbound: the highest sequence number accepted, and those seen within the window below it. -/
  top    : Nat := 0
  seen   : List Nat := []
  deriving DecidableEq, Repr

/-- A bulk job (R360 to R366): waiting for its key, for a core, or on a core. -/
structure BulkJob where
  fid    : Nat
  sq     : Nat
  index  : BitVec 32
  bytes  : Bytes
  input  : Bytes
  tag    : Bytes
  slot   : Nat
  /-- CTR of its nonce; none until it is drawn. -/
  ctr    : Option Nat := none
  deriving DecidableEq, Repr

/-- The engine states of R373. -/
inductive CryState where
  | ready | zeroRecoverable | zeroLatched
  deriving DecidableEq, Repr

/-- The cipher engine. Halves' queues by half; cores 0 to 39. -/
structure Cry where
  state  : CryState := .ready
  /-- When the last recoverable alarm fired. -/
  alarmAt : Nat := 0
  /-- The key-wrapping keys, none while zeroed (R340, R371). -/
  kwkW   : Option (BitVec 256) := none
  kwkE   : Option (BitVec 256) := none
  slots  : Tab Slot := []
  sas    : Tab Sa := []
  /-- Unwrapped keys of each half, most recently used first (R341). -/
  cacheW : List Nat := []
  cacheE : List Nat := []
  /-- Slots whose key is being read and unwrapped. -/
  unwrapping : List Nat := []
  /-- Bulk jobs that wait for a core, by half, in order. -/
  bulk   : Tab (List BulkJob) := []
  /-- The job on each core. -/
  cores  : Tab BulkJob := []
  /-- The key import keys that are installed (R343). -/
  kiks   : Tab Bytes := []
  /-- Cores withdrawn after a failed test (R336). -/
  withdrawn : List Nat := []
  deriving DecidableEq, Repr

/-! ## Offload cores -/

/-- The states of R389. -/
inductive ThState where
  | stopped | running | waiting | faulted | halted | lost
  deriving DecidableEq, Repr

/-- A packet in a thread's queue or window (R403 to R405). -/
structure ThPkt where
  pkt    : Pkt
  /-- ORIGIN: 0 spread group, 1 Byre queue, 2 created by PKTNEW. -/
  origin : Nat := 0
  /-- SOURCE_ID. -/
  srcId  : Nat := 0
  /-- Bytes stored in the frame area beyond FRAME_LEN, by offset. -/
  more   : Tab Byte := []
  deriving DecidableEq, Repr

/-- An outstanding lookup (R409, R410). -/
structure Lookup where
  /-- The 48 bytes of its request, and where its result goes. -/
  req  : Bytes
  addr : Nat
  deriving DecidableEq, Repr

/-- A thread (R379, R389 to R398, R403). -/
structure Thread where
  state  : ThState := .stopped
  /-- The state it was halted from. -/
  was    : ThState := .running
  pc     : BitVec 64 := 0
  /-- Registers x1 to x31; those not listed hold zero. -/
  regs   : Tab (BitVec 64) := []
  mtvec  : BitVec 64 := 0
  mepc   : BitVec 64 := 0
  mcause : BitVec 64 := 0
  mtval  : BitVec 64 := 0
  mscratch : BitVec 64 := 0
  instret : BitVec 64 := 0
  /-- Edge event bits that are pending (R396), and bits of signals on their way (R398). -/
  events : BitVec 64 := 0
  coming : BitVec 64 := 0
  /-- LYS.WAIT in progress: its mask and rd. -/
  mask   : BitVec 64 := 0
  waitRd : Nat := 0
  /-- The armed timer: device time in ns at which it expires (R398). -/
  timer  : Option Nat := none
  queue  : List ThPkt := []
  held   : Option ThPkt := none
  lookups : List Lookup := []
  /-- The reservation of a load-reserved: address and bytes. -/
  resv   : Option (Nat × Nat) := none
  /-- The channel whose lease it holds (R412). -/
  lease  : Option Nat := none
  /-- Flags left for its next CHPUT, by channel: the code it returns (R416). -/
  flags  : Tab Nat := []
  /-- A CHPUT in its retry: channel, word and rd (R413). -/
  retry  : Option (Nat × BitVec 64 × Nat) := none
  deriving DecidableEq, Repr

/-- A core (R377, R384 to R387, R399). -/
structure Core where
  /-- 0 START, 1 TEST, 2 RUN, 3 RECOVERY. -/
  mode   : Nat := 0
  owner  : Option Nat := none
  /-- The slot table: a thread, or 0xFF for IDLE; and the table that takes effect at the next rotation (R386). -/
  slots  : List Nat := (List.range 64).map (· % 16)
  next   : Option (List Nat) := none
  /-- Local scratch: bytes not listed read zero (R419). -/
  scratch : Tab Byte := []
  /-- Private memory: bytes not listed are undefined, chosen by `seed` (R419). -/
  mem    : Tab Byte := []
  seed   : Nat := 0
  /-- Bytes of scratch and private memory stored to since the last FENCE.I or CORE_LOAD of the core, with the values they had before: fetching does
  not yet see the new one for certain (R381, R383). -/
  stale  : Tab Bytes := []
  /-- The sentinel has fired since its count was last reset (R399). -/
  fired  : Bool := false
  deriving DecidableEq, Repr

/-- A channel (R411 to R416). -/
structure Chan where
  reader : Nat
  msgs   : List Bytes := []
  /-- Words of the message in assembly. -/
  asm    : List (BitVec 64) := []
  holder : Option Nat := none
  /-- Threads that found it full, and threads in their retry, in order. -/
  full   : List Nat := []
  retry  : List Nat := []
  orphan : Bool := false
  deriving DecidableEq, Repr

/-- The offload cores, their channels, the Byre bindings by half × 32 + queue, and the shared memory of each half. -/
structure Offload where
  cores   : Tab Core := []
  threads : Tab Thread := []
  chans   : Tab Chan := []
  bind    : Tab Nat := []
  sharedW : Tab Byte := []
  sharedE : Tab Byte := []
  seedW   : Nat := 0
  seedE   : Nat := 0
  /-- Steps of each die since POR: the counter cycle (R379). -/
  stepsW  : BitVec 64 := 0
  stepsE  : BitVec 64 := 0
  deriving DecidableEq, Repr

/-! ## Microcoded engines -/

/-- The states of an engine (R442). -/
inductive EngRun where
  | stopped | running | faulted | resetting
  deriving DecidableEq, Repr

/-- An operation on a memory port that is not done (R426, R428): its OP, space, address, data register and size; a stream with its three
registers. -/
structure PortOp where
  op    : Nat
  space : Nat
  addr  : BitVec 64
  dreg  : Nat := 0
  size  : Nat := 0
  dst   : BitVec 64 := 0
  len   : BitVec 64 := 0
  deriving DecidableEq, Repr

/-- A microcoded engine (R423 to R443). Its control store lists the words that are not zero. DESIGN CHOICE (log 30). -/
structure Engine where
  run     : EngRun := .stopped
  /-- ENG_CTRL (R442). -/
  csWe    : Bool := false
  bcast   : Bool := false
  autoRun : Bool := true
  /-- ENG_STATUS (R442). -/
  pc      : Nat := 0
  waiting : Bool := false
  /-- Steps in which the current word has waited, and wall-clock time of the first (R432). -/
  waited   : Nat := 0
  waitFrom : Nat := 0
  inOp    : Bool := false
  checking : Bool := false
  /-- ENG_REQ: FENCE, QUIESCE, CONTROL, INTR (R435). -/
  reqs    : BitVec 4 := 0
  /-- When FENCE was last raised (R56). -/
  fenceAt : Nat := 0
  /-- ENG_FAULT and ENG_FAULT_CNT (R438, R442). -/
  fault   : BitVec 64 := 0
  faults  : Nat := 0
  /-- CS_ADDR, the parts written and read of the word there, CS_CRC (R443). -/
  csAddr  : Nat := 0
  csIn    : List (BitVec 32) := []
  csOut   : Nat := 0
  csCrc   : BitVec 32 := 0
  /-- A CS_ECC fault waits for its reload (R440). -/
  reload  : Bool := false
  /-- G0 to G31, the return stack, RESUME and the flags ZERO, NEG, CARRY, OVF (R424, R430, R435). -/
  regs    : Tab (BitVec 64) := []
  stack   : List Nat := []
  resume  : Nat := 0
  zero    : Bool := false
  neg     : Bool := false
  carry   : Bool := false
  ovf     : Bool := false
  /-- G29 has been armed (R424). -/
  armed   : Bool := false
  /-- The ports' operations that are not done, and their error registers: the class of the last failure (R430). -/
  portA   : Option PortOp := none
  portB   : Option PortOp := none
  errA    : Option Nat := none
  errB    : Option Nat := none
  /-- The control store and the engine scratch (R422). -/
  store   : Tab (BitVec 160) := []
  scratch : Tab Byte := []
  /-- Words that wait in its queues to be popped, and its credit for pushes, by queue (R429). -/
  queues  : Tab (List (BitVec 64)) := []
  credits : Tab Nat := []
  /-- The step counter of its die at its last step (R423, R425). -/
  steps   : BitVec 64 := 0
  /-- The CRC unit of a DMA engine: the CRC-32C and the CRC-64 of the words fed so far (R426). -/
  sum32   : BitVec 32 := 0
  sum64   : BitVec 64 := 0
  deriving DecidableEq, Repr

/-- The engines, and the golden copies by half × 3 + kind (R440). -/
structure Micro where
  engines : Tab Engine := []
  golden  : Tab (Tab (BitVec 160)) := []
  deriving DecidableEq, Repr

/-! ## Boot, life cycle and updates -/

/-- Where the start of the device stands (R459 to R467, R561, R563): standby power lost; held before the first stage for want of main power,
POR_N or a clock; the first stage is to run; the second stage verifies parts; the control processor is released; it is READY; the recovery
loader runs; RETIRED, where only the first stage runs. DESIGN CHOICE (log 33). -/
inductive BootStage where
  | off | held | first | second | released | ready | recovery | retired
  deriving DecidableEq, Repr

/-- The flash, the fuses, the pins of power and reset, and the start (R449 to R472, R559 to R566). DESIGN CHOICE (log 31, 33). -/
structure Boot where
  /-- STBY_PWRGD, MAIN_PWRGD and PWR_HOLDUP_N as driven. -/
  stbyGood : Bool := true
  mainGood : Bool := true
  holdupN  : Bool := true
  /-- MGMT_ADDR as strapped (R565). -/
  mgmtAddr : Nat := 0
  stage    : BootStage := .first
  /-- The start that runs, or that the held dies wait for, is that of a POR (R39). -/
  isPor    : Bool := true
  /-- The flash but for the Ledger, the settings store and the journal: bytes not listed are erased, 0xFF (R449). -/
  flash    : Tab Byte := []
  /-- Flash operations that the power still lets complete, within a row that a loss of power or a reset cuts off (R493); none otherwise. -/
  flashLeft : Option Nat := none
  /-- The boot failure mask (R454), and recovery sessions since standby power rose (R467). -/
  failMask : Nat := 0
  sessions : Nat := 0
  /-- Fuses: life-cycle state, Molgori root key digests by slot and those revoked, owner key digest, device serial, and
  stepping (R458, R468, R472). -/
  lc       : Nat := 0
  /-- A life-cycle state that is burnt and takes effect at the next first stage, and steps of the fuse counter burnt so far (R471, R472). -/
  lcNew    : Option Nat := none
  lcSteps  : Nat := 0
  /-- The state by which the first stage has fixed the reach of the debug port (R459, R469). -/
  debugLc  : Option Nat := none
  /-- Hardware write protection of the recovery region (R449, R471). -/
  recoverWp : Bool := false
  roots    : Tab Bytes := []
  revoked  : Nat := 0
  owner    : Option Bytes := none
  serial   : BitVec 64 := 0
  stepping : Nat := 0
  /-- Microcode keys by kind × 65536 + generation: 0 manufacturing, 1 production, 2 analysis (R445, R470). -/
  mcKeys   : Tab Bytes := [(0, List.replicate 32 0)]
  /-- The slot that starts or runs, and what the start knows of it (R461). -/
  slot     : Nat := 0
  trial    : Bool := false
  fallback : Bool := false
  serialOk : Bool := false
  /-- HRT_PART_VALID, HRT_RELEASE, HRT_CP_STATUS (R460, R461), and when HRT_RELEASE.CP was written. -/
  parts    : Nat := 0
  release  : Nat := 0
  cpStatus : BitVec 32 := 0
  releasedAt : Nat := 0
  /-- The last step of R462 that is done, and the cipher cores that fail their first test (R336). -/
  step     : Nat := 0
  badCores : List Nat := []
  /-- The engines whose control store disagrees twice with its CRC (R446). -/
  badEngines : List EngineId := []
  /-- Parse programs of the running image, by index (R218). -/
  progs    : Tab DeepProg := []
  /-- D2D links that trained in this start (R535). -/
  d2dUp    : Nat := 5
  /-- PPL_RELEASE.CORES of west and east (R462). -/
  coresW   : Bool := false
  coresE   : Bool := false
  /-- Measurements 9 and 10 as taken at this start; empty until then (R502). -/
  hwMeas   : Bytes := []
  fwMeas   : Bytes := []
  /-- The latest management challenge that no token has carried (R472). -/
  challenge : Option Bytes := none
  deriving DecidableEq, Repr

/-- A record of the update journal but for its CRC (R487). -/
structure JRec where
  jseq  : BitVec 32 := 0
  type  : Nat
  slot  : Nat
  agent : Nat
  reason : Nat := 0
  tag   : BitVec 64
  total : Nat
  value : Nat := 0
  oldSeq : Nat
  deriving DecidableEq, Repr

/-- The update state (R473 to R489): the bytes that stand in the journal's positions, those not listed erased, and the position written next. -/
structure Upd where
  /-- JSEQ of the next record (R487). -/
  jseq    : BitVec 32 := 0
  journal : Tab Bytes := []
  jpos    : Nat := 0
  /-- Positions whose records fail read-back: the flash itself (R488). -/
  worn    : List Nat := []
  state   : Nat := 0
  reason  : Nat := 0
  next    : Nat := 0
  /-- The offset of the last PROGRESS record. -/
  durable : Nat := 0
  /-- Bytes of the page that the last piece left incomplete (R480). -/
  page    : Bytes := []
  /-- R489 has decided the state in this start, and the INFRA PFs that have been told since (R494). -/
  decided : Bool := false
  told    : List Nat := []
  deriving DecidableEq, Repr

/-! ## Power, sensors and thermal levels -/

/-- A slew of the core supply that runs (R508): the old and the new mode and the cause, none where only a set point moves. -/
structure Slew where
  old   : Nat
  new   : Nat
  cause : Nat
  deriving DecidableEq, Repr

/-- Power and heat (R505 to R513). -/
structure Power where
  /-- The mode Hearth has set, the slew that runs and the decision that waits for it (R508). -/
  mode    : Nat := 0
  slew    : Option Slew := none
  waiting : Option (Nat × Nat) := none
  /-- VDD_CORE set points in mV by die (R507), and how often a target was sent again to a regulator (R557). -/
  setW    : Nat := 780
  setE    : Nat := 780
  /-- The set points before the slew that runs (R508). -/
  fromW   : Nat := 780
  fromE   : Nat := 780
  avsTries : Tab Nat := []
  /-- CAP_W and MODE_LIMIT (R128, R509). -/
  capW    : Nat := 0
  limit   : Nat := 2
  /-- The cap that a CAP_W of 0 has removed (R509). -/
  capWas  : Nat := 0
  /-- Power of each rail in the present window: the sum of its samples in µW, and their number (R506). -/
  railSum : Tab (Nat × Nat) := []
  /-- Windows that have ended; those in a row above the cap, and at most 0.85 of it; the last three; the window in which the cap last stepped
  up, the one up to which it holds the slower mode, and the one in which an excess was last reported (R509). -/
  windows : Nat := 0
  overN   : Nat := 0
  under   : Nat := 0
  recent  : List Nat := []
  upAt    : Option Nat := none
  holdTo  : Nat := 0
  excessAt : Option Nat := none
  /-- Windows since the commit of a POWER_CAP_SET whose work has not ended (R509). -/
  capWait : Option Nat := none
  /-- The thermal level (R511), since when every site is below the leave value of each level, and the mode in effect under the cap before a
  level forced a slower one (R512). -/
  level   : Nat := 0
  cool    : Tab Nat := []
  before  : Option Nat := none
  /-- Since when the slowest monitor of each die has stayed below 1.04 or above 1.10 of the floor (R507). -/
  slowW   : Option Nat := none
  slowE   : Option Nat := none
  fastW   : Option Nat := none
  fastE   : Option Nat := none
  /-- EV_THERMAL for a set point at its highest has been posted, by die (R507). -/
  limited : List Nat := []
  /-- The latest reading of each sensor with the device time it was taken (R87, R506). -/
  samples : Tab (Int × BitVec 64) := []
  deriving DecidableEq, Repr

/-! ## Management -/

/-- A channel of NC-SI (R503, R504). -/
structure NcsiChan where
  /-- Enable Channel, Enable Channel Network TX, AEN for link change. -/
  on     : Bool := false
  tx     : Bool := false
  aen    : Bool := false
  macs   : Tab Bytes := []
  vlans  : Tab Nat := []
  vlanOn : Bool := false
  bcast  : Bool := false
  mcast  : Bool := false
  deriving DecidableEq, Repr

/-- What Hearth's management endpoints hold (R495 to R504): endpoint IDs by binding (0 I3C, 1 SMBus, 2 + link), the I3C dynamic address,
sensors that SetNumericSensorEnable has disabled, SPDM negotiation by binding (`bindNo`), the large response that
CHUNK_GET reads by binding, NC-SI, and the passthrough buffer: its bytes and when they were last counted. -/
structure Mgmt where
  eids     : Tab Nat := []
  i3cAddr  : Option Nat := none
  disabled : List Nat := []
  spdmOk   : List Nat := []
  /-- Bindings whose requester speaks SPDM 1.2, the others speak 1.3 (R495). -/
  spdm12   : List Nat := []
  large    : Tab Bytes := []
  pkgOn    : Bool := false
  chans    : Tab NcsiChan := []
  /-- The channel with passthrough enabled. -/
  pass     : Option Nat := none
  passLevel : Nat := 0
  passAt   : Nat := 0
  /-- When the next passthrough frame from the BMC may be sent (R504), and the binding that carries link notifications. -/
  txAt     : Nat := 0
  aenOn    : Option Binding := none
  deriving DecidableEq, Repr


/-! ## The Ledger -/

/-- A Ledger record that waits in Hearth's buffer: everything of R514 but INDEX, BOOT_SERIAL and CRC, which
writing gives it. -/
structure LedgerRec where
  code    : Nat
  subject : Nat
  time    : BitVec 64
  uptime  : Nat
  data    : Bytes
  deriving DecidableEq, Repr

/-- The Ledger (R514, R516): the buffer of Hearth, the bytes that stand in the ring's 65,536 slots, those not listed erased, the slot written next,
the next INDEX, and records lost since the last LEDGER_LOST. -/
structure Ledger where
  buf   : List LedgerRec := []
  ring  : Tab Bytes := []
  pos   : Nat := 0
  next  : BitVec 32 := 0
  lost  : Nat := 0
  deriving DecidableEq, Repr

/-! ## Faults, split mode and resets -/

/-- A leaky bucket: its level, the half-threshold record already written, and when the present leak period began (R518, R520). -/
structure Bucket where
  level : Nat := 0
  half  : Bool := false
  since : Nat := 0
  deriving DecidableEq, Repr

/-- A die-to-die link: in service, lanes lost by direction × 104 + lane, and since when it has run without a lane fault (R20, R21, R536).
DESIGN CHOICE (log 117). -/
structure D2d where
  down  : Bool := false
  lost  : List Nat := []
  since : Nat := 0
  deriving DecidableEq, Repr

/-- The state of the halves and their links (R36, R518 to R543). DESIGN CHOICE (log 12). -/
structure Rel where
  /-- Split mode (R36, R533). -/
  split    : Bool := false
  /-- Cross-half traffic cannot pass: every link is lost, or rejoin has not opened the channels (R533, R536). -/
  cut      : Bool := false
  /-- When the last link was lost (R36). -/
  lostAt   : Nat := 0
  d2d      : Tab D2d := []
  buckets  : Tab Bucket := []
  /-- The retirement map: resource identifiers of R545, in standby SRAM (R521). -/
  retired  : List Nat := []
  /-- Resources reported DEGRADED (R525). -/
  degraded : List Nat := []
  /-- HBM pseudo-channels whose migration runs (R522). -/
  moving   : List Nat := []
  /-- SRAM rows on spares, by half × 2^22 + bank × 16 + spare (R523). -/
  spared   : List Nat := []
  /-- A half found unhealthy by Hearth, and a half that a HALF reset holds (R36, R540). -/
  badW     : Bool := false
  badE     : Bool := false
  heldW    : Bool := false
  heldE    : Bool := false
  /-- The TCAM rules of east while they are frozen (R37). -/
  rulesE   : Option (List Rule) := none
  /-- The cause of the split as EV_SPLIT gives it (R545). -/
  cause    : Nat := 0
  /-- Endpoint numbers left in the reserve assigned to east (R534). -/
  reserveE : Nat := 65536
  /-- The first number of that reserve, as the split found it (R534). -/
  reserveAt : Nat := 983040
  /-- When a rejoin began that has not opened the channels yet (R536, R538). -/
  rejoin   : Option Nat := none
  /-- Halves released from a HALF reset, with its cause, whose rejoin is to be reported (R540). -/
  releasing : List (Nat × Nat) := []
  /-- When each half last dropped work for an integrity failure (R532). -/
  integW   : Option Nat := none
  integE   : Option Nat := none
  deriving DecidableEq, Repr

/-! ## The state -/

/-- The state of the block. Keys: links by link, functions by FID, tickets by (FID × 2^32 + ticket), rings by KIND × 2^18 + number,
counters by group × 2^32 + index × 2^16 + number (R117). -/
structure State where
  clock   : Clock
  hif     : Hif
  links   : Tab Link
  fns     : Tab Fn
  res     : Tab FnRes
  tickets : Tab Ticket
  cpW     : Cp
  cpE     : Cp
  rings   : Tab Ring
  work    : Tab RingWork
  net     : Net
  rel     : Rel
  ledger  : Ledger
  sets    : Settings
  lrd     : Lrd
  cry     : Cry
  off     : Offload
  micro   : Micro
  boot    : Boot
  upd     : Upd
  power   : Power
  mgmt    : Mgmt
  /-- Every statistics counter that is not zero (R12, R117). -/
  stats   : Tab Nat
  /-- What the device has sent, oldest first: the model's own record. -/
  out     : List Out
  /-- Selects the next free value: the model's own. -/
  free    : Nat
  /-- The commands that wait, first in first out. -/
  pending : List Instr
  deriving DecidableEq, Repr

/-- The machine right after power-on reset: every field at the value the manual states, or at the value the assumption log names. -/
def State.reset : State where
  clock := {}
  hif := {}
  links := []
  fns := []
  res := []
  tickets := []
  cpW := {}
  cpE := {}
  rings := []
  work := []
  net := {}
  rel := {}
  ledger := {}
  sets := {}
  lrd := {}
  cry := {}
  off := {}
  micro := {}
  boot := {}
  upd := {}
  power := {}
  mgmt := {}
  stats := []
  out := []
  free := 0
  pending := []

end Sys2Proof.Machine
end

