-- ==== Sys2Proof/Machine/Flash.lean ====
section
/-! DEFINITION. The flash (R449): slot records and marks (R450, R451), the update journal (R487, R488), the headers of settings copies (R490), the
slots of the Ledger (R514, R516), and every byte of it by address. -/

namespace Sys2Proof.Machine

open Sys2Proof

/-! ## Flash operations (R449, R493) -/

/-- Whether the next flash operation is carried out: a loss of power leaves only so many of a row's (R493). -/
def State.flashGo (s : State) : Bool := s.boot.flashLeft != some 0
/-- One flash operation of those that the power still lets complete. -/
def State.flashTick (s : State) : State := { s with boot := { s.boot with flashLeft := s.boot.flashLeft.map (· - 1) } }
/-- A flash operation `f`, carried out unless the power is gone (R493). DEDUCED (log 143). -/
def State.flashOp (f : State → State) (s : State) : State := if s.flashGo then (f s).flashTick else s

/-- The recovery region, once its write protection is set, takes no operation that begins in it (R449). -/
def State.wpHolds (s : State) (a : Nat) : Bool := s.boot.recoverWp && decide (a < 0x80000)
def State.flashRead (s : State) (a n : Nat) : Bytes := Mem.read 0xFF s.boot.flash a n
/-- Programs bytes; the flash reads back what was programmed. -/
def State.flashWrite (a : Nat) (bs : Bytes) (s : State) : State :=
  if s.wpHolds a then s else s.flashOp (fun s => { s with boot := { s.boot with flash := Mem.write 0xFF s.boot.flash a bs } })
/-- Erases the bytes from `a` on, `n` of them: whole sectors (R449). -/
def State.flashErase (a n : Nat) (s : State) : State :=
  if s.wpHolds a then s
  else s.flashOp (fun s => { s with boot := { s.boot with flash := s.boot.flash.filter (fun e => decide (e.1 < a) || decide (a + n ≤ e.1)) } })

def recordBase (slot : Nat) : Nat := 0x80000 + slot * 0x1000
def slotBase (slot : Nat) : Nat := if slot = 0 then 0x100000 else 0xD00000
def ledgerBase : Nat := 0x1900000
def settingsBase : Nat := 0x1D00000
def journalBase : Nat := 0x1F00000

/-! ## Slot records (R450, R451) -/

/-- An arm record is present: ARM_MAGIC and ARM_CRC are both correct. -/
def State.armed (s : State) (slot : Nat) : Bool :=
  let r := s.flashRead (recordBase slot) 20
  le r 0 4 == 0x4D524141 && le r 16 4 == crc32c 0 (slice r 0 16)
/-- SEQ of a slot's record. -/
def State.slotSeq (s : State) (slot : Nat) : Nat := le (s.flashRead (recordBase slot) 8) 4 4
/-- The 8 bytes of a mark: its code, then the complement of its code. -/
def markBytes (code : Nat) : Bytes := toLe 4 code ++ toLe 4 (0xFFFFFFFF - code)
def State.markSet (s : State) (slot off code : Nat) : Bool := s.flashRead (recordBase slot + off) 8 == markBytes code
def State.setMark (slot off code : Nat) (s : State) : State := s.flashWrite (recordBase slot + off) (markBytes code)
def State.trialMark (s : State) (slot : Nat) : Bool := s.markSet slot 0x100 0x4C525454
def State.commitMark (s : State) (slot : Nat) : Bool := s.markSet slot 0x200 0x54494D43
def State.revokeMark (s : State) (slot : Nat) : Bool := s.markSet slot 0x300 0x4B564552
def State.setTrial (slot : Nat) (s : State) : State := s.setMark slot 0x100 0x4C525454
def State.setCommit (slot : Nat) (s : State) : State := s.setMark slot 0x200 0x54494D43
def State.setRevoke (slot : Nat) (s : State) : State := s.setMark slot 0x300 0x4B564552
/-- Writes an arm record in one page (R450, R482). -/
def State.writeArm (slot seq : Nat) (tag : BitVec 64) (s : State) : State :=
  let b := toLe 4 0x4D524141 ++ toLe 4 seq ++ toLe 8 tag.toNat
  s.flashWrite (recordBase slot) (b ++ toLe 4 (crc32c 0 b) ++ List.replicate 236 0)
def State.eraseRecord (slot : Nat) (s : State) : State := s.flashErase (recordBase slot) 4096
/-- `x` is newer than `y` by their 32-bit difference (R11, R452). -/
def seqNewer (x y : Nat) : Bool :=
  let d := (x + 4294967296 - y % 4294967296) % 4294967296
  decide (1 ≤ d) && decide (d < 2147483648)

/-- The slot that runs and the other one (R479); SEQ of the running image. -/
def State.inactive (s : State) : Nat := 1 - s.boot.slot % 2
def State.runningSeq (s : State) : Nat := s.slotSeq s.boot.slot

/-! ## The journal (R487, R488) -/

/-- The 32 bytes of a journal record. -/
def JRec.bytes (r : JRec) : Bytes :=
  let b := toLe 4 r.jseq.toNat ++ toLe 1 r.type ++ toLe 1 r.slot ++ toLe 1 r.agent ++ toLe 1 r.reason ++ toLe 8 r.tag.toNat ++ toLe 4 r.total ++
    toLe 4 r.value ++ toLe 4 r.oldSeq
  b ++ toLe 4 (crc32c 0 b)

/-- The record that 32 bytes hold, where its CRC matches and its JSEQ is not 0xFFFF_FFFF. -/
def readJRec (b : Bytes) : Option JRec :=
  if b.length == 32 && le b 28 4 == crc32c 0 (slice b 0 28) && le b 0 4 != 0xFFFFFFFF then
    some { jseq := BitVec.ofNat 32 (le b 0 4), type := le b 4 1, slot := le b 5 1, agent := le b 6 1, reason := le b 7 1
           tag := BitVec.ofNat 64 (le b 8 8), total := le b 16 4, value := le b 20 4, oldSeq := le b 24 4 }
  else none

/-- The newer of two records by JSEQ (R11). -/
def newerRec (a : Option JRec) (r : JRec) : JRec := match a with
  | none => r
  | some x => if seqNewer r.jseq.toNat x.jseq.toNat then r else x

/-- The latest valid record. -/
def State.lastRec (s : State) : Option JRec :=
  s.upd.journal.foldl (fun a e => match readJRec e.2 with
    | none => a
    | some r => some (newerRec a r)) none

/-- The record by which the journal's latest BEGIN is known: every record but a CANCELLED one repeats it (R485, R487). -/
def State.beginRec (s : State) : Option JRec :=
  s.upd.journal.foldl (fun a e => match readJRec e.2 with
    | none => a
    | some r => if r.type = 8 then a else some (newerRec a r)) none

/-- The slot of the update: that of its BEGIN (R479, R487). -/
def State.updSlot (s : State) : Nat := match s.beginRec with
  | none => s.inactive
  | some r => r.slot
/-- SEQ of the arm record of an armed image, or 0 (R127). DEDUCED (log 77). -/
def State.armedSeq (s : State) : Nat := if s.upd.state = 3 ∧ s.armed s.updSlot = true then s.slotSeq s.updSlot else 0

/-- A position takes bytes: the first of a sector has the sector of 128 erased before it, and the next write goes behind it (R487). -/
def State.jPut (p : Nat) (b : Bytes) (s : State) : State :=
  s.flashOp fun s =>
    let old := if p % 128 = 0 then s.upd.journal.filter (fun e => e.1 / 128 != p / 128) else s.upd.journal
    { s with upd := { s.upd with journal := Tab.set p b old, jpos := (p + 1) % 32768 } }

/-- Writes a record into the next position that reads back, `n` positions at most; a record that fails read-back is left torn, as one is while it is
being programmed (R488). -/
def State.jWrite (b : Bytes) : Nat → State → State
  | 0, s => s
  | n + 1, s =>
    let p := s.upd.jpos
    let s := s.jPut p []
    if s.upd.worn.contains p then s.jWrite b n else s.jPut p b

/-- Appends a record: JSEQ advances and is never 0xFFFF_FFFF (R487, R488). A record whose write the power cuts off stays torn. DEDUCED (log 77).
-/
def State.jAppend (r : JRec) (s : State) : State :=
  let n := s.upd.jseq + 1
  let s' := s.jWrite ({ r with jseq := s.upd.jseq }).bytes (s.upd.worn.length + 1)
  { s' with upd := { s'.upd with jseq := if n = 0xFFFFFFFF then 0 else n } }

/-- A record of a type that repeats the update's context. -/
def State.jNote (type value reason : Nat) (s : State) : State :=
  match s.lastRec with
  | none => s
  | some r => s.jAppend { r with type := type, value := value, reason := reason }

/-! ## Settings copies (R490) -/

/-- The header of a settings copy: its FORMAT, the SEQ of its image, the length of its entries. -/
def setHeader (format seq len : Nat) : Bytes :=
  let b := toLe 4 0x53544753 ++ toLe 2 format ++ toLe 2 0 ++ toLe 4 seq ++ toLe 4 len ++ List.replicate 44 0
  b ++ toLe 4 (crc32c 0 b)
def SetCopy.format (c : SetCopy) : Nat := le c.hdr 4 2
def SetCopy.seq (c : SetCopy) : Nat := le c.hdr 8 4
/-- What a settings write changes in a copy. -/
def SetCopy.put (w : SetWrite) (c : SetCopy) : SetCopy := match w with
  | .media l => { c with media := l }
  | .bifs l => { c with bifs := l }
  | .infra m => { c with infra := m }
  | .cap w l => { c with capW := w, limit := l }
/-- A copy whose header is right: length, MAGIC, CRC. -/
def SetCopy.valid (c : SetCopy) : Bool :=
  c.hdr.length == 64 && le c.hdr 0 4 == 0x53544753 && le c.hdr 60 4 == crc32c 0 (slice c.hdr 0 60)

/-! ## The Ledger's slots (R514, R516) -/

/-- A slot whose record is valid: its CRC matches. -/
def ledgerValid (b : Bytes) : Bool := b.length == 64 && le b 60 4 == crc32c 0 (slice b 0 60)
/-- The valid records of the ring, oldest first. -/
def Ledger.recs (l : Ledger) : List Bytes :=
  ((l.ring.filter (fun e => decide (l.pos ≤ e.1)) ++ l.ring.filter (fun e => decide (e.1 < l.pos))).map (·.2)).filter ledgerValid
/-- Bytes put into the next slot; the sector behind the one they stand in is kept erased (R514). -/
def Ledger.fill (b : Bytes) (l : Ledger) : Ledger :=
  let gone := (l.pos / 64 + 1) % 1024
  { l with ring := Tab.set l.pos b (l.ring.filter (fun e => e.1 / 64 != gone)), pos := (l.pos + 1) % 65536 }

/-! ## The flash by address (R449) -/

/-- A byte of the settings store: the headers of the copies stand where R490 puts them, the bytes of the persistent area and of entries are
private to the firmware. DEDUCED (log 87). -/
def Settings.byte (s : Settings) (o : Nat) : Byte :=
  let copy := fun (i base : Nat) => match Tab.find i s.copies with
    | none => 0xFF
    | some c => if o - base < 64 then c.hdr.getD (o - base) 0xFF else Config.freeBytes s.bootSerial o
  if o < 0x10000 then Config.freeBytes s.bootSerial o
  else if o < 0x100000 then copy 0 0x10000
  else if o < 0x1F0000 then copy 1 0x100000
  else 0xFF

/-- The byte at an address of the flash (R449). DEDUCED (log 87). -/
def State.flashByte (s : State) (a : Nat) : Byte :=
  if a < ledgerBase then Mem.get 0xFF s.boot.flash a
  else if a < settingsBase then (s.ledger.ring.getD ((a - ledgerBase) / 64) []).getD ((a - ledgerBase) % 64) 0xFF
  else if a < journalBase then s.sets.byte (a - settingsBase)
  else (s.upd.journal.getD ((a - journalBase) / 32) []).getD ((a - journalBase) % 32) 0xFF

end Sys2Proof.Machine
end

