-- ==== Sys2Proof/Machine/Ops.lean ====
section
/-! DEFINITION. The shared operations: access to units, counters, device time, outputs, interrupts, index blocks and events. -/

namespace Sys2Proof.Machine

open Sys2Proof

/-- The outcome type of a step. -/
abbrev Outcome := Host.Outcome State Fault Refusal

/-! ## Units -/

/-- The state with `f` applied when `c` holds. DESIGN CHOICE (log 11). -/
def State.when (c : Bool) (f : State → State) (s : State) : State := if c then f s else s

/-- The state after `f` for each element, in order. -/
def State.each {α : Type} (f : α → State → State) : List α → State → State
  | [], s => s
  | x :: xs, s => State.each f xs (f x s)

/-- The function of a FID (R51). -/
def State.fn (s : State) (fid : Nat) : Fn := s.fns.getD fid {}
def State.modFn (fid : Nat) (f : Fn → Fn) (s : State) : State := { s with fns := s.fns.upd fid {} f }
def State.resOf (s : State) (fid : Nat) : FnRes := s.res.getD fid {}
def State.modRes (fid : Nat) (f : FnRes → FnRes) (s : State) : State := { s with res := s.res.upd fid {} f }
def State.link (s : State) (l : Nat) : Link := s.links.getD l {}
def State.modLink (l : Nat) (f : Link → Link) (s : State) : State := { s with links := s.links.upd l {} f }
def State.ring (s : State) (k : Nat) : Option Ring := Tab.find k s.rings
def State.setRing (k : Nat) (r : Ring) (s : State) : State := { s with rings := Tab.set k r s.rings }
/-- The ring at `k` changed by `f`; nothing where none exists. -/
def State.modRing (k : Nat) (f : Ring → Ring) (s : State) : State :=
  match s.ring k with
  | none => s
  | some r => s.setRing k (f r)
def State.workOf (s : State) (k : Nat) : RingWork := s.work.getD k {}
def State.modWork (k : Nat) (f : RingWork → RingWork) (s : State) : State := { s with work := s.work.upd k {} f }
def State.pipe (s : State) (p : Nat) : Pipe := s.net.pipes.getD p {}
def State.modPipe (p : Nat) (f : Pipe → Pipe) (s : State) : State :=
  { s with net := { s.net with pipes := s.net.pipes.upd p {} f } }
def State.np (s : State) (n : Nat) : Np := s.net.nps.getD n {}
def State.modNp (n : Nat) (f : Np → Np) (s : State) : State := { s with net := { s.net with nps := s.net.nps.upd n {} f } }
def State.lp (s : State) (n : Nat) : Lp := s.net.lps.getD n {}
def State.modLp (n : Nat) (f : Lp → Lp) (s : State) : State := { s with net := { s.net with lps := s.net.lps.upd n {} f } }
def State.lane (s : State) (n : Nat) : Lane := s.net.lanes.getD n {}
def State.modLane (n : Nat) (f : Lane → Lane) (s : State) : State :=
  { s with net := { s.net with lanes := s.net.lanes.upd n {} f } }
def State.egq (s : State) (q : Nat) : EgQ := s.net.egq.getD q {}
def State.modEgq (q : Nat) (f : EgQ → EgQ) (s : State) : State := { s with net := { s.net with egq := s.net.egq.upd q {} f } }
def State.spread (s : State) (g : Nat) : Spread := s.net.spread.getD g {}
def State.modSpread (g : Nat) (f : Spread → Spread) (s : State) : State :=
  { s with net := { s.net with spread := s.net.spread.upd g {} f } }
def State.byreQ (s : State) (q : Nat) : List Pkt := s.net.byre.getD q []

/-! ## Numbering (R17, R18, R44, R129, R132) -/

/-- The key of ring `n` of a kind with code `kind`. -/
def ringKey (kind n : Nat) : Nat := kind * 262144 + n
def sqKey (n : Nat) : Nat := ringKey 0 n
def cqKey (n : Nat) : Nat := ringKey 1 n
def eqKey (n : Nat) : Nat := ringKey 2 n
def kindOfKey (k : Nat) : Nat := k / 262144
def numOfKey (k : Nat) : Nat := k % 262144

def hpOf (fid : Nat) : Nat := fid / 1024
def vfOf (fid : Nat) : Nat := fid % 1024
/-- The half of a function's host port. -/
def halfOfFid (fid : Nat) : Nat := fid / 4096
def State.bif (s : State) (hp : Nat) : Bool := s.hif.bifurcated.contains hp
/-- The link of a function (R43). -/
def State.linkOf (s : State) (fid : Nat) : Nat := 2 * hpOf fid + b2n (s.bif (hpOf fid) && decide (512 ≤ vfOf fid))
/-- The FID of a link's PF (R44). -/
def pfOfLink (l : Nat) : Nat := l / 2 * 1024 + l % 2 * 512
/-- The PF of a function's link. -/
def State.pfOf (s : State) (fid : Nat) : Nat := pfOfLink (s.linkOf fid)
def State.isPf (s : State) (fid : Nat) : Bool := fid == s.pfOf fid
/-- A FID names a function (R44). -/
def State.fidOk (s : State) (fid : Nat) : Bool :=
  decide (fid < 8192) &&
  if s.bif (hpOf fid) then decide (vfOf fid % 512 ≤ 256) else decide (vfOf fid ≤ 512)
/-- The VF index of a function on its link (R44). -/
def State.vfIndex (s : State) (fid : Nat) : Nat := fid - s.pfOf fid
/-- MSI-X vectors of a function (R50). -/
def State.vectors (s : State) (fid : Nat) : Nat := if s.isPf fid then 256 else 32
/-- The DMA engine that serves an SQ (R132). -/
def engineOfSq (n : Nat) : Nat := 4 * (n / 32768) + n % 4
def halfOfPipe (p : Nat) : Nat := p / 8
/-- PFs in ACTIVE, in FID order. -/
def State.activePfs (s : State) : List Nat := s.fns.keysWhere (fun fid f => f.state == .active && s.isPf fid)
/-- PFs in ACTIVE with INFRA, in FID order. -/
def State.infraPfs (s : State) : List Nat :=
  s.fns.keysWhere (fun fid f => f.state == .active && s.isPf fid && f.priv == .infra)

/-- The value of FN_STATE.STATE (R51). -/
def FnState.code : FnState → Nat
  | .disabled => 0 | .idle => 1 | .active => 2 | .aborting => 3 | .aborted => 4 | .quarantine => 5

/-- The value of a privilege level (R46). -/
def Priv.code : Priv → Nat
  | .tenant => 0 | .host => 1 | .infra => 2

/-- The value of a ring's STATE (R96). -/
def RingState.code : RingState → Nat
  | .running => 0 | .error => 1 | .fetchStopped => 2

/-! ## Counters (R12, R117) -/

/-- The key of counter `num` of object `idx` in STATS_READ group `g`. -/
def statKey (g idx num : Nat) : Nat := g * 4294967296 + idx * 65536 + num
def State.stat (s : State) (g idx num : Nat) : Nat := s.stats.getD (statKey g idx num) 0
/-- Advances a 64-bit counter, which wraps (R12). -/
def State.bumpBy (g idx num n : Nat) (s : State) : State :=
  { s with stats := s.stats.upd (statKey g idx num) 0 (fun v => (v + n) % 18446744073709551616) }
def State.bump (g idx num : Nat) (s : State) : State := s.bumpBy g idx num 1

/-! ## Halves that are apart (R533) -/

/-- No traffic passes between the halves: split mode, or every link is lost (R36, R533). -/
def State.apart (s : State) : Bool := s.rel.split || s.rel.cut

/-! ## Free values -/

/-- The next free value, and the state past it. DESIGN CHOICE (log 1). -/
def State.draw (s : State) : BitVec 64 × State := (Config.freeWord s.free, { s with free := s.free + 1 })

/-! ## Time (R184, R185, R188) -/

/-- Device time [63:0] of a count of ns (R184). -/
def devWord (t : Nat) : BitVec 64 :=
  BitVec.ofNat 64 (t / 1000000000 % 4294967296 * 4294967296 + t % 1000000000)
def State.devNow (s : State) : BitVec 64 := devWord s.clock.dev
/-- Clocks after `dt` ns: device time follows FREQ_PPB and any slew at 100,000 ppb, with the part under a nanosecond kept (R185, R188),
and each change of the seconds field is an edge of TIME_PPS_OUT. -/
def Clock.advance (dt : Nat) (c : Clock) : Clock :=
  let cap : Int := dt * 100000
  let sl : Int := if c.slew < 0 then max c.slew (-cap) else min c.slew cap
  let sub : Int := c.sub + dt * (1000000000 + c.freqPpb) + sl
  let whole := (sub / 1000000000).toNat
  let dev := (c.dev + whole) % (281474976710656 * 1000000000)
  { c with now := c.now + dt, dev := dev, sub := sub % 1000000000, slew := c.slew - sl,
           pps := c.pps + ((c.dev + whole) / 1000000000 - c.dev / 1000000000) }
/-- A clock whose TIME_PPS_OUT gives no edges: without main power the pin is high-impedance (R559). -/
def Clock.quiet (c before : Clock) (powered : Bool) : Clock := if powered then c else { c with pps := before.pps }
/-- The state `dt` ns later. DESIGN CHOICE (log 9, 16). -/
def State.advance (dt : Nat) (s : State) : State := { s with clock := (s.clock.advance dt).quiet s.clock s.boot.mainGood }

/-- Steps of a die since POR (R379, R425). -/
def State.stepsOf (s : State) (h : Nat) : BitVec 64 := if h = 0 then s.off.stepsW else s.off.stepsE
/-- The counter of a die is about to be read: how many steps have passed since the last time is free, and it never runs back. DESIGN CHOICE (log
136). -/
def State.tickSteps (h : Nat) (s : State) : State :=
  let d := s.draw
  let k := d.1 >>> 1
  let o := d.2.off
  { d.2 with off := { o with stepsW := if h = 0 then o.stepsW + k else o.stepsW, stepsE := if h = 0 then o.stepsE else o.stepsE + k } }

/-- The counter of a die stands at `n` or later. -/
def State.stepsTo (h n : Nat) (s : State) : State :=
  let o := s.off
  { s with off := { o with
      stepsW := if h = 0 then BitVec.ofNat 64 (max o.stepsW.toNat n) else o.stepsW
      stepsE := if h = 0 then o.stepsE else BitVec.ofNat 64 (max o.stepsE.toNat n) } }

/-! ## What leaves the device -/

/-- The device sends `o` (R41). DESIGN CHOICE (log 17). -/
def State.emit (o : Out) (s : State) : State := { s with out := s.out ++ [o] }
/-- A TLP on a function's own link, with ECRC appended where AER enables its generation (R41, R42). -/
def State.tlp (fid : Nat) (o : Out) (s : State) : State := s.emit (if (s.link (s.linkOf fid)).ecrcGen then .ecrc o else o)
/-- How a message leaves on a binding: an in-band interrupt asks the I3C controller to read it (R495); the TLP of a VDM carries an ECRC where its link
appends one (R42). -/
def State.mgmtOut (s : State) (b : Binding) (bytes : Bytes) : List Out := match b with
  | .i3c _ => [.ibi, .mgmt b bytes]
  | .smbus _ _ => [.mgmt b bytes]
  | .vdm l _ => [if (s.link l).ecrcGen then .ecrc (.mgmt b bytes) else .mgmt b bytes]
/-- A message leaves on a binding. -/
def State.mgmtSend (b : Binding) (bytes : Bytes) (s : State) : State := { s with out := s.out ++ s.mgmtOut b bytes }
/-- A function has no DMA but in ACTIVE: from the moment it enters ABORTING none begins (R51, R55). -/
def State.dmaOn (s : State) (fid : Nat) : Bool := (s.fn fid).state == .active
/-- Max Payload Size of a link (R38). -/
def Link.maxWrite (l : Link) : Nat := max l.mps 128
/-- Max Read Request Size of a link (R38). -/
def Link.maxRead (l : Link) : Nat := max l.mrrs 128
/-- Offsets at which pieces of at most `m` bytes begin in `n` bytes. -/
def pieces (m n : Nat) : List Nat := (List.range ((n + m - 1) / m)).map (· * m)
/-- A posted write on a function's own link, in TLPs of at most Max Payload Size (R38, R41). DESIGN CHOICE (log 19). -/
def State.dmaWrite (fid : Nat) (addr : BitVec 64) (data : Bytes) (s : State) : State :=
  if !s.dmaOn fid then s
  else
    let m := (s.link (s.linkOf fid)).maxWrite
    s.each (fun o => State.tlp fid (.write fid (addr + BitVec.ofNat 64 o) ((data.drop o).take m))) (pieces m data.length)

/-- Sends MSI-X vector `vec`, or sets its pending bit while it is masked; a function not in ACTIVE sends none (R50). PRESUMED (log 23). -/
def State.sendMsi (fid vec : Nat) (s : State) : State :=
  let f := s.fn fid
  if f.state != .active || !f.msixOn || decide (s.vectors fid ≤ vec) then s
  else if f.msixMask || (f.msix.getD vec {}).ctrl.getLsbD 0 then
    s.modFn fid (fun f => { f with msixPend := if f.msixPend.contains vec then f.msixPend else f.msixPend ++ [vec] })
  else s.tlp fid (.msi fid vec)

/-- The tag that a link's next read takes: the lowest free one of 4,096 (R38). DESIGN CHOICE (log 114). -/
def Link.freeTag (l : Link) : Option Nat := lowestFree (fun t => l.reads.any (fun e => e.1 == t)) 0 4096

/-- A read whose request carries a clear Relaxed Ordering: that of a context, which must not pass the write-back before it (R321). -/
def ReadUse.strict : ReadUse → Bool
  | .context _ => true
  | _ => false

/-- Sends a read request of link `l` under tag `t` (R38, R42). -/
def State.sendRead (l t : Nat) (r : HostRead) (s : State) : State :=
  (s.modLink l (fun lk => { lk with reads := Tab.set t { r with issued := s.clock.now } lk.reads })).tlp r.fid
    (.read r.fid r.addr r.len r.use.strict)

/-- A read request of link `l`: it is sent, or waits behind others for a tag to come free (R38). -/
def State.queueRead (l : Nat) (r : HostRead) (s : State) : State :=
  match (s.link l).readQ, (s.link l).freeTag with
  | [], some t => s.sendRead l t r
  | _, _ => s.modLink l (fun lk => { lk with readQ := lk.readQ ++ [r] })

/-- Issues a host read for a function, in requests of at most Max Read Request Size (R38, R41, R146). -/
def State.issueRead (fid : Nat) (addr : BitVec 64) (len : Nat) (u : ReadUse) (s : State) : State :=
  if !s.dmaOn fid then s
  else
    let l := s.linkOf fid
    let m := (s.link l).maxRead
    s.each (fun o => State.queueRead l { fid := fid, addr := addr + BitVec.ofNat 64 o, len := min m (len - o), use := u }) (pieces m len)

/-- Sends reads that wait on link `l` for tags that have come free, `n` at most, oldest first (R38). -/
def State.pumpReads (l : Nat) : Nat → State → State
  | 0, s => s
  | n + 1, s =>
    match (s.link l).readQ, (s.link l).freeTag with
    | r :: rs, some t => ((s.modLink l (fun lk => { lk with readQ := rs })).sendRead l t r).pumpReads l n
    | _, _ => s

/-- Forgets the reads of one use, once their data has been used; their tags come back (R38, R42). -/
def State.endRead (fid : Nat) (u : ReadUse) (s : State) : State :=
  let l := s.linkOf fid
  let mine := fun (r : HostRead) => r.use == u && r.fid == fid && !r.orphan
  let n := (s.link l).reads.countV (fun _ r => mine r)
  (s.modLink l (fun lk => { lk with reads := lk.reads.filter (fun e => !mine e.2), readQ := lk.readQ.filter (fun r => !mine r) })).pumpReads l n

/-! ## Index blocks (R134 to R136) -/

def Ring.size (r : Ring) : Nat := 2 ^ r.log2
/-- Entries between the device index and the host index. -/
def Ring.used (r : Ring) : Nat := (r.dev - r.seen).toNat
def Ring.full (r : Ring) : Bool := r.used == r.size
/-- PHASE of the entry at the device index (R155). -/
def Ring.phase (r : Ring) : Nat := 1 - r.dev.toNat / r.size % 2
/-- The address of the entry at the device index, `w` bytes an entry. -/
def Ring.slotAddr (r : Ring) (w : Nat) : BitVec 64 := r.ringAddr + BitVec.ofNat 64 (r.dev.toNat % r.size * w)

/-- Completions held for CQ `n` (R158). -/
def State.heldFor (s : State) (fid n : Nat) : Nat := (s.resOf fid).hold.countP (fun e => e.1 == n)

/-- Bytes 32 to 63 of a ring's index block (R134). -/
def State.idxBytes (s : State) (k : Nat) (r : Ring) : Bytes :=
  toLe 4 r.dev.toNat ++ toLe 1 r.state.code ++ toLe 1 r.error ++
  toLe 2 (if kindOfKey k = 1 then s.heldFor r.fid (numOfKey k) else 0) ++ List.replicate 24 0

/-- Writes the device's half of an index block (R135). -/
def State.idxWrite (k : Nat) (s : State) : State :=
  match s.ring k with
  | none => s
  | some r => s.dmaWrite r.fid (r.idxAddr + 32) (s.idxBytes k r)

/-! ## Resources (R519, R545) -/

/-- A resource identifier: kind in [31:24], index below. -/
def resId (kind idx : Nat) : Nat := kind * 16777216 + idx
def resKind (r : Nat) : Nat := r / 16777216
def resIdx (r : Nat) : Nat := r % 16777216

/-- The half a resource lies on; a die-to-die resource is counted on west. DEDUCED (log 108). -/
def resHalf (r : Nat) : Nat :=
  let i := resIdx r
  match resKind r with
  | 1 => i / 64
  | 4 => i / 128
  | 5 => i / 4194304
  | 6 => i / 20
  | 7 => i / 64
  | 8 => i / 8
  | 9 => i / 16
  | 10 => i
  | 11 => i / 34 / 8
  | 12 => i / 8
  | _ => 0

def State.isRetired (s : State) (kind idx : Nat) : Bool := s.rel.retired.contains (resId kind idx)
/-- Resources of a kind on a half that are retired. -/
def State.retiredOf (s : State) (kind h : Nat) : Nat := s.rel.retired.countP (fun x => resKind x == kind && resHalf x == h)
/-- The pseudo-channels of a half that are retired. -/
def State.hbmRetired (s : State) (h : Nat) : Nat := s.retiredOf 4 h
def State.d2dLink (s : State) (i : Nat) : D2d := s.rel.d2d.getD i {}
/-- Links in service. -/
def State.linksUp (s : State) : List Nat := (List.range 5).filter (fun i => !(s.d2dLink i).down && !s.isRetired 3 i)
/-- The cores of a half that are in service: at most 18 that are not retired, without those withdrawn (R336). -/
def State.cipherCores (s : State) (h : Nat) : List Nat :=
  ((((List.range 20).map (fun i => 20 * h + i)).filter (fun c => !s.isRetired 6 c)).take 18).filter
    (fun c => !s.cry.withdrawn.contains c)
/-- Parse processors of a pipeline in service: 32 of 34 while at most two are retired (R216, R526). -/
def State.processors (s : State) (n : Nat) : List Nat :=
  ((List.range 34).filter (fun i => !s.isRetired 11 (n * 34 + i))).take 32
/-- INSERVICE of EV_RESOURCE_RETIRED: resources of that kind left in service on the half of `r` (R545). -/
def State.inService (s : State) (r : Nat) : Nat :=
  let h := resHalf r
  match resKind r with
  | 1 => 64 - s.retiredOf 1 h
  | 3 => s.linksUp.length
  | 4 => 128 - s.hbmRetired h
  | 6 => (s.cipherCores h).length
  | 7 => 64 - s.retiredOf 7 h
  | 8 => 8 - s.retiredOf 8 h
  | 11 => (List.range 8).foldl (fun a j => a + (s.processors (8 * h + j)).length) 0
  | _ => 0xFF

/-- The value of the engine state (R373). -/
def CryState.code : CryState → Nat
  | .ready => 0 | .zeroRecoverable => 1 | .zeroLatched => 2

/-- The values of LP states (R175). -/
def LpState.code : LpState → Nat
  | .down => 0 | .training => 1 | .up => 2

/-- SPEED of a number of lanes (R116). -/
def speedCode (lanes : Nat) : Nat := if lanes = 8 then 3 else if lanes = 4 then 2 else if lanes = 2 then 1 else 0

/-- LANES: bit i is lane i of the port (R116). -/
def laneMask (ls : List Nat) : Nat := ls.foldl (fun a i => a + 2 ^ i) 0

/-! ## Events (R161 to R166) -/

/-- The function EQ: the lowest-numbered EQ of the function that is not in ERROR (R163). -/
def State.fnEq (s : State) (fid : Nat) : Option Nat :=
  (s.rings.find? (fun e => kindOfKey e.1 == 2 && e.2.fid == fid && e.2.state != .error)).map (fun e => numOfKey e.1)

/-- The EQ an event goes to now. -/
def State.eqOf (s : State) (fid : Nat) : EvTarget → Option Nat
  | .eq n => if (s.ring (eqKey n)).isSome then some n else none
  | .fn => s.fnEq fid

/-- The count at which an armed EQ sends its vector (R166). -/
def Ring.armLimit (r : Ring) : Nat := max r.modCount 1

/-- Sends the vector of an armed EQ whose count has been reached, and disarms it (R166). -/
def State.eqIrq (n : Nat) (s : State) : State :=
  match s.ring (eqKey n) with
  | none => s
  | some r =>
    if r.armed && decide (r.armLimit ≤ r.armCount) then
      (s.setRing (eqKey n) { r with armed := false, armCount := 0, armFirst := none }).sendMsi r.fid r.bind
    else s

/-- The 32 bytes of an event (R161). -/
def evBytes (phase code source : Nat) (data : Bytes) : Bytes :=
  toLe 2 code ++ toLe 1 phase ++ [0] ++ toLe 4 source ++ slice data 0 24

/-- Releases a ticket (R76). -/
def ticketKey (fid : Nat) (t : Nat) : Nat := fid * 4294967296 + t

/-- The effect of an event being written, beside the write: an EV_CMD_DONE releases a ticket asked for with AUTO_RELEASE (R77). -/
def State.afterEvent (fid code source : Nat) (s : State) : State :=
  if code = 0x0104 then
    match Tab.find (ticketKey fid source) s.tickets with
    | some t => if t.autoRel && t.done then { s with tickets := Tab.del (ticketKey fid source) s.tickets } else s
    | none => s
  else s

/-- Writes an event to EQ `n`, then its index block, then the vector if the EQ's count has been reached. -/
def State.writeEvent (n code source : Nat) (data : Bytes) (s : State) : State :=
  match s.ring (eqKey n) with
  | none => s
  | some r =>
    let s := s.dmaWrite r.fid (r.slotAddr 32) (evBytes r.phase code source data)
    let s := s.setRing (eqKey n) { r with
      dev := r.dev + 1
      armCount := r.armCount + 1
      armFirst := if r.armed && r.armFirst.isNone then some s.clock.dev else r.armFirst }
    ((s.idxWrite (eqKey n)).afterEvent r.fid code source).eqIrq n

/-- EQ `n` takes an event now. -/
def State.eqWritable (s : State) (n : Nat) : Bool :=
  match s.ring (eqKey n) with
  | none => false
  | some r => r.state != .error && !r.full

/-- USED of the key that an event names, while its slot still holds it (R374). -/
def State.keyData (s : State) (e : EvBit) : Bytes :=
  let x := s.cry.slots.getD (e.source % 16777216) {}
  match x.info with
  | some k => if e.source / 16777216 = x.gen.toNat then toLe 8 k.used else e.data
  | none => e.data

/-- DATA of the two events of a CQ (R162). -/
def State.cqData (s : State) (e : EvBit) : Bytes :=
  match s.ring (cqKey e.source) with
  | some r =>
    if e.code = 0x0101 then toLe 4 r.dev.toNat else toLe 4 r.dev.toNat ++ toLe 4 r.seen.toNat ++ toLe 2 (s.heldFor r.fid e.source)
  | none => e.data

/-- DATA of EV_RING_ERROR: the device CI of an SQ is read anew, the rejected index of a CQ or EQ is of the moment (R162). -/
def State.ringData (s : State) (e : EvBit) : Bytes :=
  match le e.data 0 1, s.ring (sqKey e.source) with
  | 0, some r => slice e.data 0 4 ++ toLe 4 r.dev.toNat
  | _, _ => e.data
/-- DATA of EV_UPDATE_STATE (R494). -/
def State.updData (s : State) : Bytes :=
  toLe 1 s.upd.state ++ toLe 1 s.upd.reason ++ [0, 0] ++ toLe 4 s.runningSeq ++ toLe 4 s.armedSeq ++ toLe 4 s.upd.next
/-- DATA of EV_LINK_UP (R182). -/
def State.linkUpData (s : State) (lp : Nat) : Bytes :=
  let ls := (s.lp lp).lanes
  toLe 1 (speedCode ls.length) ++ [1] ++ toLe 1 (laneMask ls)
/-- The new SPEED of EV_LANE_RETIRED: 0xFF while the LP uses no lanes (R182). -/
def State.narrowed (s : State) (lp : Nat) : Nat := if (s.lp lp).lanes.isEmpty then 0xFF else speedCode (s.lp lp).lanes.length

/-- DATA of a pending-bit event as it stands at writing (R162): every count, gauge, index and state of the tables of R162, R182, R271, R328, R374,
R494, R517 and R545 is read anew, what is of the moment of the event stays. DEDUCED (log 138). -/
def State.evData (s : State) (e : EvBit) : Bytes :=
  let n := e.source
  let low := fun (h num : Nat) => toLe 4 (s.stat 3 h num % 4294967296)
  match e.code with
  | 0x0101 => s.cqData e
  | 0x0102 => s.cqData e
  | 0x0103 => s.ringData e
  | 0x0105 => slice e.data 0 2 ++ toLe 1 (s.fn n).state.code
  | 0x0201 => s.linkUpData n
  | 0x0203 => slice e.data 0 1 ++ toLe 1 (s.narrowed (le e.data 0 1))
  | 0x0211 => toLe 8 (devWord s.clock.lastAdjust).toNat
  | 0x0301 => toLe 1 (s.pipe n).stash.length
  | 0x0302 => low ((s.spread n).threads.headD 0 / 1024) (1027 + 8 * n)
  | 0x0303 => low (n / 32) (32 + n % 32)
  | 0x0401 => low n 73
  | 0x0402 => toLe 4 (if n = 0 then s.lrd.recsW else s.lrd.recsE).length
  | 0x0403 => slice e.data 0 8 ++ toLe 8 (s.lrd.tdSent.getD n 0)
  | 0x0501 => s.keyData e
  | 0x0502 => s.keyData e
  | 0x0503 => match Tab.find n s.cry.sas with
    | some a => toLe 8 a.seq
    | none => e.data
  | 0x0505 => slice e.data 0 1 ++ toLe 1 s.cry.state.code ++ e.data.drop 2
  | 0x0507 => toLe 1 (s.cipherCores (n / 20)).length
  | 0x0702 => toLe 1 s.power.level ++ e.data.drop 1
  | 0x0703 => toLe 2 s.power.capW ++ slice e.data 2 2 ++ toLe 1 s.power.mode
  | 0x0710 => s.updData
  | 0x0721 => slice e.data 0 1 ++ toLe 1 s.linksUp.length
  | 0x0724 => if e.data = [0xFF] then e.data else toLe 1 (s.inService n)
  | 0x0725 => low n 9225
  | _ => e.data

/-- Writes the held events that go to EQ `n` while it has room, oldest first; answers those that stay. -/
def drainHeld (fid n : Nat) : List EvHeld → State → List EvHeld × State
  | [], s => ([], s)
  | e :: es, s =>
    if s.eqOf fid e.target == some n && s.eqWritable n then drainHeld fid n es (s.writeEvent n e.code e.source e.data)
    else let r := drainHeld fid n es s; (e :: r.1, r.2)

/-- Writes the pending-bit events that go to EQ `n` while it has room, ascending; answers those that stay. -/
def drainBits (fid n : Nat) : List EvBit → State → List EvBit × State
  | [], s => ([], s)
  | e :: es, s =>
    if s.eqOf fid e.target == some n && s.eqWritable n then drainBits fid n es (s.writeEvent n e.code e.source (s.evData e))
    else let r := drainBits fid n es s; (e :: r.1, r.2)

/-- Writes what waits for EQ `n`: held events in order, then pending bits ascending (R164). -/
def State.flushEq (fid n : Nat) (s : State) : State :=
  let h := drainHeld fid n (s.resOf fid).evHold s
  let b := drainBits fid n (h.2.resOf fid).evBits h.2
  b.2.modRes fid (fun r => { r with evHold := h.1, evBits := b.1 })

/-- The reads of a class-7 SQ's BURST descriptor slots from the device CI on, issued in the same step as its index-block read (R147). -/
def State.specRead (k : Nat) (r : Ring) (s : State) : State :=
  if kindOfKey k = 0 ∧ r.cls = 7 then
    let slot := r.dev.toNat % r.size
    let n1 := min r.burst (r.size - slot)
    let s := s.issueRead r.fid (r.ringAddr + BitVec.ofNat 64 (slot * 64)) (n1 * 64) (.spec k)
    let s := if n1 < r.burst then s.issueRead r.fid r.ringAddr ((r.burst - n1) * 64) (.spec k) else s
    s.modWork k (fun w => { w with spec := r.burst, specAt := r.dev })
  else s

/-- Reads a ring's index block: at most one such read is outstanding (R142, R147). -/
def State.readIndex (k : Nat) (s : State) : State :=
  match s.ring k with
  | none => s
  | some r => if r.readOut then s else
    ((s.setRing k { r with readOut := true, dbPending := false, armWait := r.armNext, armNext := false }).issueRead r.fid r.idxAddr 64
      (.index k)).specRead k r

/-- Whether something still waits for EQ `n`. -/
def State.eqWaits (s : State) (fid n : Nat) : Bool :=
  (s.resOf fid).evHold.any (fun e => s.eqOf fid e.target == some n) ||
  (s.resOf fid).evBits.any (fun e => s.eqOf fid e.target == some n)

/-- EQ `n` cannot take an event: one found full has its index block read once, not again while `old`, something, has waited for it since (R164). -/
def State.foundFull (old : Bool) (n : Nat) (s : State) : State :=
  match s.ring (eqKey n) with
  | none => s
  | some r => if !old && r.full && r.state != .error then s.readIndex (eqKey n) else s

/-- What tells the pending bits of one code apart: the source; of EV_RING_ERROR the ring, its KIND with it (R162); of the key-usage events the
slot, which SOURCE gives together with its generation (R374). -/
def EvBit.bit (e : EvBit) : Nat :=
  if e.code = 0x0103 then ringKey (le e.data 0 1) e.source
  else if e.code = 0x0501 ∨ e.code = 0x0502 then e.source % 262144
  else e.source

/-- Two pending-bit events are the same bit. -/
def EvBit.same (b e : EvBit) : Bool := e.code == b.code && e.bit == b.bit && e.target == b.target
/-- An event bit is put in its place in ascending code, then ascending SOURCE, behind those of the same SOURCE (R164). -/
def placeBit (b : EvBit) : List EvBit → List EvBit
  | [] => [b]
  | e :: es => if b.code < e.code ∨ (b.code = e.code ∧ b.source < e.source) then b :: e :: es else e :: placeBit b es
/-- An event bit among those that wait; the same bit is kept once, with the newer data. -/
def insertBit (b : EvBit) (es : List EvBit) : List EvBit := placeBit b (es.filter (fun e => !b.same e))

/-- Raises a pending-bit event of a function: its EQ takes it at once, or it stays as its bit (R162, R164); one whose EQ does not exist is not
posted (R163). What waits for the EQ goes on waiting for its doorbell. -/
def State.postBit (fid : Nat) (t : EvTarget) (code source : Nat) (data : Bytes) (s : State) : State :=
  match s.eqOf fid t with
  | none => s
  | some n =>
    let b : EvBit := ⟨code, source, t, data⟩
    if s.eqWritable n then
      (s.modRes fid (fun r => { r with evBits := r.evBits.filter (fun e => !b.same e) })).writeEvent n code source data
    else (s.modRes fid (fun r => { r with evBits := insertBit b r.evBits })).foundFull (s.eqWaits fid n) n

/-- Raises a held event of a function: its EQ takes it at once, or it enters the hold, where it stays behind those before it (R162, R164). -/
def State.postHeld (fid : Nat) (t : EvTarget) (code source : Nat) (data : Bytes) (s : State) : State :=
  match s.eqOf fid t with
  | none => s
  | some n =>
    if s.eqWritable n && !(s.resOf fid).evHold.any (fun e => s.eqOf fid e.target == some n) then s.writeEvent n code source data
    else (s.modRes fid (fun r => { r with evHold := r.evHold ++ [⟨code, source, t, data⟩] })).foundFull (s.eqWaits fid n) n

/-- Raises an event at the function EQ of each function listed. -/
def State.postAll (fids : List Nat) (code source : Nat) (data : Bytes) (s : State) : State :=
  s.each (fun fid => State.postBit fid .fn code source data) fids
/-- To every ACTIVE PF (R182). -/
def State.postPfs (code source : Nat) (data : Bytes) (s : State) : State := s.postAll s.activePfs code source data
/-- To every ACTIVE INFRA PF (R182, R271). -/
def State.postInfra (code source : Nat) (data : Bytes) (s : State) : State := s.postAll s.infraPfs code source data

/-! ## Ring errors (R138, R139) -/

/-- Where a ring's error event goes (R162). -/
def State.errTarget (s : State) (k : Nat) (r : Ring) : EvTarget :=
  if kindOfKey k = 0 then
    match s.ring (cqKey r.bind) with
    | some c => .eq c.bind
    | none => .fn
  else if kindOfKey k = 1 then .eq r.bind
  else .fn

/-- A ring enters ERROR with a code: the index block is written, EV_RING_ERROR posted and FN_ERR.RING_ERROR set (R139). `rejected` is
the host index refused, of a CQ or EQ. -/
def State.ringError (k code : Nat) (rejected : BitVec 32) (s : State) : State :=
  match s.ring k with
  | none => s
  | some r =>
    let s := (s.setRing k { r with state := .error, error := code }).idxWrite k
    let s := s.modFn r.fid (fun f => { f with err := f.err ||| 8 })
    let last := if kindOfKey k = 0 then r.dev else rejected
    s.postBit r.fid (s.errTarget k r) 0x0103 (numOfKey k)
      (toLe 1 (kindOfKey k) ++ toLe 1 code ++ [0, 0] ++ toLe 4 last.toNat)

/-- The outcome of an event that is a total change of the state. -/
def done (s : State) : Outcome := .next s

end Sys2Proof.Machine
end

