-- ==== Sys2Proof/Machine/Time.lean ====
section
/-! DEFINITION. Device time: holdover, the step guard and the pulse per second (R184 to R192). -/

namespace Sys2Proof.Machine

open Sys2Proof

/-- T_stale of the transport, 2 ms (R52, R190). -/
def tStale : Nat := 2000000

/-- The step guard is up: until device time reaches G + T_stale (R192). -/
def Clock.guarded (c : Clock) : Option Nat :=
  match c.guardG with
  | none => none
  | some g => if c.dev < g + tStale then some g else none

/-- Ends a step guard whose time is over. -/
def Clock.dropGuard (c : Clock) : Clock := if c.guarded.isNone then { c with guardG := none } else c

/-- Device time `a` ns on, signed; it stays in the 80-bit range (R184). DESIGN CHOICE (log 133). -/
def devPlus (t : Nat) (a : Int) : Nat := (((t : Int) + a) % ((281474976710656 * 1000000000 : Nat) : Int)).toNat

/-- A step of device time by a signed offset: a backward one raises the step guard, the first synchronises the device and gives the start
mark G0, and one that changes the seconds field gives an edge of TIME_PPS_OUT (R185, R188, R189, R192, R305). -/
def Clock.step (off : Int) (c : Clock) : Clock :=
  let g : Option Nat :=
    if off < 0 then
      some (match c.guarded with
        | some g => max g c.dev
        | none => c.dev)
    else c.guardG
  let d := devPlus c.dev off
  { c with dev := d, guardG := g, synced := true, startG0 := if c.synced then c.startG0 else some d
           pps := c.pps + (if d / 1000000000 = c.dev / 1000000000 then 0 else 1) }

/-- TIME_ADJUST at its commit point (R188, R189): FREQ_PPB is replaced, any slew left over is discarded, and OFFSET_NS is stepped or
slewed. -/
def Clock.adjust (off freq : Int) (step : Bool) (c : Clock) : Clock :=
  let c := { c with freqPpb := freq, slew := if step then 0 else off * 1000000000 }
  let c := if step then c.step off else c
  { c with lastAdjust := c.dev, holdover := false }

/-- The effect of TIME_ADJUST, EV_TIME_STEP included (R182, R188). -/
def State.timeAdjust (off freq : Int) (step : Bool) (s : State) : State :=
  let before := s.devNow
  let s := { s with clock := (s.clock.adjust off freq step).quiet s.clock s.boot.mainGood }
  if step then s.postInfra 0x0210 0 (toLe 8 (unsigned 64 off) ++ toLe 8 before.toNat) else s

/-- TIME_HOLDOVER (R189): once synchronised, 4 s without a TIME_ADJUST post EV_TIME_HOLDOVER. DESIGN CHOICE (log 133). -/
def execTimeHoldover (dt : Nat) (s : State) : Outcome :=
  let s := s.advance dt
  let c := s.clock
  if c.synced && !c.holdover && decide (c.lastAdjust + 4000000000 ≤ c.dev) then
    done (({ s with clock := { c with holdover := true } }).postInfra 0x0211 0 (toLe 8 (devWord c.lastAdjust).toNat))
  else done s

/-- A reference clock is missing (R561). -/
def State.clkLost (s : State) (c : RefClk) : Bool := s.clock.missing.contains c
/-- A host link's own clock is missing. -/
def State.hostClkLost (s : State) (l : Nat) : Bool := s.clock.missing.any (fun c => match c with
  | .host k => k.val == l
  | _ => false)

/-- PPS_EDGE (R185): `dt` ns pass, and TIME_PPS_OUT gives a rising edge for each change of the seconds field in them. -/
def execPpsEdge (dt : Nat) (s : State) : Outcome := done (s.advance dt)

end Sys2Proof.Machine
end

