-- ==== Sys2Proof/Machine/Faults.lean ====
section
/-! DEFINITION. The Ledger's buffer and records (R510, R514, R516), and the charging of faults to resources (R518 to R521, R532, R545, R546). -/

namespace Sys2Proof.Machine

open Sys2Proof

/-! ## Ledger records (R514 to R516) -/

/-- The newest buffered record of SEVERITY below 2 removed, if there is one (R516). DESIGN CHOICE (log 4). -/
def displace : List LedgerRec → Option (List LedgerRec)
  | [] => none
  | r :: rs =>
    match displace rs with
    | some rs' => some (r :: rs')
    | none => if (Config.ledgerSeverity r.code).val < 2 then some rs else none

/-- Puts a record into the buffer of 2,048 (R516). -/
def Ledger.add (l : Ledger) (r : LedgerRec) : Ledger :=
  if l.buf.length < 2048 then { l with buf := l.buf ++ [r] }
  else
    match displace l.buf with
    | some b => { l with buf := b ++ [r], lost := l.lost + 1 }
    | none => { l with lost := l.lost + 1 }

/-- A record with its INDEX, BOOT_SERIAL as it is at writing, and CRC. DESIGN CHOICE (log 4). -/
def ledgerBytes (index : BitVec 32) (serial : Nat) (r : LedgerRec) : Bytes :=
  let b := toLe 4 index.toNat ++ toLe 2 r.code ++ toLe 1 (Config.ledgerSeverity r.code).val ++
    toLe 1 (Config.ledgerOrigin r.code r.subject index.toNat).val ++ toLe 8 r.time.toNat ++ toLe 8 r.uptime ++ toLe 4 serial ++ toLe 4 r.subject ++
    slice r.data 0 28
  b ++ toLe 4 (crc32c 0 b)

/-- Writes a record into the next slot of the ring (R514). DEDUCED (log 86). -/
def Ledger.put (serial : Nat) (r : LedgerRec) (l : Ledger) : Ledger :=
  let n := l.next + 1
  { (l.fill (ledgerBytes l.next serial r)) with next := if n = 0xFFFFFFFF then 0 else n }

/-- A record of a code about a subject as it is made now: TIME is 0 before synchronisation (R514). -/
def State.ledgerRec (s : State) (code subject : Nat) (data : Bytes) : LedgerRec :=
  { code := code, subject := subject, time := if s.clock.synced then s.devNow else 0, uptime := s.clock.now / 1000, data := data }

/-- The next record to write: records lost are told first, by a LEDGER_LOST record that `lost` makes (R516). DEDUCED (log 86). -/
def Ledger.front (lost : Bytes → LedgerRec) (l : Ledger) : Option LedgerRec := if l.lost ≠ 0 then some (lost (toLe 4 l.lost)) else l.buf.head?

/-- The next record is written and reads back, or fails: a failed one uses its slot up and is written again in the next (R516). DEDUCED (log 86). -/
def Ledger.step (lost : Bytes → LedgerRec) (serial : Nat) (ok : Bool) (l : Ledger) : Ledger :=
  match l.front lost with
  | none => l
  | some r =>
    if !ok then l.fill []
    else if l.lost ≠ 0 then { (l.put serial r) with lost := 0 }
    else { (l.put serial r) with buf := l.buf.drop 1 }

/-- The Ledger's next record is written (R510, R516). DEDUCED (log 86). -/
def State.ledgerStep (ok : Bool) (s : State) : State := { s with ledger := s.ledger.step (s.ledgerRec 1 0) s.sets.bootSerial ok }

/-- Every buffered record written (R510). -/
def Ledger.flush (lost : Bytes → LedgerRec) (serial : Nat) (l : Ledger) : Ledger :=
  (List.range (l.buf.length + 1)).foldl (fun l _ => l.step lost serial true) l

/-- Writes every buffered record (R510). -/
def State.ledgerFlush (s : State) : State := { s with ledger := s.ledger.flush (s.ledgerRec 1 0) s.sets.bootSerial }

/-- Writes a Ledger record of a code about a subject (R514). While PWR_HOLDUP_N is low the buffer is written at once (R510); without standby power
Hearth takes none (R566). -/
def State.ledgerAdd (code subject : Nat) (data : Bytes) (s : State) : State :=
  let l := s.ledger.add (s.ledgerRec code subject data)
  { s with ledger := if !s.boot.stbyGood then s.ledger else if s.boot.holdupN then l else l.flush (s.ledgerRec 1 0) s.sets.bootSerial }

/-! ## Resources (R519, R545) -/

/-- The threshold of a resource's bucket (R519). -/
def resThreshold (r : Nat) : Nat :=
  match resKind r with
  | 1 => 6
  | 2 => 4
  | 4 => 256
  | 5 => 8
  | 6 => 3
  | 7 => 16
  | _ => 4

/-- The leak period of a resource's bucket in ns (R519). -/
def resLeak (r : Nat) : Nat :=
  match resKind r with
  | 1 => 60000000000
  | 2 => 60000000000
  | 4 => 1000000000
  | 5 => 10000000000
  | 7 => 10000000000
  | _ => 600000000000

def State.bucket (s : State) (r : Nat) : Bucket := s.rel.buckets.getD r {}
def State.setBucket (r : Nat) (b : Bucket) (s : State) : State :=
  { s with rel := { s.rel with buckets := Tab.set r b s.rel.buckets } }

/-- A bucket at a time: each leak period that has passed since `since` has subtracted 1, never below 0; one that has drained to 0 may report
its half again (R518, R520). DESIGN CHOICE (log 139). -/
def Bucket.settle (leak now : Nat) (b : Bucket) : Bucket :=
  let n := (now - b.since) / leak
  { level := b.level - n, half := b.half && decide (n < b.level), since := if n < b.level then b.since + n * leak else now }
/-- The bucket of a resource as it stands now. DESIGN CHOICE (log 139). -/
def State.bucketNow (s : State) (r : Nat) : Bucket := (s.bucket r).settle (resLeak r) s.clock.now

/-- A fault is permanent: the bucket is emptied, PERMANENT_FAULTS advances and FAULT_PERMANENT is recorded (R518, R520). DEDUCED (log 108).
-/
def State.permanent (r weight : Nat) (s : State) : State :=
  ((s.setBucket r {}).bump 3 (resHalf r) 9231).ledgerAdd 0x0101 r (toLe 1 weight ++ [0, 0, 0] ++ toLe 4 (resThreshold r))

/-- A bucket's level has first reached half its threshold, rounded up: FAULT_BUCKET_HALF (R520). -/
def State.halfRecord (r level : Nat) (s : State) : State := s.ledgerAdd 0x0102 r (toLe 4 level)

/-- Charges a fault of a weight to a resource: answers the state and whether the fault is permanent (R518, R520). DEDUCED (log 108). -/
def State.charge (r weight : Nat) (s : State) : State × Bool :=
  let b := s.bucketNow r
  let l := b.level + weight
  let t := resThreshold r
  let first := decide ((t + 1) / 2 ≤ l) && !b.half
  let s := if first then s.halfRecord r l else s
  if t ≤ l then (s.permanent r weight, true)
  else ((s.bump 3 (resHalf r) 9230).setBucket r { b with level := l, half := b.half || first }, false)

/-- BUCKET_LEAK (R518): `dt` ns pass, and the resource's bucket is brought up to date. -/
def State.leak (r dt : Nat) (s : State) : State := let s := s.advance dt; s.setBucket r (s.bucketNow r)

/-- BUCKET_LEAK (R518). -/
def execBucketLeak (resource : BitVec 32) (dt : Nat) (s : State) : Outcome := done (s.leak resource.toNat dt)

/-! ## Retirement and reports (R521, R525, R532) -/

/-- The retirement map gains a resource (R521). -/
def State.retireRes (r : Nat) (s : State) : State :=
  if s.rel.retired.contains r then s else { s with rel := { s.rel with retired := s.rel.retired ++ [r] } }

/-- The transport sequencer that carries the work of pipeline `n`: its own; while that is retired the one at n XOR 1, else the lowest in
service on its half; none where all are retired (R18, R524). -/
def State.seqOf (s : State) (n : Nat) : Option Nat :=
  let h := n / 8
  (n :: Nat.xor n 1 :: (List.range 8).map (fun i => 8 * h + i)).find? (fun q => !s.isRetired 8 q)

/-- EV_RESOURCE_RETIRED (R545). -/
def State.postRetired (r : Nat) (s : State) : State := s.postInfra 0x0724 r (toLe 1 (s.inService r))

/-- A resource with no spare stays in service and is reported DEGRADED (R525). DEDUCED (log 108). -/
def State.degrade (r reason : Nat) (s : State) : State :=
  let s := { s with rel := { s.rel with degraded := if s.rel.degraded.contains r then s.rel.degraded else s.rel.degraded ++ [r] } }
  (s.postInfra 0x0724 r [0xFF]).ledgerAdd 0x0107 r (toLe 1 reason)

/-- A drop for an integrity failure on a half, found by the check in row `row` of R528 (R532). -/
def State.integrityDrop (h row : Nat) (s : State) : State :=
  let s := s.bump 3 h 9225
  let s := s.postInfra 0x0725 h (toLe 4 (s.stat 3 h 9225 % 4294967296))
  let last := if h = 0 then s.rel.integW else s.rel.integE
  let first := match last with
    | none => true
    | some t => decide (t + 3600000000000 ≤ s.clock.now)
  let s := { s with
    rel := if h = 0 then { s.rel with integW := some s.clock.now } else { s.rel with integE := some s.clock.now } }
  if first then s.ledgerAdd 0x0106 h (toLe 1 row) else s

/-! ## SRAM rows and HBM pseudo-channels (R519, R522, R523) -/

/-- The lowest-numbered free spare row of the bank of a row, by half × 2^22 + bank × 16 + spare; none where all 16 are in use. -/
def State.freeSpare (s : State) (row : Nat) : Option Nat :=
  ((List.range 16).map (fun i => row / 16 * 16 + i)).find? (fun x => !s.rel.spared.contains x)

/-- A row whose bucket reaches its threshold is spared; without a spare in its bank it stays and is reported DEGRADED (R523). DESIGN CHOICE
(log 106). -/
def State.spareRow (r : Nat) (s : State) : State :=
  match s.freeSpare (resIdx r) with
  | some x => { s with rel := { s.rel with spared := s.rel.spared ++ [x] } }
  | none => s.degrade r 2
/-- A pseudo-channel whose bucket reaches its threshold is retired and migrates; with six retired on its half it stays and is reported
DEGRADED (R522). DESIGN CHOICE (log 106). -/
def State.retireHbm (r : Nat) (s : State) : State :=
  if 6 ≤ s.hbmRetired (resHalf r) then s.degrade r 2
  else
    let s := s.retireRes r
    let s := { s with rel := { s.rel with moving := s.rel.moving ++ [r] } }
    s.postRetired r

/-- An error of an SRAM row or an HBM pseudo-channel is counted and charged with its weight; one in a pseudo-channel already retired is its
migration's (R519, R522, R523, R547). DESIGN CHOICE (log 106). -/
def State.memFault (r : Nat) (uncorrectable : Bool) (s : State) : State :=
  let hbm := resKind r == 4
  let s := s.bump 3 (resHalf r) ((if hbm then 9222 else 9219) + b2n uncorrectable)
  if s.rel.retired.contains r then s
  else
    let c := s.charge r (if uncorrectable then (if hbm then 16 else 8) else 1)
    if !c.2 then c.1 else if hbm then c.1.retireHbm r else c.1.spareRow r

/-- Memory errors that a block's reads meet are counted and charged (R518, R528). -/
def State.memErrs (es : List MemErr) (s : State) : State := s.each (fun e => State.memFault e.resource.toNat e.uncorrectable) es

/-- The check that a packet fails, with the errors left to charge: an uncorrectable one drops a packet that fails no other check (R528). -/
def memCheck (m : MemEnv) (c : PktCheck) : PktCheck × List MemErr :=
  match c, m.errs.find? (·.uncorrectable) with
  | .ok, some e => (.buffer e.resource, m.errs.erase e)
  | c, _ => (c, m.errs)

/-- Bits of a pipeline's TCAM entries flip (R531). DEDUCED (log 110). -/
def State.flipTcam (n : Nat) (fs : List TcamFlip) (s : State) : State :=
  { s with net := { s.net with flips := s.net.flips ++ fs.map (fun f => (n, f)) } }

/-- The memories a pipeline's block reads have met what an event brings: the check its packet fails, and the state (R528, R531). -/
def State.memEnv (n : Nat) (m : MemEnv) (c : PktCheck) (s : State) : PktCheck × State :=
  let x := memCheck m c
  (x.1, (s.memErrs x.2).flipTcam n m.flips)

/-- A fault charged to a resource that the device does not retire: a permanent verdict reports it (R519, R525). -/
def State.chargeDegrade (r weight : Nat) (s : State) : State :=
  let c := s.charge r weight
  if c.2 then c.1.degrade r 1 else c.1

/-! ## Die-to-die links (R20, R21, R36) -/

def State.modD2d (i : Nat) (f : D2d → D2d) (s : State) : State := { s with rel := { s.rel with d2d := s.rel.d2d.upd i {} f } }

end Sys2Proof.Machine
end

