-- ==== Sys2Proof/Machine/Frames.lean ====
section
/-! DEFINITION. What the device does to the bytes of a frame: checksums (R151, R204, R205), segmentation (R151),
removal of tunnel headers (R240), the route rewrite (R255) and padding. -/

namespace Sys2Proof.Machine

open Sys2Proof

/-! ## Internet checksums -/

/-- The checksum field that makes a one's complement sum come out right. -/
def csumOf (n : Nat) : Nat := 65535 - fold16 n

/-- The IPv4 header at `o` with its checksum filled in. -/
def fillIpv4 (o : Nat) (f : Bytes) : Bytes :=
  let hl := be f o 1 % 16 * 4
  let z := putBytes f (o + 10) [0, 0]
  putBytes z (o + 10) (toBe 2 (csumOf (sum16 (slice z o hl))))

/-- Where the IP payload of the header at `o` ends (both versions), by the header's own lengths. -/
def ipEndOf (v6 : Bool) (o : Nat) (f : Bytes) : Nat := if v6 then o + 40 + be f (o + 4) 2 else o + be f (o + 2) 2

/-- The sum of the pseudo header and of the L4 bytes at `l4`, for protocol `proto`: a UDP datagram's by its own length field. PRESUMED (log
113). -/
def l4Sum (v6 : Bool) (l3 l4 proto : Nat) (f : Bytes) : Nat :=
  let n := if proto = 17 then be f (l4 + 4) 2 else ipEndOf v6 l3 f - l4
  let addrs := if v6 then slice f (l3 + 8) 32 else slice f (l3 + 12) 8
  sum16 addrs + proto + n % 65536 + n / 65536 + sum16 (slice f l4 n)

/-- The frame with the L4 checksum at `l4` filled in; the field lies at byte 16 of TCP and byte 6 of UDP. -/
def fillL4 (v6 : Bool) (l3 l4 : Nat) (tcp : Bool) (f : Bytes) : Bytes :=
  let at_ := l4 + if tcp then 16 else 6
  let z := putBytes f at_ [0, 0]
  let v := csumOf (l4Sum v6 l3 l4 (if tcp then 6 else 17) z)
  putBytes z at_ (toBe 2 (if !tcp && v == 0 then 65535 else v))

/-- The checksums a TX asked for, filled in from the parser's result (R151). -/
def fillAsked (a : TxAsk) (h : Hv) (f : Bytes) : Bytes :=
  let v4 := hvHas h (if a.inner then 12 else 3)
  let v6 := hvHas h (if a.inner then 13 else 4)
  let tcp := hvHas h (if a.inner then 14 else 5)
  let udp := hvHas h (if a.inner then 15 else 6)
  let l3 := le h (if a.inner then 40 else 32) 2
  let l4 := le h (if a.inner then 42 else 34) 2
  let frag := !a.inner && bit (le h 2 1) 0
  let f := if a.csumL4 && (tcp || udp) && !frag then fillL4 v6 l3 l4 tcp f else f
  if a.csumL3 && v4 then fillIpv4 l3 f else f

/-- The L4 check of a network arrival: whether it was made, and whether the checksum is right (R205). `innerFrag`: its inner IP header is a
fragment. -/
def checkL4 (innerFrag : Bool) (h : Hv) (f : Bytes) : Bool × Bool :=
  let inner := hvHas h 14 || hvHas h 15
  let tcp := hvHas h (if inner then 14 else 5)
  let udp := hvHas h (if inner then 15 else 6)
  let v6 := hvHas h (if inner then 13 else 4)
  let l3 := le h (if inner then 40 else 32) 2
  let l4 := le h (if inner then 42 else 34) 2
  if innerFrag || bit (le h 2 1) 0 || !(tcp || udp) then (false, false)
  else if !tcp && be f (l4 + 6) 2 == 0 then (false, false)
  else (true, fold16 (l4Sum v6 l3 l4 (if tcp then 6 else 17) f) == 65535)

/-- A frame's vector after a new parse that keeps SOURCE, PASS, LP, PIPELINE and SRC_FID; `outer` and `inner` name an IPv4 checksum that the host
has asked to fill and that is not filled yet (R204, R354, R407). -/
def reparse (outer inner : Bool) (h : Hv) (f : Bytes) : Hv × ParseEnd :=
  parseFrame f (le h 3 1 % 4) (le h 3 1 / 4 % 4) (le h 4 1) (le h 5 1) (le h 6 2) outer inner

/-! ## Egress rewrites -/

/-- The end of the tunnel header of a header vector. -/
def tunEnd (h : Hv) : Nat := le h 36 2 + 8 + if hvHas h 10 then le h 46 1 else 0

/-- DECAP (R240). DEDUCED (log 42). -/
def decapFrame (h : Hv) (f : Bytes) : Bytes :=
  if !(hvHas h 9 || hvHas h 10) then f
  else if hvHas h 10 && (le h 62 2 == 0x0800 || le h 62 2 == 0x86DD) then
    f.take (le h 32 2 - 2) ++ toBe 2 (le h 62 2) ++ f.drop (tunEnd h)
  else f.drop (tunEnd h)

/-- The rewrite of a route hit: MAC addresses, TTL or hop limit, and the IPv4 checksum (R255). DEDUCED (log 42). -/
def routeFrame (h : Hv) (mac f : Bytes) : Bytes :=
  let l3 := le h 32 2
  let f := mac ++ slice f 0 6 ++ f.drop 12
  if hvHas h 3 then fillIpv4 l3 (putBytes f (l3 + 8) (toBe 1 (be f (l3 + 8) 1 - 1)))
  else putBytes f (l3 + 7) (toBe 1 (be f (l3 + 7) 1 - 1))

/-- The frame as it leaves for a port or a function: the checksums its TX asked for, the route rewrite, then DECAP. -/
def Pkt.edited (p : Pkt) : Bytes :=
  let f0 := fillAsked p.ask p.hv p.frame
  let f := match p.hop with
    | none => f0
    | some m => routeFrame p.hv m f0
  if p.decap then decapFrame p.hv f else f

/-- Zeros up to 60 bytes (R151, R240). -/
def padTo60 (f : Bytes) : Bytes := f ++ List.replicate (60 - f.length) 0

/-- The FCS of a frame: the CRC-32 of IEEE 802.3, in the order it is sent. PRESUMED (log 45). -/
def fcsOf (f : Bytes) : Bytes := toLe 4 (crcOf 32 0xEDB88320 0 f)

/-- Buffer cells of a frame (R258). -/
def cellsOf (n : Nat) : Nat := (n + 127) / 128

/-! ## Segmentation (R151) -/

/-- Where the headers of an LSO packet lie: IP headers (offset, version 6), tunnel UDP headers with their IP header, and TCP. -/
structure LsoLoc where
  ips  : List (Nat × Bool) := []
  udps : List (Nat × Nat × Bool) := []
  tcp  : Option (Nat × Nat × Bool) := none
  deriving DecidableEq, Repr

/-- Past up to two tags: the EtherType and the offset after it. -/
def lsoL2 (f : Bytes) (o : Nat) : Nat × Nat :=
  let t1 := be f (o + 12) 2
  if !isTpid t1 then (t1, o + 14)
  else
    let t2 := be f (o + 16) 2
    if !isTpid t2 then (t2, o + 18) else (be f (o + 20) 2, o + 22)

/-- Past up to two IPv6 extension headers. -/
def lsoExt (f : Bytes) : Nat → Nat → Nat → Nat × Nat
  | 0, nh, o => (nh, o)
  | n + 1, nh, o => if nh = 0 ∨ nh = 43 ∨ nh = 60 then lsoExt f n (be f o 1) (o + (be f (o + 1) 1 + 1) * 8) else (nh, o)

/-- The header locations of an IP packet at `o`, `depth` tunnels allowed. -/
def lsoL3 (f : Bytes) : Nat → Nat → Nat → LsoLoc → LsoLoc
  | depth, et, o, loc =>
    let v6 := et == 0x86DD
    if et ≠ 0x0800 ∧ et ≠ 0x86DD then loc
    else
      let p := if v6 then lsoExt f 2 (be f (o + 6) 1) (o + 40) else (be f (o + 9) 1, o + be f o 1 % 16 * 4)
      let loc := { loc with ips := loc.ips ++ [(o, v6)] }
      if p.1 = 6 then { loc with tcp := some (p.2, o, v6) }
      else if p.1 = 17 then
        match depth with
        | 0 => loc
        | d + 1 =>
          let dp := be f (p.2 + 2) 2
          let loc := { loc with udps := loc.udps ++ [(p.2, o, v6)] }
          if dp = 4789 then
            let e := lsoL2 f (p.2 + 16)
            lsoL3 f d e.1 e.2 loc
          else if dp = 6081 then
            let t := p.2 + 16 + be f (p.2 + 8) 1 % 64 * 4
            let pt := be f (p.2 + 10) 2
            if pt = 0x6558 then
              let e := lsoL2 f t
              lsoL3 f d e.1 e.2 loc
            else lsoL3 f d pt t loc
          else loc
      else loc

/-- The header locations of an LSO packet. PRESUMED (log 44). -/
def lsoLocate (f : Bytes) : LsoLoc :=
  let e := lsoL2 f 0
  lsoL3 f 1 e.1 e.2 {}

/-- IP lengths and identifiers of segment `i`, a frame of its final length. -/
def lsoIps (i : Nat) : List (Nat × Bool) → Bytes → Bytes
  | [], f => f
  | (o, v6) :: t, f =>
    let f := if v6 then putBytes f (o + 4) (toBe 2 (f.length - o - 40))
      else putBytes (putBytes f (o + 2) (toBe 2 (f.length - o))) (o + 4) (toBe 2 (be f (o + 4) 2 + i))
    lsoIps i t f

/-- Lengths of tunnel UDP headers. -/
def lsoUdps : List (Nat × Nat × Bool) → Bytes → Bytes
  | [], f => f
  | (o, _, _) :: t, f => lsoUdps t (putBytes f (o + 4) (toBe 2 (f.length - o)))

/-- Checksums of IPv4 headers, and of tunnel UDP headers that carry one, innermost first. -/
def lsoSums (loc : LsoLoc) (f : Bytes) : Bytes :=
  let f := match loc.tcp with
    | none => f
    | some (t, o, v6) => fillL4 v6 o t true f
  let f := loc.ips.foldl (fun f e => if e.2 then f else fillIpv4 e.1 f) f
  loc.udps.foldl (fun f e => if be f (e.1 + 6) 2 = 0 then f else fillL4 e.2.2 e.2.1 e.1 false f) f

/-- One segment: headers, its part of the payload, TCP sequence and flags; FIN and PSH stay on the last, CWR on the first. PRESUMED (log
44). -/
def lsoSegment (loc : LsoLoc) (tcp : Nat) (hdr : Bytes) (mss i : Nat) (last : Bool) (part : Bytes) : Bytes :=
  let f := hdr ++ part
  let fl := be f (tcp + 13) 1
  let fl := if last then fl else fl - fl % 2 - (if bit fl 3 then 8 else 0)
  let fl := if i = 0 then fl else fl % 128
  let f := putBytes (putBytes f (tcp + 4) (toBe 4 (be f (tcp + 4) 4 + i * mss))) (tcp + 13) (toBe 1 fl)
  lsoSums loc (lsoUdps loc.udps (lsoIps i loc.ips f))

/-- The payload cut into MSS-sized parts, in order. -/
def lsoParts (mss : Nat) : Nat → Bytes → List Bytes
  | 0, _ => []
  | n + 1, bs => bs.take mss :: lsoParts mss n (bs.drop mss)

/-- The segments with their numbers. -/
def lsoBuild (loc : LsoLoc) (tcp : Nat) (hdr : Bytes) (mss : Nat) : Nat → List Bytes → List Bytes
  | _, [] => []
  | i, p :: ps => lsoSegment loc tcp hdr mss i ps.isEmpty p :: lsoBuild loc tcp hdr mss (i + 1) ps

/-- The frames of an LSO descriptor (R151); data in which no TCP header is found goes out as one frame. PRESUMED (log 44). -/
def lsoFrames (mss : Nat) (data : Bytes) : List Bytes :=
  let loc := lsoLocate data
  match loc.tcp with
  | none => [data]
  | some (t, _, _) =>
    let hl := t + be data (t + 12) 1 / 16 * 4
    let n := (data.length - hl + mss - 1) / mss
    lsoBuild loc t (data.take hl) mss 0 (lsoParts mss (max n 1) (data.drop hl))

end Sys2Proof.Machine
end

