-- ==== Sys2Proof/Machine/Operands.lean ====
section
/-! DEFINITION. The operand forms of the block: descriptors and fragment tables (R148 to R153, R291, R360), completions (R154),
the mailbox request and response headers (R71, R72), and the field checks that commands share. -/

namespace Sys2Proof.Machine

open Sys2Proof

/-! ## Descriptors (R148) -/

def dOpcode (d : Bytes) : Nat := le d 0 1
def dIndirect (d : Bytes) : Bool := bit (le d 1 1) 0
def dFragCount (d : Bytes) : Nat := le d 2 2 % 512
def dLength (d : Bytes) : Nat := le d 4 4
def dAddr (d : Bytes) : Nat := le d 8 8
def dUser (d : Bytes) : Nat := le d 48 8

/-- The fields of the common layout that every descriptor is held to: reserved bits, and FRAG_COUNT against INDIRECT (R149). DEDUCED (log
36). -/
def descCommonOk (d : Bytes) : Bool :=
  le d 1 1 / 2 == 0 && le d 2 2 / 512 == 0 && le d 56 8 == 0 &&
  if dIndirect d then decide (1 ≤ dFragCount d) && decide (dFragCount d ≤ 256) else dFragCount d == 0

/-- CRC of a TX: 0 none, 1 CRC-32C, 2 CRC-64 (R151). -/
def txCrc (d : Bytes) : Nat := bits (le d 16 1) 5 2
def txLso (d : Bytes) : Bool := bit (le d 16 1) 4

/-- R151. -/
def txOk (d : Bytes) : Bool :=
  let f := le d 16 1
  let mss := le d 18 2
  !bit f 7 && le d 17 1 == 0 && allZero (slice d 32 16) &&
  (if txLso d then decide (256 ≤ mss) && decide (mss ≤ 9216) else mss == 0) &&
  (if txLso d then decide (dLength d ≤ 262144) else decide (14 ≤ dLength d) && decide (dLength d ≤ 9596)) &&
  txCrc d != 3 && (txCrc d == 0 || dIndirect d) && (txCrc d != 1 || le d 28 4 == 0)

/-- R152. -/
def rxPostOk (d : Bytes) : Bool :=
  !dIndirect d && decide (256 ≤ dLength d) && decide (dLength d ≤ 65536) && le d 16 1 / 2 == 0 && allZero (slice d 17 31)

/-- R153. DEDUCED (log 36). -/
def nopOk (d : Bytes) : Bool := !dIndirect d && dLength d == 0 && dAddr d == 0

/-- R291, R292. -/
def lrdOk (d : Bytes) : Bool :=
  let op := dOpcode d
  let node := le d 16 4
  let life := le d 40 2
  node != 0 && node != 0xFFFFFFFF && le d 20 4 / 2 ^ 28 == 0 && allZero (slice d 42 6) &&
  (op == 0x12 || le d 36 4 == 0) && (life == 0 || (decide (100 ≤ life) && decide (life ≤ 1500))) &&
  decide (dLength d ≤ 16777216) && (op == 0x12 || decide (1 ≤ dLength d))

/-- TAG_ADDR of an ENCRYPT or DECRYPT (R361). -/
def dTagAddr (d : Bytes) : Nat := le d 32 8

/-- R360, R361. -/
def cipherOk (d : Bytes) : Bool :=
  let enc := dOpcode d == 0x20
  let aad := le d 20 3
  let t := dLength d - aad
  decide (aad ≤ 65536) && decide (aad ≤ dLength d) && le d 23 1 / 2 == 0 && (!enc || le d 23 1 == 0) &&
  decide (dLength d ≤ 16842752) && decide (t ≤ 16777216) && (t != 0 || le d 24 8 == 0) && (!enc || le d 40 8 == 0) &&
  (dLength d != 0 || (dAddr d == 0 && !dIndirect d))

/-- The checks of R149: what a descriptor must satisfy on an SQ of a use. DEDUCED (log 36). -/
def descOk (u : SqUse) (d : Bytes) : Bool :=
  descCommonOk d &&
  match dOpcode d with
  | 0x0F => nopOk d
  | 0x01 => u == .packet && txOk d
  | 0x02 => u == .packet && rxPostOk d
  | 0x10 | 0x11 | 0x12 => u == .lrd && lrdOk d
  | 0x20 | 0x21 => u == .cipher && cipherOk d
  | _ => false

/-- Entry `i` of a fragment table: address, length, CRC_SKIP, CRC_PLACE (R150). -/
def fragAt (t : Bytes) (i : Nat) : BitVec 64 × Nat × Bool × Bool :=
  (BitVec.ofNat 64 (le t (16 * i) 8), le t (16 * i + 8) 3, bit (le t (16 * i + 11) 1) 0, bit (le t (16 * i + 11) 1) 1)

/-- The entries of a descriptor's fragment table; one entry where ADDR is the data itself. -/
def fragsOf (d t : Bytes) : List (BitVec 64 × Nat × Bool × Bool) :=
  if dIndirect d then (List.range (dFragCount d)).map (fragAt t)
  else [(BitVec.ofNat 64 (dAddr d), dLength d, false, false)]

/-- The checks of R150 on a fragment table. -/
def fragsOk (d t : Bytes) : Bool :=
  if !dIndirect d then true
  else
    let fs := fragsOf d t
    let places := fs.filter (fun f => f.2.2.2)
    let crc := if dOpcode d = 1 then txCrc d else 0
    fs.all (fun f => f.2.1 != 0) &&
    (List.range (dFragCount d)).all (fun i => le t (16 * i + 11) 1 / 4 == 0 && le t (16 * i + 12) 4 == 0) &&
    (fs.foldl (fun a f => a + f.2.1) 0 == dLength d) && decide (places.length ≤ 1) &&
    places.all (fun f => !f.2.2.1 && f.2.1 == (if crc = 1 then 4 else 8)) &&
    (if crc = 0 then places.isEmpty else !places.isEmpty) &&
    (dOpcode d == 1 || fs.all (fun f => !f.2.2.1))

/-- The bytes the inline CRC covers and the place it goes, walking the fragments (R573): covered bytes, and offset of CRC_PLACE. -/
def crcWalk : List (BitVec 64 × Nat × Bool × Bool) → Nat → Bytes → Bytes × Option Nat
  | [], _, _ => ([], none)
  | (_, n, skip, place) :: fs, off, data =>
    let r := crcWalk fs (off + n) data
    if place then (r.1, some off) else if skip then r else (slice data off n ++ r.1, r.2)

/-- The data of a TX with its inline CRC in place (R573). -/
def txData (d : FDesc) (data : Bytes) : Bytes :=
  let w := crcWalk d.frags 0 data
  match txCrc d.bytes, w.2 with
  | 1, some o => putBytes data o (toLe 4 (crc32c (le d.bytes 24 4) w.1))
  | 2, some o => putBytes data o (toLe 8 (crc64 (le d.bytes 24 8) w.1))
  | _, _ => data

/-! ## Completions (R154, R157) -/

/-- A completion with PHASE 0. -/
def cplBytes (user bytes status flags bufs opcode sqword aux0 aux1 : Nat) : Bytes :=
  toLe 8 user ++ toLe 4 bytes ++ toLe 1 status ++ toLe 1 flags ++ toLe 1 bufs ++ toLe 1 opcode ++ toLe 4 sqword ++
  toLe 4 aux0 ++ toLe 8 aux1

/-- The completion of a descriptor that moves no receive data: AUX0 is the descriptor's index, which R154 gives for TX and NOP and this model
also for the error completion of every other opcode, whose BYTES is 0. DESIGN CHOICE (log 116). -/
def descCpl (sq : Nat) (d : FDesc) (status : Nat) : Bytes :=
  cplBytes (dUser d.bytes) (if status = 0 then dLength d.bytes else 0) status 0 0 (dOpcode d.bytes) sq d.index.toNat 0

/-! ## Mailbox headers (R71, R72) -/

def Req.opcode (r : Req) : Nat := le r.header 0 2
def Req.len (r : Req) : Nat := le r.header 2 2
def Req.version (r : Req) : Nat := le r.header 4 1
def Req.eqValid (r : Req) : Bool := bit (le r.header 5 1) 0
def Req.autoRel (r : Req) : Bool := bit (le r.header 5 1) 1
def Req.ticketEq (r : Req) : Nat := le r.header 6 2 % 16384
def Req.cookie (r : Req) : BitVec 64 := BitVec.ofNat 64 (le r.header 8 8)
/-- A reserved field of the header that is not zero. -/
def Req.reservedBad (r : Req) : Bool :=
  le r.header 5 1 / 4 != 0 || le r.header 6 2 / 16384 != 0 || !allZero (slice r.header 16 16)

/-! ## Statuses (R74) -/

def stOk := 0x0000
def stPending := 0x0001
def stSplitPartial := 0x0002
def stBadVersion := 0x0100
def stBadOpcode := 0x0101
def stBadLength := 0x0102
def stBadField := 0x0103
def stDenied := 0x0200
def stNotOwner := 0x0201
def stNotFound := 0x0202
def stExists := 0x0203
def stBadState := 0x0204
def stStaleGen := 0x0205
def stBusy := 0x0206
def stQuota := 0x0300
def stNoResource := 0x0301
def stTableFull := 0x0302
def stTicketsFull := 0x0303
def stSplitMode := 0x0400
def stCpUnavailable := 0x0401
def stCpRestart := 0x0402
def stAborted := 0x0403
def stUpdateState := 0x0500
def stBadOffset := 0x0501
def stOwnerLock := 0x0502
def stHoldup := 0x0503
def stThermal := 0x0504
def stServiceHold := 0x0505
def stLifeCycle := 0x0506
def stInternal := 0x0600

/-- The first check that fails: each is (it fails, status, DETAIL) (R73). -/
def firstFail : List (Bool × Nat × Nat) → Option (Nat × Nat)
  | [] => none
  | (b, st, d) :: t => if b then some (st, d) else firstFail t

/-- A field check: ST_BAD_FIELD at a payload offset. -/
def bad (b : Bool) (off : Nat) : Bool × Nat × Nat := (b, stBadField, off)

/-- Reserved bytes from `off`, `n` of them: ST_BAD_FIELD at the first that is not zero. -/
def reserved (p : Bytes) (off : Nat) : Nat → List (Bool × Nat × Nat)
  | 0 => []
  | n + 1 => bad (le p off 1 != 0) off :: reserved p (off + 1) n

end Sys2Proof.Machine
end

