-- ==== Sys2Proof/Machine/Mailbox.lean ====
section
/-! DEFINITION. The mailbox protocol: doorbell, checks, responses and tickets (R65 to R82, R572), and what happens to commands when
the control processor fails (R70, R460). -/

namespace Sys2Proof.Machine

open Sys2Proof

/-! ## Responses -/

/-- The response header and payload (R72). -/
def respBytes (r : Req) (status detail ticket elapsed : Nat) (payload : Bytes) : Bytes :=
  toLe 2 r.opcode ++ toLe 2 payload.length ++ toLe 2 status ++ toLe 2 detail ++ toLe 8 r.cookie.toNat ++ toLe 4 ticket ++
  toLe 4 (min elapsed 0xFFFFFFFF) ++ List.replicate 8 0 ++ payload

/-- Writes a response, advances RESP_SEQ and clears OWNER, then sends the mailbox vector if enabled and valid (R68). -/
def State.respond (fid : Nat) (r : Req) (status detail ticket : Nat) (payload : Bytes) (s : State) : State :=
  let b := respBytes r status detail ticket ((s.clock.now - r.acceptedAt) / 1000) payload
  let s := s.modFn fid (fun f => { f with area := Mem.write 0 f.area 0 b, respSeq := f.respSeq + 1, owner := false, req := none })
  if (s.fn fid).irqEn then s.sendMsi fid (s.fn fid).vector.toNat else s

/-! ## Who serves a mailbox (R37, R70) -/

/-- The mailbox of an east function is served by the shadow pair in split mode, every other by the control processor. -/
def State.onShadow (s : State) (fid : Nat) : Bool := s.rel.split && halfOfFid fid == 1
def State.cpOf (s : State) (fid : Nat) : Cp := if s.onShadow fid then s.cpE else s.cpW
/-- The control processor of west (0), or the shadow pair of east (1). -/
def State.cpHalf (s : State) (h : Nat) : Cp := if h = 0 then s.cpW else s.cpE
def State.modCp (h : Nat) (f : Cp → Cp) (s : State) : State :=
  if h = 0 then { s with cpW := f s.cpW } else { s with cpE := f s.cpE }

/-! ## The doorbell (R66) -/

/-- The opcodes of R83. DEDUCED (log 14). -/
def knownOpcodes : List Nat :=
  [0x0001, 0x0002, 0x0003, 0x0004, 0x0005, 0x0006, 0x0007, 0x0101, 0x0102, 0x0103, 0x0104, 0x0105, 0x0106, 0x0201, 0x0202, 0x0203,
   0x0204, 0x0205, 0x0301, 0x0302, 0x0303, 0x0304, 0x0305, 0x0306, 0x0307, 0x0308, 0x0401, 0x0402, 0x0403, 0x0404, 0x0405, 0x0406] ++
  [0x0407, 0x0501, 0x0502, 0x0503, 0x0504, 0x0505, 0x0601, 0x0602, 0x0603, 0x0604, 0x0701, 0x0702, 0x0703, 0x0704, 0x0705, 0x0706,
   0x0801, 0x0802, 0x0803, 0x0804, 0x0805, 0x0806]

/-- The request as copied at acceptance: the header and PAYLOAD_LEN bytes of payload (R66). -/
def copyReq (f : Fn) (now order : Nat) (refused : Bool) : Req :=
  let h := Mem.read 0 f.area 0 32
  { header := h, payload := Mem.read 0 f.area 32 (min (le h 2 2) 4064), acceptedAt := now, order := order, refused := refused }

/-- Header checks that precede the look at the opcode's own row (R73 steps 1 and 2). -/
def State.headerCheck (s : State) (fid : Nat) (r : Req) : Option (Nat × Nat) :=
  firstFail [(r.refused || (s.cpOf fid).unavailable, stCpUnavailable, 0), (r.version != 1, stBadVersion, 0), bad r.reservedBad 0xFFFF]

/-- The mailbox of an east function is held on east from the loss of the last link to the decision (R533). DEDUCED (log 91). -/
def State.mailboxHeld (s : State) (fid : Nat) : Bool := ((s.rel.cut && !s.rel.split) || s.rel.rejoin.isSome) && halfOfFid fid == 1

/-- The answer to a request with an opcode that R83 does not list: at once, unless the hardware answers it (R70), its mailbox is held (R533)
or its control processor is halted (R469). DEDUCED (log 14). -/
def State.answerUnknown (fid : Nat) (s : State) : State :=
  match (s.fn fid).req with
  | none => s
  | some r =>
    if knownOpcodes.contains r.opcode || r.refused || s.mailboxHeld fid || (s.cpOf fid).halted then s
    else
      match s.headerCheck fid r with
      | some (st, d) => s.respond fid r st d 0 []
      | none => s.respond fid r stBadOpcode 0 0 []

/-- Held mailboxes are no longer held: requests that no command row will answer are answered (R533). -/
def State.answerHeld (s : State) : State := s.each State.answerUnknown (s.fns.keysWhere (fun _ f => f.req.isSome))

/-- MBX_DOORBELL (R66): ignored unless ACTIVE; while the device owns the area it only sets DB_WHILE_OWNED; otherwise the request is copied
and OWNER set, in the order of acceptance (R78). DEDUCED (log 14). -/
def State.mbxDoorbell (fid : Nat) (s : State) : State :=
  let f := s.fn fid
  if f.state != .active then s
  else if f.owner then s.modFn fid (fun f => { f with dbOwned := true })
  else
    let r := copyReq f s.clock.now s.hif.accepted (s.cpOf fid).unavailable
    (({ s with hif := { s.hif with accepted := s.hif.accepted + 1 } }).modFn fid (fun f => { f with owner := true, req := some r })).answerUnknown fid

/-- MBX_DOORBELL (R66). -/
def execMbxDoorbell (fid : Fid) (s : State) : Outcome := done (s.mbxDoorbell fid)

/-- CP_UNAVAILABLE_ANSWER (R70): the hardware answers a doorbell accepted while CP_UNAVAILABLE is 1. -/
def execCpUnavailableAnswer (fid : Fid) (s : State) : Outcome :=
  match (s.fn fid).req with
  | none => done s
  | some r => if r.refused then done (s.respond fid r stCpUnavailable 0 0 []) else done s

/-! ## The control processor fails (R70) -/

/-- The mailboxes a control processor serves and whose requests the device still owns. -/
def State.ownedMailboxes (s : State) (h : Nat) : List Nat := s.fns.keysWhere (fun fid f => f.req.isSome && b2n (s.onShadow fid) == h)

/-- The hardware answers a mailbox the device owns; the request has not passed its commit point (R70). -/
def State.answerReq (st fid : Nat) (s : State) : State :=
  match (s.fn fid).req with
  | none => s
  | some r => s.respond fid r st 0 0 []

/-- The control processor of a half has failed: it is unavailable, and the hardware answers every mailbox it served that the device owns (R70). -/
def State.cpFail (h : Nat) (s : State) : State :=
  let fids := s.ownedMailboxes h
  (s.modCp h (fun c => { c with unavailable := true, running := false, answered := fids.length })).each (State.answerReq stCpRestart) fids

/-! ## Tickets (R75 to R77) -/

/-- The objects of R79 that ticketed work names. -/
inductive Obj where
  | function (fid : Nat)
  | ring (key : Nat)
  | ep (n : Nat)
  | port (np : Nat)
  deriving DecidableEq, Repr

/-- The object a ticket's work acts on (R79); a power cap is none. DEDUCED (log 49). -/
def Work.obj : Work → Option Obj
  | .fnCreate t _ _ => some (.function t)
  | .fnDestroy t => some (.function t)
  | .ringDestroy k => some (.ring k)
  | .epDestroy e => some (.ep e)
  | .portConfig np _ _ _ => some (.port np)
  | .powerCap => none

/-- A ticketed command is pending on an object (R79). DEDUCED (log 49). -/
def State.objBusy (s : State) (o : Obj) : Bool := s.tickets.anyV (fun _ t => !t.done && t.work.obj == some o)

/-- Tickets a function holds, pending or done and not released (R76). -/
def State.ticketsOf (s : State) (fid : Nat) : Nat := s.tickets.countV (fun _ t => t.fid == fid)

/-- Gives the function its next ticket for work and answers ST_PENDING (R75, R76). DESIGN CHOICE (log 15). -/
def State.issueTicket (fid : Nat) (r : Req) (w : Work) (s : State) : State :=
  let f := s.fn fid
  let t := f.serial * 256 + f.gen.toNat
  let s := s.modFn fid (fun f => { f with serial := if f.serial = 0xFFFFFF then 1 else f.serial + 1 })
  let s := { s with
    tickets := Tab.set (ticketKey fid t)
      { fid := fid, opcode := r.opcode, cookie := r.cookie, eq := if r.eqValid then some r.ticketEq else none,
        autoRel := r.autoRel, work := w } s.tickets }
  s.respond fid r stPending 0 t []

/-- Ends ticketed work: the ticket is done and EV_CMD_DONE is posted if the request named an event queue (R77). -/
def State.finishTicket (key status detail : Nat) (result : Bytes) (s : State) : State :=
  match Tab.find key s.tickets with
  | none => s
  | some t =>
    if t.done then s
    else
      let s := { s with
        tickets := Tab.set key { t with done := true, status := status, detail := detail, result := result } s.tickets }
      match t.eq with
      | none => s
      | some n =>
        s.postHeld t.fid (.eq n) 0x0104 (key % 4294967296)
          (toLe 2 t.opcode ++ toLe 2 status ++ toLe 2 detail ++ [0, 0] ++ toLe 8 t.cookie.toNat)

/-- The pending tickets whose work satisfies `p`, by key. -/
def State.pendingWork (s : State) (p : Work → Bool) : List Nat := s.tickets.keysWhere (fun _ t => !t.done && p t.work)

/-- Ends every pending ticket whose work satisfies `p`. -/
def State.finishWork (p : Work → Bool) (status detail : Nat) (result : Bytes) (s : State) : State :=
  s.each (fun k => State.finishTicket k status detail result) (s.pendingWork p)

/-! ## Running a command (R73, R81 to R83) -/

/-- A row of R83 with the payload length of its request. -/
structure CmdSpec where
  op     : Nat
  /-- 0 A, 1 B, 2 C. -/
  cls    : Nat := 0
  /-- 0 T, 1 H, 2 I. -/
  issuer : Nat := 0
  east   : Bool := true
  lenMin : Nat := 0
  lenMax : Nat := 0
  /-- The payload is 16 bytes and as many as its LEN says (R125). -/
  piece  : Bool := false
  deriving DecidableEq, Repr

/-- What a command's own rules answer: a refusal with no effect, a final status with its effect and payload, ticketed work, or a failure that
has left something behind. -/
inductive CmdRes where
  | fail (status detail : Nat) (payload : Bytes)
  | ok (s : State) (status : Nat) (payload : Bytes)
  | pend (s : State) (w : Work)
  | stop (s : State) (status detail : Nat)
  /-- ST_TABLE_FULL of a TABLE_INSERT, whose payload is still returned (R101). -/
  | full (s : State) (detail : Nat) (payload : Bytes)
  /-- The function left ACTIVE during the command, which has been answered by that (R80). -/
  | answered (s : State)
  /-- The command goes on: it has not reached its commit point (R78, R112). -/
  | wait

/-- The command is refused for its objects' half, a check that comes before ticket capacity (R73 steps 4 and 5). -/
def CmdRes.split : CmdRes → Bool
  | .fail st _ _ => st == stSplitMode
  | _ => false

/-- The issuer may act on objects of the target (R81). -/
def State.mayActOn (s : State) (issuer target : Nat) : Bool :=
  match (s.fn issuer).priv with
  | .infra => true
  | .host => s.linkOf issuer == s.linkOf target
  | .tenant => issuer == target

/-- The issuer acts on objects it owns, and INFRA on any function's (R81, code T). -/
def State.ownsOr (s : State) (issuer owner : Nat) : Bool := issuer == owner || (s.fn issuer).priv == .infra

/-- The event queue of the request is one the issuer owns (R572). -/
def State.ticketFieldsBad (s : State) (fid : Nat) (r : Req) : Bool :=
  (r.autoRel && !r.eqValid) ||
  (r.eqValid && match s.ring (eqKey r.ticketEq) with
    | none => true
    | some e => e.fid != fid)

/-- Steps 1 to 5 of R73 for a command, with its scope check at step 3. -/
def State.preCheck (s : State) (c : CmdSpec) (fid : Nat) (r : Req) (scope : Option (Nat × Nat)) : Option (Nat × Nat) :=
  match s.headerCheck fid r with
  | some e => some e
  | none =>
    match firstFail [
        (decide (r.len < c.lenMin) || decide (c.lenMax < r.len), stBadLength, if c.lenMin = c.lenMax then c.lenMin else 0xFFFF),
        (c.piece && r.len != 16 + le r.payload 4 2, stBadLength, 0xFFFF),
        bad (s.ticketFieldsBad fid r) 0xFFFF,
        (decide ((s.fn fid).priv.code < c.issuer), stDenied, 0xFFFF)] with
    | some e => some e
    | none =>
      match scope with
      | some e => some e
      | none =>
        firstFail [
          (s.onShadow fid && !c.east, stSplitMode, 0),
          (c.cls != 0 && (decide (16 ≤ s.ticketsOf fid) || decide (8192 ≤ s.tickets.length)), stTicketsFull, 0)]

/-- No request accepted before it waits for the same control processor, which runs: commands commit in the order of acceptance (R78, R469). -/
def State.inTurn (s : State) (fid : Nat) (r : Req) : Bool :=
  !(s.cpOf fid).halted && s.fns.all (fun e => match e.2.req with
    | none => true
    | some q => q.refused || s.onShadow e.1 != s.onShadow fid || s.mailboxHeld e.1 || decide (r.order ≤ q.order))

/-- Runs the request that waits for `fid` if it carries the command's opcode and its turn has come: the checks of R73, then the command's own
rules, then the response (R66, R68, R75, R78). DEDUCED (log 14). DESIGN CHOICE (log 15). -/
def State.runCmd (c : CmdSpec) (fid : Nat) (scope : State → Bytes → Option (Nat × Nat)) (body : State → Bytes → CmdRes)
    (s : State) : State :=
  match (s.fn fid).req with
  | none => s
  | some r =>
    if r.opcode != c.op || s.mailboxHeld fid || !s.inTurn fid r then s
    else
      match s.preCheck c fid r (scope s r.payload) with
      | some (st, d) => if st = stTicketsFull ∧ (body s r.payload).split then s.respond fid r stSplitMode 0 0 [] else s.respond fid r st d 0 []
      | none =>
        match body s r.payload with
        | .fail st d p => s.respond fid r st d 0 p
        | .ok s st p => s.respond fid r st 0 0 p
        | .pend s w => s.issueTicket fid r w
        | .stop s st d => s.respond fid r st d 0 []
        | .full s d p => s.respond fid r stTableFull d 0 p
        | .answered s => s
        | .wait => s

/-- No scope check beyond the privilege level. -/
def noScope : State → Bytes → Option (Nat × Nat) := fun _ _ => none

/-- The target function of a command, outside the issuer's scope: ST_NOT_OWNER (R81). -/
def State.scopeOn (issuer : Nat) (target : Nat) (s : State) : Option (Nat × Nat) :=
  if s.mayActOn issuer target then none else some (stNotOwner, 0)

/-- A command whose checks are `cs` and whose effect follows when none fails. -/
def checked (cs : List (Bool × Nat × Nat)) (k : Unit → CmdRes) : CmdRes :=
  match firstFail cs with
  | some (st, d) => .fail st d []
  | none => k ()

end Sys2Proof.Machine
end

