-- ==== Sys2Proof/Machine/Functions.lean ====
section
/-! DEFINITION. Function states and their transitions (R45, R50 to R55, R61 to R63, R80): entering and leaving ACTIVE, quarantine,
resets of functions and links, and the writes that start an abort. -/

namespace Sys2Proof.Machine

open Sys2Proof

/-! ## Entering ACTIVE (R45, R46, R52) -/

/-- The generation after one more entry into ACTIVE: after 255 comes 1 (R45). -/
def nextGen (g : Byte) : Byte := if g = 255 then 1 else g + 1

/-- The privilege level a function takes as it enters ACTIVE (R46). -/
def State.privOf (s : State) (fid : Nat) : Priv :=
  if s.isPf fid then (if bit s.hif.infra (s.linkOf fid) then .infra else .host) else .tenant

/-- The grant of a pending FN_CREATE of a function (R90). -/
def State.pendingGrant (s : State) (fid : Nat) : Option Grant :=
  (s.tickets.findSome? (fun e => match e.2.work with
    | .fnCreate t _ g => if t = fid ∧ e.2.done = false then some g else none
    | _ => none))

/-- Counters 64 to 191 of a function: its rule counters (R274). -/
def isRuleCounter (fid k : Nat) : Bool :=
  decide (statKey 0 fid 64 ≤ k) && decide (k ≤ statKey 0 fid 191)

/-- A function enters ACTIVE: the generation advances, ticket serials start at 1, DONE is cleared, its rule counters are cleared, and a
grant that FN_CREATE asked for is in force (R45, R46, R47, R52, R76, R274). -/
def State.enterActive (fid : Nat) (s : State) : State :=
  let g := s.pendingGrant fid
  let p := s.privOf fid
  let s := s.modFn fid (fun f => { f with
    state := .active, gen := nextGen f.gen, priv := p, serial := 1, abDone := false, abInProgress := false, goal := .none
    grant := match g with
      | some g => some g
      | none => f.grant })
  let s := s.modRes fid (fun _ => {})
  { s with stats := s.stats.filter (fun e => !isRuleCounter fid e.1) }

/-- A VF reaches DISABLED or IDLE: its grant is released (R52). -/
def State.settleFn (fid : Nat) (st : FnState) (s : State) : State :=
  s.modFn fid (fun f => { f with state := st, goal := .none, grant := if st = .aborted then f.grant else none })

/-- The quarantine time of R52, in ns. -/
def quarantineNs : Nat := 4000000

/-- The function left ACTIVE at least 4 ms ago, or never. -/
def State.quarantineOver (s : State) (fid : Nat) : Bool :=
  match (s.fn fid).leftAt with
  | none => true
  | some t => decide (t + quarantineNs ≤ s.clock.now)

/-- Nothing keeps a function from entering ACTIVE: its quarantine is over, and it holds nothing on the other half that an abort in split mode
has left there (R52, R60). -/
def State.mayEnter (s : State) (fid : Nat) : Bool := s.quarantineOver fid && !(s.fn fid).across

/-- Into ACTIVE, through QUARANTINE where that is needed (R52, R60). -/
def State.toActive (fid : Nat) (s : State) : State :=
  if s.mayEnter fid then s.enterActive fid else s.modFn fid (fun f => { f with state := .quarantine, goal := .active })

/-- A link that exists: its PF is on it. The second link of a host port is there only where the port is bifurcated (R43). DEDUCED (log 48).
-/
def State.linkOk (s : State) (l : Nat) : Bool := s.linkOf (pfOfLink l) == l

/-- DEVSTATE is READY, or TRIAL, which every rule that asks for READY takes for it (R51, R63, R453). -/
def State.devReady (s : State) : Bool := s.hif.devState == 1 || s.hif.devState == 3

/-- A PF leaves DISABLED by itself once its link is up and the device is ready (R51, R52). -/
def State.pfStart (l : Nat) (s : State) : State :=
  let fid := pfOfLink l
  if (s.link l).up && s.devReady && (s.fn fid).state == .disabled && s.linkOk l then s.toActive fid else s

/-- What a function that has come to DISABLED does at once: a PF whose link is up starts, a VF that is enabled goes to IDLE (R51, R52). -/
def State.leaveDisabled (fid : Nat) (s : State) : State :=
  let l := s.linkOf fid
  if s.isPf fid then s.pfStart l
  else if (s.link l).vfEnable && decide (s.vfIndex fid ≤ (s.link l).numVfs) then s.modFn fid (fun f => { f with state := .idle })
  else s

/-- Where a function goes once its abort and quarantine are over (R52). -/
def State.reachGoal (fid : Nat) (g : Goal) (s : State) : State :=
  match g with
  | .active => s.toActive fid
  | .idle => s.settleFn fid .idle
  | .disabled => (s.settleFn fid .disabled).leaveDisabled fid
  | .aborted => s.settleFn fid .aborted
  | .none => s.settleFn fid .aborted

/-- Into QUARANTINE on the way to `g`, or straight there when 4 ms have passed (R52). -/
def State.quarantine (fid : Nat) (g : Goal) (s : State) : State :=
  if s.quarantineOver fid then s.reachGoal fid g
  else s.modFn fid (fun f => { f with state := .quarantine, goal := g })

/-- QUARANTINE_END (R52): 4 ms after the function last left ACTIVE. DESIGN CHOICE (log 16). -/
def execQuarantineEnd (fid : Fid) (dt : Nat) (s : State) : Outcome :=
  let s := s.advance dt
  let f := s.fn fid
  if f.state == .quarantine && s.quarantineOver fid then done (s.reachGoal fid f.goal) else done s

/-! ## Leaving ACTIVE (R55, R80) -/

/-- Withdraws what a pending command has done before its commit point (R70, R80). DEDUCED (log 48). -/
def State.withdraw (w : Work) (s : State) : State :=
  match w with
  | .fnCreate t wasIdle _ =>
    if (s.fn t).goal == .active then s.modFn t (fun f => { f with goal := if wasIdle then .idle else .aborted }) else s
  | .fnDestroy t =>
    if (s.fn t).goal == .idle then
      s.modFn t (fun f => { f with goal := if f.state == .aborting then .none else .aborted })
    else s
  | .ringDestroy k => s.modRing k (fun r => { r with destroying := false })
  | .portConfig np _ _ _ =>
    if (s.np np).pend.isNone then s
    else
      let s := s.modNp np (fun n => { n with pend := none })
      if !(s.np np).enable then s
      else
        { s with net := { s.net with lps := s.net.lps.mapV (fun i l =>
          if i / 8 = np ∧ l.state = .down ∧ l.lanes ≠ [] then { l with state := .training } else l) } }
  | .epDestroy n =>
    match Tab.find n s.lrd.eps with
    | none => s
    | some e => { s with lrd := { s.lrd with eps := Tab.set n { e with destroying := false } s.lrd.eps } }
  | .powerCap => s

/-- Tickets a function still waits for. -/
def State.openTickets (s : State) (fid : Nat) : List Work :=
  (s.tickets.filter (fun e => e.2.fid == fid && !e.2.done)).map (·.2.work)

/-- A function's messages end at once with no completion: they leave the pacers and never send again (R59, R298). -/
def State.discardMsgs (fid : Nat) (s : State) : State :=
  let ks := s.lrd.msgs.keysWhere (fun _ m => m.fid == fid && m.state != .ended)
  if ks.isEmpty then s
  else { s with lrd := { s.lrd with
    msgs := s.lrd.msgs.mapV (fun _ m => if m.fid = fid then { m with state := .ended, data := [], pkts := [] } else m)
    paths := s.lrd.paths.mapV (fun _ p => { p with turn := p.turn.filter (fun k => !ks.contains k) }) } }

/-- A function leaves ACTIVE for ABORTING with a reason, on its way to `g` (R52, R53, R55): its pending MSI-X bits are cleared, its
critical-service hold lapses, a command in its mailbox is answered ST_ABORTED and its tickets are cancelled (R50, R80, R94); its messages are
discarded (R298). -/
def State.beginAbort (fid reason : Nat) (g : Goal) (s : State) : State :=
  let f := s.fn fid
  if f.state != .active then s
  else
    let s := s.modFn fid (fun f => { f with
      state := .aborting, reason := reason, goal := g, leftAt := some s.clock.now, abInProgress := true, abElapsed := 0
      abEngReset := false, abHostSilent := false, svcHold := false, msixPend := [] })
    let s := match f.req with
      | none => s
      | some r => s.respond fid r stAborted 0 0 []
    let s := s.each State.withdraw (s.openTickets fid)
    ({ s with tickets := s.tickets.filter (fun e => e.2.fid != fid) }).discardMsgs fid

/-- Sends a function that is not ACTIVE where a reset leads: an abort that runs goes on and leads there (R52). -/
def State.redirect (fid : Nat) (g : Goal) (s : State) : State :=
  match (s.fn fid).state with
  | .aborting => s.modFn fid (fun f => { f with goal := g })
  | .active => s
  | _ => s.reachGoal fid g

/-- Disables a function: through ABORTING if it is ACTIVE (R52). -/
def State.disableFn (reason : Nat) (fid : Nat) (s : State) : State :=
  if (s.fn fid).state == .active then s.beginAbort fid reason .disabled else s.redirect fid .disabled

/-- Functions of a link that are not DISABLED, PFs and VFs. -/
def State.fnsOfLink (s : State) (l : Nat) : List Nat :=
  s.fns.keysWhere (fun fid f => s.linkOf fid == l && f.state != .disabled)

/-! ## Configuration requests (R43, R463) -/

/-- Step 9 of R462 has been reached: links answer configuration requests and offer BAR access (R463). -/
def State.linksServe (s : State) : Bool := s.boot.stage == .ready || decide (9 ≤ s.boot.step)

/-- A function's configuration space answers: its link is up, step 9 has been reached, and it is a PF or a VF that is enabled (R43, R463). -/
def State.cfgOn (s : State) (fid : Nat) : Bool :=
  let k := s.link (s.linkOf fid)
  s.fidOk fid && k.up && s.linksServe && (s.isPf fid || (k.vfEnable && decide (s.vfIndex fid ≤ k.numVfs)))

/-- Before step 9 a configuration request on a link that is up completes with Request Retry Status (R463). -/
def State.cfgRetry (s : State) (fid : Nat) : Bool := s.fidOk fid && (s.link (s.linkOf fid)).up && !s.linksServe

/-- A configuration write to a function that does `f`: it is answered with Request Retry Status before step 9, and reaches no function whose
configuration space does not answer (R463). -/
def State.cfgDo (fid : Nat) (f : State → State) (s : State) : State :=
  if s.cfgRetry fid then s.tlp fid .retry else if s.cfgOn fid then f s else s

/-! ## Function-level resets and SR-IOV (R52, R61, R62) -/

/-- An FLR takes a function back to ACTIVE with the same grant: through ABORTING if it is ACTIVE; in ABORTING it follows the abort; in
QUARANTINE it changes nothing (R52). DEDUCED (log 48). DESIGN CHOICE (log 140). -/
def State.flrFn (fid : Nat) (s : State) : State :=
  match (s.fn fid).state with
  | .active => s.beginAbort fid 3 .active
  | .aborted => s.quarantine fid .active
  | .aborting => if (s.fn fid).goal == .disabled then s else s.modFn fid (fun f => { f with goal := .active })
  | _ => s

/-- Sets VF Enable and NumVFs of a link (R43, R52): VFs that come to exist go to IDLE, VFs that cease go to DISABLED. -/
def State.setVfs (l : Nat) (enable : Bool) (numVfs : Nat) (s : State) : State :=
  let n := if enable then min numVfs (if s.bif (l / 2) then 256 else 512) else 0
  let pf := pfOfLink l
  let s := s.modLink l (fun k => { k with vfEnable := enable, numVfs := n })
  let s := s.each (State.disableFn 6) ((s.fnsOfLink l).filter (fun fid => decide (pf + n < fid)))
  s.each (fun i s => if (s.fn (pf + 1 + i)).state == .disabled then s.modFn (pf + 1 + i) (fun f => { f with state := .idle }) else s)
    (List.range n)

/-- The PF FLR of a link: VF Enable is cleared and every VF goes to DISABLED, the PF returns to ACTIVE after its abort and quarantine, and
HIF_SCRATCH is cleared (R47, R62). -/
def State.pfFlr (l : Nat) (s : State) : State :=
  let s := s.setVfs l false 0
  let s := s.modLink l (fun k => { k with scratch := 0 })
  s.flrFn (pfOfLink l)

/-- An FLR of a function: of a VF, or of a PF as R62 gives (R61). -/
def State.flr (fid : Nat) (s : State) : State := if s.isPf fid then s.pfFlr (s.linkOf fid) else s.flrFn fid

/-- FLR (R61), a configuration write (R463). -/
def execFlr (fid : Fid) (s : State) : Outcome := done (s.cfgDo fid (State.flr fid))

/-- PF_FLR (R62), of a link that exists (R43), a configuration write (R463). -/
def execPfFlr (link : LinkId) (s : State) : Outcome :=
  if s.linkOk link then done (s.cfgDo (pfOfLink link) (State.pfFlr link)) else done s

/-- VF_ENABLE (R52), of a link that exists (R43), a configuration write (R463). -/
def execVfEnable (link : LinkId) (numVfs : Nat) (s : State) : Outcome :=
  if s.linkOk link then done (s.cfgDo (pfOfLink link) (State.setVfs link true numVfs)) else done s

/-- VF Enable cleared (`n` 0), or NumVFs lowered while it is set (R52). -/
def State.fewerVfs (l n : Nat) (s : State) : State :=
  if n = 0 then s.setVfs l false 0
  else if (s.link l).vfEnable then s.setVfs l true (min n (s.link l).numVfs)
  else s

/-- VF_DISABLE (R52), of a link that exists (R43), a configuration write (R463). -/
def execVfDisable (link : LinkId) (numVfs : Nat) (s : State) : Outcome :=
  if s.linkOk link then done (s.cfgDo (pfOfLink link) (State.fewerVfs link numVfs)) else done s

/-! ## Link events (R63, R463) -/

/-- A link goes down or is reset: every function of the link is aborted and goes to DISABLED, SR-IOV control is cleared, HIF_SCRATCH
is cleared (R47, R52, R63). What the host has set elsewhere in configuration space stays. DESIGN CHOICE (log 140). -/
def State.linkLost (l : Nat) (perst : Bool) (s : State) : State :=
  let s := s.modLink l (fun k => { k with
    up := false, training := false, perst := perst || k.perst, vfEnable := false, numVfs := 0, scratch := 0 })
  s.each (State.disableFn 5) (s.fnsOfLink l)

/-- LINK_DOWN (R63). -/
def execLinkDown (link : LinkId) (s : State) : Outcome := done (s.linkLost link false)

/-- HOT_RESET (R63). -/
def execHotReset (link : LinkId) (s : State) : Outcome := done (s.linkLost link false)

/-- PERST_ASSERT (R63): the reset of a link, which PERST# then holds. -/
def execPerstAssert (link : LinkId) (s : State) : Outcome := done (s.linkLost link true)

/-- A rate and a width that a link can train to: 32, 64 or 128 GT/s; x16 where the port is not bifurcated, x8 or x4 (R38, R47). -/
def State.linkMode (s : State) (l rate width : Nat) : Bool :=
  s.linkOk l && decide (1 ≤ rate) && decide (rate ≤ 3) && (width == 4 || width == 8 || (width == 16 && !s.bif (l / 2)))

/-- LINK_UP (R38, R47, R52, R63): a training link comes up with a rate and width of R38; DEGRADED is set below the configured ones, and the
PF starts. -/
def execLinkUp (link : LinkId) (rate width : Nat) (degraded : Bool) (s : State) : Outcome :=
  if (s.link link).training && s.linkMode link rate width then
    let s := s.modLink link (fun k => { k with
      up := true, training := false, rate := rate, width := width, err := if degraded then k.err ||| 8 else k.err })
    done (s.pfStart link)
  else done s

/-! ## Abort writes (R54) -/

/-- The three conditions under which an abort write is accepted (R54). -/
def State.abortAccepted (s : State) (target : Nat) (value : BitVec 64) : Bool :=
  bits value.toNat 48 16 == 0xAB07 && bits value.toNat 40 8 == (s.fn target).gen.toNat && (s.fn target).state == .active

/-- A write that fails a condition sets FN_ERR.ABORT_IGNORED in the writing function (R54). -/
def State.abortIgnored (fid : Nat) (s : State) : State := s.modFn fid (fun f => { f with err := f.err ||| 2 })

/-- A write to FN_ABORT (R54, R55). -/
def State.fnAbortWrite (fid : Nat) (value : BitVec 64) (s : State) : State :=
  if s.abortAccepted fid value then s.beginAbort fid 1 .none else s.abortIgnored fid

/-- The VF that FN_VF_ABORT of a PF names (R47, R54). -/
def vfTarget (fid : Nat) (value : BitVec 64) : Nat := hpOf fid * 1024 + value.toNat % 1024

/-- A write to FN_VF_ABORT: a PF aborts a VF of its own link; in a VF the register ignores writes (R47, R54). DEDUCED (log 48). -/
def State.fnVfAbortWrite (fid : Nat) (value : BitVec 64) (s : State) : State :=
  let t := vfTarget fid value
  if !s.isPf fid then s
  else if s.fidOk t && !s.isPf t && s.linkOf t == s.linkOf fid && s.abortAccepted t value then s.beginAbort t 2 .none
  else s.abortIgnored fid

/-- FN_ABORT (R54). -/
def execFnAbort (fid : Fid) (value : BitVec 64) (s : State) : Outcome := done (s.fnAbortWrite fid value)

/-- FN_VF_ABORT (R54). -/
def execFnVfAbort (fid : Fid) (value : BitVec 64) (s : State) : Outcome := done (s.fnVfAbortWrite fid value)

/-! ## Host DMA errors (R42, R53) -/

/-- A host DMA error aborts the whole function with reason HOST_DMA (R53). -/
def State.hostDma (fid : Nat) (s : State) : State :=
  if (s.fn fid).state == .active then
    (s.modFn fid (fun f => { f with err := f.err ||| 4 })).beginAbort fid 4 .none
  else s

/-- Removes a read whose tag has come back; a read that waits takes it (R38, R42, R56). -/
def State.dropRead (l t : Nat) (s : State) : State := (s.modLink l (fun k => { k with reads := Tab.del t k.reads })).pumpReads l 1

/-- A flag of HIF_ERR (R47). -/
def State.hifErr (l : Nat) (m : BitVec 4) (s : State) : State := s.modLink l (fun k => { k with err := k.err ||| m })

end Sys2Proof.Machine
end

