-- ==== Sys2Proof/Machine/Credits.lean ====
section
/-! DEFINITION. What functions may use of the device's pools (R90, R92), and what the transport and the cipher engine let the fetch
arbiter take (R144, R287 to R294, R319, R331). -/

namespace Sys2Proof.Machine

open Sys2Proof

/-! ## Grants (R90, R92) -/

/-- The link grant: what HP_GRANT_SET has written, or the factory setting (R92). DESIGN CHOICE (log 32). -/
def factoryGrant (split : Bool) : Grant :=
  let d := if split then 2 else 1
  { maxClass := 7, sq := 32768 / d, cq := 32768 / d, eq := 2048 / d, rule := 24576 / d, ep := 131072 / d, key := 32768 / d,
    mr := 2097152 / d, msg := 131072 / d, bufKib := 2560 / d }
def State.linkGrant (s : State) (l : Nat) : Grant := (Tab.find l s.hif.grants).getD (factoryGrant (s.bif (l / 2)))

/-- The grant of a function: that of its pending FN_CREATE, which takes the place of an earlier one (R90, R92). -/
def State.grantOf (s : State) (fid : Nat) : Option Grant := (s.pendingGrant fid).or (s.fn fid).grant

/-- The grants given on a link, those of pending FN_CREATEs included (R90). -/
def State.grantsOn (s : State) (l : Nat) : List Grant := (s.fns.filter (fun e => s.linkOf e.1 == l)).filterMap (fun e => s.grantOf e.1)

/-- What a function may use of each pool: its grant, or for a PF what the link grant leaves (R90). -/
def State.quotaOf (s : State) (fid : Nat) : Grant :=
  match (s.fn fid).grant with
  | some g => g
  | none =>
    if !s.isPf fid then {}
    else
      let l := s.linkOf fid
      let g := s.linkGrant l
      let gs := s.grantsOn l
      let left := fun (f : Grant → Nat) => f g - gs.foldl (fun a x => a + f x) 0
      { maxClass := g.maxClass, sq := left (·.sq), cq := left (·.cq), eq := left (·.eq), rule := left (·.rule), ep := left (·.ep),
        key := left (·.key), mr := left (·.mr), msg := left (·.msg), bufKib := left (·.bufKib) }

/-! ## Endpoints and their contexts (R107, R108, R294, R319, R320) -/

/-- The transport with `f` applied. -/
def State.modLrd (f : Lrd → Lrd) (s : State) : State := { s with lrd := f s.lrd }
def State.ep (s : State) (n : Nat) : Option Ep := Tab.find n s.lrd.eps
/-- The endpoint changed by `f`; nothing where none exists. -/
def State.modEp (n : Nat) (f : Ep → Ep) (s : State) : State :=
  match s.ep n with
  | none => s
  | some e => s.modLrd (fun l => { l with eps := Tab.set n (f e) l.eps })

/-- The key of a message of an endpoint. -/
def msgKey (ep msg : Nat) : Nat := ep * 281474976710656 + msg
def epOfMsg (k : Nat) : Nat := k / 281474976710656
def idOfMsg (k : Nat) : Nat := k % 281474976710656
def State.msg (s : State) (k : Nat) : Option Msg := Tab.find k s.lrd.msgs
def State.setMsg (k : Nat) (m : Msg) (s : State) : State := s.modLrd (fun l => { l with msgs := Tab.set k m l.msgs })

/-- The endpoint that an SQ serves, with its number. -/
def State.epOfSq (s : State) (sq : Nat) : Option (Nat × Ep) := s.lrd.eps.find? (fun e => e.2.sq == sq)

/-- An endpoint serves the SQ and is not being destroyed (R108, R294). -/
def State.lrdServed (s : State) (sq : Nat) : Bool :=
  match s.epOfSq sq with
  | none => false
  | some e => !e.2.destroying

/-- Device time is synchronised and the half has a salt: LRD runs there (R189, R288). -/
def State.saltOf (s : State) (h : Nat) : Option (BitVec 32) := if h = 0 then s.lrd.saltW else s.lrd.saltE
def State.lrdRuns (s : State) (h : Nat) : Bool := s.clock.synced && (s.saltOf h).isSome

/-- Descriptors an SQ has been promised and not yet processed: their reads are outstanding, or they wait on chip. -/
def RingWork.prefetched (w : RingWork) : Nat := w.reading + w.fetched.countP (fun d => !d.begun)

/-- Marks the completion of a work request that found no MSG_ID left (R293). -/
def exhaustTag : Nat := 2 ^ 60 + 1

/-- Completions of an endpoint without a message context that are caused and not written: those of its notifications or of its work requests that
found no MSG_ID (R293, R296). -/
def State.epDue (s : State) (cq ep tag : Nat) : Nat := (s.workOf (cqKey cq)).due.countP (fun c => c.lrd == some (ep, tag))

/-- Work requests of LRD SQs that satisfy `p` and have no message context: those being fetched by an SQ that serves an endpoint, and those that
found no MSG_ID and whose completion is not written (R293, R294). -/
def State.lrdComing (s : State) (p : Nat → Ring → Bool) : Nat :=
  s.rings.foldl (fun a e =>
    if kindOfKey e.1 = 0 ∧ e.2.use = .lrd ∧ p (numOfKey e.1) e.2 = true then
      a + (if s.lrdServed (numOfKey e.1) then (s.workOf e.1).reading else 0) +
        (s.workOf (cqKey e.2.bind)).due.countP (fun c => c.sq == numOfKey e.1 && c.lrd.any (fun x => x.2 == exhaustTag))
    else a) 0

/-- Messages outstanding that satisfy `p`: those whose completion has not been written (R294). -/
def State.outstanding (s : State) (p : Nat → Msg → Bool) : Nat := s.lrd.msgs.countV p

/-- Work requests an LRD SQ may still fetch (R294): its credit while its endpoint is on chip; an SQ that serves no endpoint has credit
without condition. -/
def State.lrdCredit (s : State) (sq : Nat) : Nat :=
  match s.ring (sqKey sq) with
  | none => 0
  | some r =>
    if (s.saltOf (halfOfPipe r.pipe)).isNone || (s.seqOf r.pipe).isNone then 0
    else
      match s.epOfSq sq with
      | none => 64
      | some (n, e) =>
        if e.destroying then 64
        else if !s.clock.synced || !e.onChip then 0
        else
          let a := e.limit - (s.outstanding (fun k _ => epOfMsg k == n) + s.lrdComing (fun q _ => q == sq))
          let b := (s.quotaOf e.fid).msg - (s.outstanding (fun _ m => m.fid == e.fid) + s.lrdComing (fun _ x => x.fid == e.fid))
          let d := 524288 - (s.outstanding (fun _ m => halfOfPipe m.seq == halfOfPipe r.pipe) +
            s.lrdComing (fun _ x => halfOfPipe x.pipe == halfOfPipe r.pipe))
          min a (min b d)

/-- The next stamp of use. -/
def State.nextStamp (s : State) : Nat × State := (s.lrd.stamp + 1, s.modLrd (fun l => { l with stamp := l.stamp + 1 }))

/-- An endpoint is used now. -/
def State.touchEp (n : Nat) (s : State) : State :=
  let x := s.nextStamp
  x.2.modEp n (fun e => { e with used := x.1 })

/-- The backing slot of an endpoint (R106, R319). -/
def State.slotOfEp (s : State) (e : Ep) : BitVec 64 :=
  match (s.resOf e.fid).backing with
  | none => 0
  | some b => b.1 + BitVec.ofNat 64 (256 * e.ord)

/-- Reads an endpoint's context once (R320, R329). DEDUCED (log 57). -/
def State.fetchEp (n : Nat) (s : State) : State :=
  match s.ep n with
  | none => s
  | some e =>
    if e.onChip || e.fetching then s
    else
      ((s.modEp n (fun e => { e with fetching := true })).issueRead e.fid (s.slotOfEp e) 256 (.context n)).bump 3 (halfOfFid e.fid) 74

/-- New work of an SQ whose endpoint is off chip has its context read (R320). -/
def State.wakeEp (sq : Nat) (s : State) : State :=
  match s.epOfSq sq with
  | none => s
  | some e => s.fetchEp e.1

/-- Marks the completion of a notification (R296). -/
def notifyTag : Nat := 2 ^ 60

/-- The completion of a message has been written: it is no longer outstanding (R294); a notification has been posted (R330). -/
def State.lrdWritten (k : Option (Nat × Nat)) (s : State) : State :=
  match k with
  | none => s
  | some (ep, m) =>
    if m = notifyTag then
      match s.ep ep with
      | some e => s.bump 0 e.fid 15
      | none => s
    else if m = exhaustTag then s
    else s.modLrd (fun l => { l with msgs := Tab.del (msgKey ep m) l.msgs })

/-! ## The cipher engine's input (R31, R331) -/

/-- The cipher engine with `f` applied. -/
def State.modCry (f : Cry → Cry) (s : State) : State := { s with cry := f s.cry }

/-- An inline job that takes the scheduler's input credit: an ESP packet; LRD packets have credit of their own (R31, R332). -/
def InlJob.isEsp : InlJob → Bool
  | .esp _ => true
  | _ => false

/-- Bulk jobs of a half that its scheduler has taken and whose input has not come (R351). -/
def State.bulkTaken (s : State) (h : Nat) : Nat :=
  s.work.foldl (fun a e => if kindOfKey e.1 = 0 ∧ engineOfSq (numOfKey e.1) / 16 = h then a + e.2.fetched.countP (fun d => d.taken && !d.begun) else a) 0

/-- ESP packets and bulk jobs that hold the input credit of a half's scheduler (R31). -/
def State.cipherWaiting (s : State) (h : Nat) : Nat :=
  (s.net.inl.getD h []).countP InlJob.isEsp + (s.cry.bulk.getD h []).length + s.bulkTaken h

/-- Jobs for which the input of a half's cipher scheduler has room (R31). -/
def State.cipherRoom (s : State) (h : Nat) : Nat := 1024 - s.cipherWaiting h

/-- LRD packets of a sequencer that its half's scheduler holds: its transport-to-cipher credit is 64 (R31, R332). -/
def State.seqJobs (s : State) (seq : Nat) : Nat :=
  (s.net.inl.getD (halfOfPipe seq) []).countP (fun j => match j with
    | .esp _ => false
    | .enc x => x.seq == seq
    | .dec x => x.seq == seq)
def State.seqCredit (s : State) (seq : Nat) : Bool := decide (s.seqJobs seq < 64) && (s.net.lrdOut.getD seq []).isEmpty

end Sys2Proof.Machine
end

