-- ==== Sys2Proof/Machine/Rings.lean ====
section
/-! DEFINITION. Rings: doorbells, index-block reads, fetch arbitration, descriptors, completions, the completion hold, event
moderation (R129 to R167). -/

namespace Sys2Proof.Machine

open Sys2Proof

/-! ## Completions (R154 to R160) -/

/-- PHASE put into the entry bytes, in byte 13 of a completion or learn record (R155, R250). -/
def withPhase (phase : Nat) (b : Bytes) : Bytes := putBytes b 13 (toLe 1 (le b 13 1 / 2 * 2 + phase))

/-- Announces an entry written to an armed CQ: EV_CQ is posted and the CQ disarmed (R165). -/
def State.cqAnnounce (n : Nat) (s : State) : State :=
  match s.ring (cqKey n) with
  | none => s
  | some r =>
    if r.armed then
      (s.setRing (cqKey n) { r with armed := false }).postBit r.fid (.eq r.bind) 0x0101 n (toLe 4 r.dev.toNat)
    else s

/-- Writes an entry to CQ `n` at its device index, and its index block after it (R135, R155). DESIGN CHOICE (log 132). -/
def State.cqWrite (n : Nat) (b : Bytes) (s : State) : State :=
  match s.ring (cqKey n) with
  | none => s
  | some r =>
    let s := s.dmaWrite r.fid (r.slotAddr 32) (withPhase r.phase b)
    let s := (s.setRing (cqKey n) { r with dev := r.dev + 1 }).idxWrite (cqKey n)
    s.cqAnnounce n

/-- The SQs bound to CQ `n`. -/
def State.sqsOf (s : State) (n : Nat) : List Nat := s.rings.keysWhere (fun k r => kindOfKey k == 0 && r.bind == n)

/-- Changes a ring's STATE and writes its index block (R135). -/
def State.ringTo (st : RingState) (k : Nat) (s : State) : State :=
  match s.ring k with
  | none => s
  | some r => if r.state == st then s else (s.setRing k { r with state := st }).idxWrite k

/-- Stops the work that feeds CQ `n`: its SQs and the CQ become FETCH_STOPPED unless in ERROR, and EV_CQ_FULL is posted (R158). DEDUCED (log
37). -/
def State.stopCq (n : Nat) (s : State) : State :=
  match s.ring (cqKey n) with
  | none => s
  | some c =>
    let stop := fun (k : Nat) (s : State) =>
      match s.ring k with
      | some r => if r.state == .running then s.ringTo .fetchStopped k else s
      | none => s
    let s := s.each stop (s.sqsOf n)
    let s := stop (cqKey n) s
    s.postBit c.fid (.eq c.bind) 0x0102 n (toLe 4 c.dev.toNat ++ toLe 4 c.seen.toNat ++ toLe 2 (s.heldFor c.fid n))

/-- The CQ cannot take an entry now: it is full, in ERROR, or holds completions that go first (R139, R158, R160). DEDUCED (log 37). -/
def State.cqBlocked (s : State) (n : Nat) : Bool :=
  match s.ring (cqKey n) with
  | none => true
  | some r => r.full || r.state == .error || s.heldFor r.fid n != 0

/-- CQ `n` has room for an entry and is not in ERROR. -/
def State.cqRoom (s : State) (n : Nat) : Bool :=
  match s.ring (cqKey n) with
  | none => false
  | some r => !r.full && r.state != .error

/-- The first completion held for CQ `n` taken off the hold. -/
def takeHeld (n : Nat) : List (Nat × Bytes) → List (Nat × Bytes)
  | [] => []
  | e :: es => if e.1 == n then es else e :: takeHeld n es

/-- Writes the completions that a function's hold keeps for CQ `n`, oldest first, as far as room allows; each leaves the hold as it is
written, so that the index block gives the HELD that is left (R135, R160). `k` bounds their number. -/
def State.drainHold (fid n : Nat) : Nat → State → State
  | 0, s => s
  | k + 1, s =>
    match (s.resOf fid).hold.find? (fun e => e.1 == n) with
    | none => s
    | some e =>
      if s.cqRoom n then ((s.modRes fid (fun r => { r with hold := takeHeld n r.hold })).cqWrite n e.2).drainHold fid n k else s

/-- Completions that stay in their message contexts since CQ `n` was found full (R294). -/
def State.lrdWaiting (s : State) (n : Nat) : Bool := (s.workOf (cqKey n)).due.any (fun c => c.held)

/-- CQ `n` holds completions, in the function's hold or in message contexts (R158, R294). -/
def State.cqHolding (s : State) (n : Nat) : Bool :=
  match s.ring (cqKey n) with
  | none => false
  | some r => s.heldFor r.fid n != 0 || s.lrdWaiting n

/-- CQ `n` and its SQs fetch again once nothing is held for it (R160, R294). -/
def State.releaseCq (n : Nat) (s : State) : State :=
  match s.ring (cqKey n) with
  | none => s
  | some c =>
    if s.cqHolding n || c.state == .error then s
    else
      let go := fun (k : Nat) (s : State) =>
        match s.ring k with
        | some r => if r.state == .fetchStopped then s.ringTo .running k else s
        | none => s
      s.each go (s.sqsOf n ++ [cqKey n])

/-- Writes the completions that message contexts keep for CQ `n`, in order, as far as room allows; their messages are no longer outstanding
(R160, R294). `k` bounds their number. -/
def State.drainLrd (n : Nat) : Nat → State → State
  | 0, s => s
  | k + 1, s =>
    match (s.workOf (cqKey n)).due with
    | d :: ds =>
      if d.held && s.cqRoom n then (((s.modWork (cqKey n) (fun w => { w with due := ds })).cqWrite n d.bytes).lrdWritten d.lrd).drainLrd n k
      else s
    | [] => s

/-- Drains what is held for CQ `n` after a doorbell's read showed room (R160). -/
def State.drainCq (n : Nat) (s : State) : State :=
  match s.ring (cqKey n) with
  | none => s
  | some c =>
    let s := s.drainHold c.fid n (s.resOf c.fid).hold.length
    let s := if s.heldFor c.fid n = 0 then s.drainLrd n (s.workOf (cqKey n)).due.length else s
    s.releaseCq n

/-- A completion is caused for the CQ of an SQ (R156). -/
def State.causeCpl (sq : Nat) (lrd : Option (Nat × Nat)) (b : Bytes) (s : State) : State :=
  match s.ring (sqKey sq) with
  | none => s
  | some r => s.modWork (cqKey r.bind) (fun w => { w with due := w.due ++ [{ bytes := b, sq := sq, lrd := lrd }] })

/-! ## Completing descriptors in order (R153, R156) -/

/-- An index lies before another on a ring (R11, R134). -/
def idxBefore (a b : BitVec 32) : Bool := a != b && decide ((b - a).toNat < 2147483648)

/-- A NOP at the front completes when nothing earlier of its SQ waits: no buffer that was posted before it either (R153). -/
def nopReady (w : RingWork) (d : FDesc) : Bool :=
  dOpcode d.bytes == 0x0F && d.begun && (w.filled ++ w.posted).all (fun b => !idxBefore b.index d.index)

/-- Marks a completion of an LRD ring that belongs to no message. -/
def noMsg : Nat × Nat := (1048576, 0)

/-- Takes the completed descriptors from the front of a list in order; for LRD and cipher rings the later ones need not wait for the
front, but a NOP does (R153, R156). Answers the completions to cause and the descriptors that stay. -/
def settleList (sq : Nat) (u : SqUse) (w : RingWork) : Bool → List FDesc → List (Bytes × Option (Nat × Nat)) × List FDesc
  | _, [] => ([], [])
  | front, d :: t =>
    let ready : Option Bytes :=
      if nopReady w d && front then some (descCpl sq d 0) else if front || u != .packet then d.cpl else none
    match ready with
    | some b =>
      let r := settleList sq u w front t
      ((b, if u == .lrd then some (d.msg.getD noMsg) else none) :: r.1, r.2)
    | none => let r := settleList sq u w false t; (r.1, d :: r.2)

/-- Causes the completions that a ring's order now allows. DEDUCED (log 37). -/
def State.settle (sq : Nat) (s : State) : State :=
  match s.ring (sqKey sq) with
  | none => s
  | some r =>
    let w := s.workOf (sqKey sq)
    let x := settleList sq r.use w true w.fetched
    (s.modWork (sqKey sq) (fun w => { w with fetched := x.2 })).each
      (fun (e : Bytes × Option (Nat × Nat)) s => s.causeCpl sq e.2 e.1) x.1

/-- The descriptor of an index earns its completion, which its order may still hold back (R156). -/
def State.earn (sq : Nat) (index : BitVec 32) (b : Bytes) (s : State) : State :=
  (s.modWork (sqKey sq) (fun w => { w with
    fetched := w.fetched.map (fun d => if d.index = index then { d with cpl := some b } else d) })).settle sq

/-- Removes the descriptor of an index without a completion of its own: an RX_POST that has become a buffer, or an LRD message. -/
def State.dropDesc (sq : Nat) (index : BitVec 32) (s : State) : State :=
  s.modWork (sqKey sq) (fun w => { w with fetched := w.fetched.filter (fun d => d.index != index) })

/-- The first completion due for CQ `n` that no message context keeps, and the others around it (R156). -/
def firstDue : List Cpl → Option (Cpl × List Cpl)
  | [] => none
  | d :: ds => if d.held then (firstDue ds).map (fun x => (x.1, d :: x.2)) else some (d, ds)

/-- A completion of an LRD or cipher job, which have no order in the CQ (R156). -/
def Cpl.anyOrder (d : Cpl) : Bool := (d.bytes.getD 15 0).toNat != 1 && (d.bytes.getD 15 0).toNat != 2 && (d.bytes.getD 15 0).toNat != 0x0F

/-- The completion that is written next: the one in place `pick` among those due, unless one ahead of it is of the same SQ and R156 gives the two an
order; the first otherwise. DEDUCED (log 37). -/
def pickDue (pick : Nat) (due : List Cpl) : Option (Cpl × List Cpl) :=
  match due[pick]? with
  | none => firstDue due
  | some d =>
    if !d.held && (due.take pick).all (fun e => e.sq != d.sq || (e.anyOrder && d.anyOrder)) then some (d, due.eraseIdx pick) else firstDue due

/-- A completion that CQ `n` cannot take joins the function's hold, and the index block gives the new HELD; an LRD one stays in its message
context (R158, R294). The first of them stops the work that feeds the CQ. -/
def State.holdCpl (n : Nat) (c : Ring) (d : Cpl) (rest : List Cpl) (s : State) : State :=
  let first := !s.cqHolding n
  let s :=
    if d.lrd.isSome then
      s.modWork (cqKey n) (fun w => { w with
        due := rest.filter (·.held) ++ { d with held := true } :: rest.filter (fun e => !e.held), reread := false })
    else
      ((s.modWork (cqKey n) (fun w => { w with due := rest, reread := false })).modRes c.fid (fun r =>
        { r with hold := r.hold ++ [(n, d.bytes)] })).idxWrite (cqKey n)
  if first then s.stopCq n else s

/-- COMPLETION_WRITE (R156, R158): a completion due for the CQ is written; a CQ found full has its index block read once, and the
completion waits for that read; without room then, or behind others that are held, it is held. -/
def State.completionWrite (n pick : Nat) (s : State) : State :=
  match s.ring (cqKey n), pickDue pick (s.workOf (cqKey n)).due with
  | some c, some (d, rest) =>
    if !s.dmaOn c.fid then s
    else if !s.cqHolding n && s.cqRoom n then
      ((s.modWork (cqKey n) (fun w => { w with due := rest, reread := false })).cqWrite n d.bytes).lrdWritten d.lrd
    else if s.cqHolding n || c.state == .error || ((s.workOf (cqKey n)).reread && !c.readOut) then s.holdCpl n c d rest
    else if (s.workOf (cqKey n)).reread then s
    else (s.modWork (cqKey n) (fun w => { w with reread := true })).readIndex (cqKey n)
  | _, _ => s

/-! ## Doorbells (R49, R141, R142) -/

/-- A discarded doorbell advances FN_DB_REJECT_CNT, which saturates (R49). -/
def State.dbRejected (fid : Nat) (s : State) : State :=
  s.modFn fid (fun f => { f with dbReject := min (f.dbReject + 1) 0xFFFFFFFF })

/-- The value a doorbell of a kind carries (R141). -/
def dbValue (kind : Nat) (ring : RingNo) (arm : Bool) : BitVec 64 :=
  BitVec.ofNat 64 (ring.toNat + kind * 262144 + (if arm then 1048576 else 0))


/-- A write to DB_RING (R49, R141, R142): accepted for an ACTIVE function and a queue it owns; it sets the pending bit and, with no read
outstanding, issues the index-block read. A ring in ERROR accepts it without effect (R139). DEDUCED (log 38). -/
def State.dbWrite (fid : Nat) (value : BitVec 64) (s : State) : State :=
  let v := value.toNat
  let kind := bits v 18 2
  let k := ringKey kind (bits v 0 18)
  match s.ring k with
  | none => s.dbRejected fid
  | some r =>
    if (s.fn fid).state != .active || kind == 3 || r.fid != fid then s.dbRejected fid
    else if r.state == .error then s
    else
      let r := { r with dbPending := true, armNext := r.armNext || (bit v 20 && kind != 0) }
      let s := s.setRing k r
      s.readIndex k

/-- SQ_DOORBELL (R142). -/
def execSqDoorbell (fid : Fid) (ring : RingNo) (s : State) : Outcome := done (s.dbWrite fid (dbValue 0 ring false))
/-- CQ_DOORBELL (R142). -/
def execCqDoorbell (fid : Fid) (ring : RingNo) (s : State) : Outcome := done (s.dbWrite fid (dbValue 1 ring false))
/-- EQ_DOORBELL (R142). -/
def execEqDoorbell (fid : Fid) (ring : RingNo) (s : State) : Outcome := done (s.dbWrite fid (dbValue 2 ring false))
/-- CQ_ARM (R165): a CQ doorbell with ARM set. -/
def execCqArm (fid : Fid) (ring : RingNo) (s : State) : Outcome := done (s.dbWrite fid (dbValue 1 ring true))
/-- EQ_ARM (R166): an EQ doorbell with ARM set. -/
def execEqArm (fid : Fid) (ring : RingNo) (s : State) : Outcome := done (s.dbWrite fid (dbValue 2 ring true))

/-! ## Index-block reads (R137, R139, R165, R166) -/

/-- The error a host index earns, or none (R137). -/
def indexError (kind : Nat) (r : Ring) (idx : BitVec 32) : Option Nat :=
  if kind = 0 then
    if r.size < (idx - r.dev).toNat then some 1 else if r.size < (idx - r.seen).toNat then some 2 else none
  else
    if r.size < (r.dev - idx).toNat then some 1 else if r.size < (idx - r.seen).toNat then some 2 else none

/-- A CQ's ARM after the read: with unconsumed entries EV_CQ is posted at once (R165). -/
def State.armCq (n : Nat) (s : State) : State :=
  match s.ring (cqKey n) with
  | none => s
  | some r =>
    let s := s.setRing (cqKey n) { r with armed := true, armWait := false }
    if r.used = 0 then s else s.cqAnnounce n

/-- An EQ's ARM after the read: unconsumed events count as written at that moment (R166). -/
def State.armEq (n : Nat) (s : State) : State :=
  match s.ring (eqKey n) with
  | none => s
  | some r =>
    (s.setRing (eqKey n) { r with
      armed := true, armWait := false, armCount := r.used, armFirst := if r.used = 0 then none else some s.clock.dev }).eqIrq n

/-- A learn record for a CQ (R250, R251): LOST is the count the pipeline has lost since the last one written. -/
def State.learnWrite (p n : Nat) (rec : Bytes) (s : State) : State :=
  let lost := (s.pipe p).lost
  (s.cqWrite n (putBytes rec 20 (toLe 4 lost))).modPipe p (fun q => { q with lost := 0 })

/-- Writes the records of one pipeline that wait for CQ `n` while it has room (R251). -/
def drainRecs (p n : Nat) : List Bytes → State → List Bytes × State
  | [], s => ([], s)
  | b :: t, s => if s.cqBlocked n then (b :: t, s) else drainRecs p n t (s.learnWrite p n b)

/-- The records a pipeline keeps are lost: its ring is gone, its owner has left ACTIVE, or NO_LEARN_RING is set (R251). -/
def State.loseRecords (p : Nat) (s : State) : State :=
  let n := (s.pipe p).recFifo.length
  if n = 0 then s else (s.bumpBy 2 p 143 n).modPipe p (fun q => { q with recFifo := [], lost := q.lost + n })

/-- The records that wait for CQ `n` are lost with it (R251). -/
def State.loseRecordsOf (n : Nat) (s : State) : State :=
  s.each State.loseRecords ((List.range 16).filter (fun p => (s.pipe p).learnRing == n && !(s.pipe p).noLearn))

/-- Writes the learn records that wait for CQ `n`; where its owner is not ACTIVE they are lost (R251). -/
def State.drainLearn (n : Nat) (s : State) : State :=
  if ((s.ring (cqKey n)).map (fun c => (s.fn c.fid).state)) != some .active then s.loseRecordsOf n
  else s.each (fun p s =>
    let q := s.pipe p
    if !q.noLearn && q.learnRing == n then
      let d := drainRecs p n q.recFifo s
      d.2.modPipe p (fun q => { q with recFifo := d.1 })
    else s) (List.range 16)

/-- Learn records still wait for a CQ that is full: EV_CQ_FULL is posted (R251). -/
def State.learnFull (n : Nat) (s : State) : State :=
  match s.ring (cqKey n) with
  | none => s
  | some c =>
    if c.full && (List.range 16).any (fun p => (s.pipe p).learnRing == n && !(s.pipe p).noLearn && !(s.pipe p).recFifo.isEmpty) then
      s.postBit c.fid (.eq c.bind) 0x0102 n []
    else s

/-- What follows an index-block read that passed its checks. -/
def State.indexAccepted (kind n : Nat) (arm : Bool) (s : State) : State :=
  if kind = 1 then
    let s := ((s.drainCq n).drainLearn n).learnFull n
    if arm then s.armCq n else s
  else if kind = 2 then
    match s.ring (eqKey n) with
    | none => s
    | some r =>
      let s := s.flushEq r.fid n
      if arm then s.armEq n else s
  else s.wakeEp n

/-- Of the slots read together with an index block, those that its PI covers stay to be used; the others are discarded (R147). -/
def RingWork.covered (w : RingWork) (dev idx : BitVec 32) : RingWork :=
  { w with spec := if w.reading = 0 ∧ w.specAt = dev then min w.spec (idx - dev).toNat else 0 }

/-- INDEX_BLOCK_READ_DONE (R137, R139): an outstanding read returns `hostIdx`, which is checked and accepted, or the ring enters ERROR; a
doorbell that came meanwhile causes one more read (R142). DEDUCED (log 38). What the read of a ring in ERROR brings is not used. DESIGN CHOICE (log 147).
-/
def State.indexDone (kind n : Nat) (idx : BitVec 32) (s : State) : State :=
  let k := ringKey kind n
  match s.ring k with
  | none => s
  | some r =>
    if !r.readOut then s
    else
      let s := ((s.setRing k { r with readOut := false, armWait := false }).endRead r.fid (.index k)).endRead r.fid (.spec k)
      let s :=
        if r.state == .error then s.modWork k (fun w => { w with spec := 0 })
        else
          match indexError kind r idx with
          | some e => (s.modWork k (fun w => { w with spec := 0 })).ringError k e idx
          | none =>
            ((s.modRing k (fun r => { r with seen := idx })).modWork k (fun w => if kind = 0 then w.covered r.dev idx else w)).indexAccepted kind n
              r.armWait
      match s.ring k with
      | some r => if r.dbPending && r.state != .error then s.readIndex k else s
      | none => s

/-- The KIND code of a ring kind (R95). -/
def kindCode : RingKind → Nat
  | .sq => 0 | .cq => 1 | .eq => 2

/-- INDEX_BLOCK_READ_DONE (R137). -/
def execIndexBlockReadDone (kind : RingKind) (ring : RingNo) (hostIdx : BitVec 32) (s : State) : Outcome :=
  done (s.indexDone (kindCode kind) ring.toNat hostIdx)

/-- EQ_MODERATION_TIMER (R166): MOD_USEC µs of device time after the first event since arming, the vector is sent. -/
def execEqModerationTimer (eq : RingNo) (dt : Nat) (s : State) : Outcome :=
  let s := s.advance dt
  match s.ring (eqKey eq.toNat) with
  | none => done s
  | some r =>
    match r.armFirst with
    | none => done s
    | some t =>
      if r.armed && r.modUsec != 0 && decide (t + r.modUsec * 1000 ≤ s.clock.dev) then
        done ((s.setRing (eqKey eq.toNat) { r with armed := false, armCount := 0, armFirst := none }).sendMsi r.fid r.bind)
      else done s

/-! ## Fetch arbitration (R144 to R146, R159) -/

/-- What a function's completion budget holds (R159). -/
def State.budgetUsed (s : State) (fid : Nat) : Nat :=
  s.rings.foldl (fun a e =>
    if e.2.fid = fid ∧ kindOfKey e.1 = 0 ∧ e.2.use ≠ .lrd then
      let w := s.workOf e.1
      a + w.reading + w.fetched.length + w.filled.length + w.posted.length
    else if e.2.fid = fid ∧ kindOfKey e.1 = 1 then a + ((s.workOf e.1).due.countP (fun c => c.lrd.isNone))
    else a) (s.resOf fid).hold.length

/-- The SQs of a DMA engine. -/
def State.sqsOfEngine (s : State) (e : Nat) : List Nat :=
  (s.rings.keysWhere (fun k _ => kindOfKey k == 0 && engineOfSq (numOfKey k) == e)).map numOfKey

/-- Prefetched descriptors of a DMA engine (R31). -/
def State.enginePrefetch (s : State) (e : Nat) : Nat :=
  (s.sqsOfEngine e).foldl (fun a n => a + (s.workOf (sqKey n)).prefetched) 0

/-! ## The host transit pool (R257) -/

/-- The half of the DMA engine that serves an SQ (R132). -/
def halfOfSq (n : Nat) : Nat := engineOfSq n / 16

/-- Bytes of the cells that `n` bytes take (R258). -/
def poolBytes (n : Nat) : Nat := cellsOf n * 128

/-- Bytes of host packets among some packets of a half. -/
def hostBytes (h : Nat) (ps : List Pkt) : Nat :=
  ps.foldl (fun a p => if p.source = 1 ∧ p.half = h then a + poolBytes p.frame.length else a) 0

/-- Bytes of the TX data of a ring whose reads are out. -/
def RingWork.readBytes (w : RingWork) : Nat :=
  w.fetched.foldl (fun a d => if dOpcode d.bytes = 1 ∧ d.begun = false ∧ d.waits = false then a + poolBytes (dLength d.bytes) else a) 0

/-- Bytes of a half's host transit pool in use: TX data whose reads are out, and host packets that have not been resolved (R257). DESIGN
CHOICE (log 119). -/
def State.hostUse (s : State) (h : Nat) : Nat :=
  s.net.pipes.foldl (fun a e => a + hostBytes h e.2.inj7 + hostBytes h e.2.inj + hostBytes h (e.2.deepRun.map (·.pkt))) 0 +
  s.work.foldl (fun a e => if kindOfKey e.1 = 0 ∧ halfOfSq (numOfKey e.1) = h then a + e.2.readBytes else a) 0

/-- The pool of 2 MiB has room for `n` bytes. DESIGN CHOICE (log 119). -/
def State.hostRoom (s : State) (h n : Nat) : Bool := decide (s.hostUse h + poolBytes n ≤ 2097152)

/-- How many descriptors a visit to an SQ may fetch: 0 where it is not eligible (R144, R145), and none for a transmit ring while the host transit
pool is full or the pipeline has 256 host packets waiting; fetched descriptors take none of its injection credit (R31, R257). DESIGN CHOICE (log 147). -/
def State.fetchRoom (s : State) (n : Nat) : Nat :=
  match s.ring (sqKey n) with
  | none => 0
  | some r =>
    let w := s.workOf (sqKey n)
    let avail := (r.seen - r.dev).toNat - w.reading
    let room := 64 - s.enginePrefetch (engineOfSq n)
    let p := s.pipe r.pipe
    let own := match r.use with
      | .packet =>
        if r.role = .transmit ∧ (256 ≤ p.inj7.length + p.inj.length ∨ s.hostRoom (halfOfSq n) 1 = false) ∨
          r.role = .receive ∧ 2 * r.burst ≤ w.posted.length then 0
        else 512 - s.budgetUsed r.fid
      | .lrd => s.lrdCredit n
      | .cipher => min (s.cipherRoom (halfOfSq n)) (512 - s.budgetUsed r.fid)
    if r.state == .running && !r.destroying && (s.fn r.fid).state == .active then min (min r.burst avail) (min room own) else 0

/-- The next SQ in round robin after `last`, in ring-number order. -/
def roundRobin (last : Nat) (xs : List Nat) : Option Nat :=
  match xs.find? (fun n => decide (last < n)) with
  | some n => some n
  | none => xs.head?

/-- Gives WEIGHT tokens to the eligible SQs that have none given in this round (R145). -/
def State.giveTokens (ns : List Nat) (s : State) : State :=
  s.each (fun n s =>
    match s.ring (sqKey n) with
    | none => s
    | some r => s.modWork (sqKey n) (fun w => if w.given then w else { w with tokens := r.weight, given := true })) ns

/-- Issues the read of `m` descriptors from index `i`, in two requests where they pass the array's end (R146). -/
def State.readDescs (k : Nat) (r : Ring) (i m : Nat) (s : State) : State :=
  let slot := i % r.size
  let n1 := min m (r.size - slot)
  let s := s.issueRead r.fid (r.ringAddr + BitVec.ofNat 64 (slot * 64)) (n1 * 64) (.descs k)
  if n1 < m then s.issueRead r.fid r.ringAddr ((m - n1) * 64) (.descs k) else s

/-- One visit: a token is spent and up to BURST descriptors are fetched (R145). -/
def State.visit (e lvl n : Nat) (s : State) : State :=
  match s.ring (sqKey n) with
  | none => s
  | some r =>
    let w := s.workOf (sqKey n)
    let m := s.fetchRoom n
    let known := if w.reading = 0 ∧ r.readOut = false ∧ w.specAt = r.dev then min w.spec m else 0
    let s := s.readDescs (sqKey n) r (r.dev.toNat + w.reading + known) (m - known)
    let s := s.modWork (sqKey n) (fun w => { w with tokens := w.tokens - 1, reading := w.reading + m, spec := 0 })
    { s with hif := { s.hif with lastSq := Tab.set (e * 2 + lvl) n s.hif.lastSq } }

/-- The level of an SQ: 1 for class 7, 0 for the others (R145). -/
def State.levelOf (s : State) (n : Nat) : Nat :=
  match s.ring (sqKey n) with
  | some r => if r.cls = 7 then 1 else 0
  | none => 0

/-- WEIGHT and BURST of a RING_MODIFY come into force (R97). -/
def Ring.newRound (r : Ring) : Ring :=
  match r.arbNext with
  | none => r
  | some (w, b) => { r with weight := w, burst := b, arbNext := none }

/-- Between rounds of one level, weights that RING_MODIFY has given its SQs come into force for the next (R97). -/
def State.betweenRounds (e lvl : Nat) (s : State) : State :=
  let ns := (s.sqsOfEngine e).filter (fun n => s.levelOf n == lvl)
  if ns.any (fun n => (s.workOf (sqKey n)).given) then s else s.each (fun n s => s.modRing (sqKey n) Ring.newRound) ns

/-- A round of one level ends: its SQs' tokens lapse, and weights changed meanwhile come into force with the next round (R97, R145). -/
def State.endRound (e lvl : Nat) (s : State) : State :=
  (s.each (fun n s => s.modWork (sqKey n) (fun w => { w with given := false, tokens := 0 }))
    ((s.sqsOfEngine e).filter (fun n => s.levelOf n == lvl))).betweenRounds e lvl

/-- The eligible SQs of one level of an engine, and those of them that hold tokens (R144, R145). -/
def State.eligible (s : State) (e lvl : Nat) : List Nat := (s.sqsOfEngine e).filter (fun n => s.levelOf n == lvl && s.fetchRoom n != 0)
def State.holders (s : State) (e lvl : Nat) : List Nat := (s.eligible e lvl).filter (fun n => (s.workOf (sqKey n)).tokens != 0)

/-- One level of an engine's arbitration (R145): SQs that become eligible receive their tokens, a round without a holder gives way to the next,
one SQ is visited, and the round ends with it where no eligible SQ holds a token any more. -/
def State.arbitrate (e lvl : Nat) (s : State) : State :=
  let s := s.giveTokens (s.eligible e lvl)
  let s := if (s.holders e lvl).isEmpty then let s := s.endRound e lvl; s.giveTokens (s.eligible e lvl) else s
  match roundRobin (s.hif.lastSq.getD (e * 2 + lvl) 0) (s.holders e lvl) with
  | none => s
  | some n =>
    let s := s.visit e lvl n
    if (s.holders e lvl).isEmpty then s.endRound e lvl else s

/-- FETCH_VISIT (R145): class-7 SQs first; the others only while none of them is eligible. -/
def execFetchVisit (engine : Fin 32) (s : State) : Outcome :=
  let s := (s.betweenRounds engine 1).betweenRounds engine 0
  if !(s.eligible engine 1).isEmpty then done (s.arbitrate engine 1)
  else if !(s.eligible engine 0).isEmpty then done (s.arbitrate engine 0) else done s

/-! ## Descriptors (R139, R146, R149, R150, R133) -/

/-- The role a descriptor asks of a PACKET SQ (R133). -/
def descRole (d : Bytes) : Option SqRole :=
  if dOpcode d = 1 then some .transmit else if dOpcode d = 2 then some .receive else none

/-- The error code of a descriptor on a ring, or none (R133, R138, R149, R150). -/
def descError (r : Ring) (d frags : Bytes) : Option Nat :=
  if !descOk r.use d then some 3
  else if !fragsOk d frags then some 4
  else
    match descRole d with
    | none => none
    | some x => if r.role == .undecided || r.role == x then none else some 5

/-- A faulty descriptor: it completes with the status of its error, the ring enters ERROR and later fetched ones are discarded
(R139). -/
def State.descFail (n : Nat) (d : FDesc) (code : Nat) (s : State) : State :=
  let s := s.modWork (sqKey n) (fun w => { w with reading := 0, fetched := w.fetched ++ [{ d with begun := true }] })
  (s.earn n d.index (descCpl n d code)).ringError (sqKey n) code 0

/-- The completion of a work request that an endpoint cannot take: CANCELLED with AUX0 and AUX1 0 (R108, R295, R324). -/
def cancelledCpl (n : Nat) (r : Ring) (d : FDesc) : Bytes := cplBytes (dUser d.bytes) 0 0x1D 0 0 (dOpcode d.bytes) (n + r.cls * 262144) 0 0

/-! ## What descriptors name (R148, R150, R291, R361) -/

/-- The reads of the host memory that a descriptor names (R148, R150, R291, R361): its fragment table where it is INDIRECT, the data of a TX, a
cipher job, a WRITE or a WRITE_NOTIFY, each fragment at its own address, and the tag of a DECRYPT. -/
def State.readData (n : Nat) (r : Ring) (d : FDesc) (s : State) : State :=
  let u := ReadUse.data (sqKey n) d.index
  let op := dOpcode d.bytes
  let reads := op == 0x01 || op == 0x10 || op == 0x12 || r.use == .cipher && op != 0x0F
  let s := if dIndirect d.bytes then s.issueRead r.fid (BitVec.ofNat 64 (dAddr d.bytes)) (16 * dFragCount d.bytes) u else s
  let s := if reads then s.each (fun f s => s.issueRead r.fid f.1 f.2.1 u) d.frags else s
  if op = 0x21 then s.issueRead r.fid (BitVec.ofNat 64 (dTagAddr d.bytes)) 16 u else s

/-- The fetched descriptor of an index changed by `f`. -/
def State.modDesc (n : Nat) (index : BitVec 32) (f : FDesc → FDesc) (s : State) : State :=
  s.modWork (sqKey n) (fun w => { w with fetched := w.fetched.map (fun d => if d.index = index then f d else d) })

/-- The reads of a ring's TX data that wait for room in the host transit pool are issued in order while there is room, `k` at most (R257). -/
def State.pumpTx (n : Nat) : Nat → State → State
  | 0, s => s
  | k + 1, s =>
    match s.ring (sqKey n), (s.workOf (sqKey n)).fetched.find? (·.waits) with
    | some r, some d =>
      if s.hostRoom (halfOfSq n) (dLength d.bytes) then
        ((s.modDesc n d.index (fun d => { d with waits := false })).readData n r d).pumpTx n k
      else s
    | _, _ => s

/-- Reads of TX data that wait in a half, ring by ring (R257). DESIGN CHOICE (log 119). -/
def State.pumpHost (h : Nat) (s : State) : State :=
  s.each (fun k => State.pumpTx (numOfKey k) 512)
    ((s.work.filter (fun e => kindOfKey e.1 == 0 && halfOfSq (numOfKey e.1) == h && e.2.fetched.any (·.waits))).map (·.1))

/-! ## Packet descriptors (R151 to R153) -/

/-- The first fetched descriptor whose own effect has not taken place. -/
def State.nextDesc (s : State) (n : Nat) : Option FDesc := (s.workOf (sqKey n)).fetched.find? (fun d => !d.begun)

/-- Marks a descriptor's own effect as having taken place. -/
def State.begin_ (n : Nat) (index : BitVec 32) (s : State) : State := s.modDesc n index (fun d => { d with begun := true })

/-- The packets of a TX: its data with the inline CRC in place, segmented under LSO, each padded to 60 bytes; a frame longer than any port
sends, which LSO data without a TCP header or with long headers gives, is none, and the descriptor completes OK (R151, R173, R573). DESIGN CHOICE (log
115, 147). -/
def txFrames (d : FDesc) (data : Bytes) : List Bytes :=
  let x := txData d (slice data 0 (dLength d.bytes))
  ((if txLso d.bytes then lsoFrames (le d.bytes 18 2) x else [x]).filter (fun f => decide (f.length ≤ 9596))).map padTo60

/-- What a TX asks of its packets: the checksums of segments are in place already (R151); only the first carries the timestamp request
(R187). `seg` says that LSO has found a TCP header. -/
def txAsk (n : Nat) (d : FDesc) (seg first : Bool) : TxAsk :=
  let f := le d.bytes 16 1
  { csumL3 := bit f 0 && !seg, csumL4 := bit f 1 && !seg, inner := bit f 2,
    tstamp := if bit f 3 && first then some (n, d.index) else none }

/-- Hands a host packet to the ingress half of the pipeline its SQ is bound to (R34). -/
def State.inject (r : Ring) (p : Pkt) (s : State) : State :=
  s.modPipe r.pipe (fun q => if r.cls = 7 then { q with inj7 := q.inj7 ++ [p] } else { q with inj := q.inj ++ [p] })

/-- The packet of one frame of a TX. -/
def txPkt (n : Nat) (r : Ring) (d : FDesc) (seg first : Bool) (f : Bytes) : Pkt :=
  { frame := f, source := 1, fid := r.fid, pipe := r.pipe, sqCls := some r.cls, metaw := BitVec.ofNat 32 (le d.bytes 20 4),
    scope := r.fid, ask := txAsk n d seg first, half := halfOfFid r.fid }

/-- LSO finds the TCP header of a TX's data. -/
def txSegments (d : FDesc) (data : Bytes) : Bool :=
  txLso d.bytes && (lsoLocate (txData d (slice data 0 (dLength d.bytes)))).tcp.isSome

/-- Injects the frames of a TX in order. -/
def State.injectAll (n : Nat) (r : Ring) (d : FDesc) (seg : Bool) : Bool → List Bytes → State → State
  | _, [], s => s
  | first, f :: fs, s => (s.inject r (txPkt n r d seg first f)).injectAll n r d seg false fs

/-- TX (R151): the next descriptor's data is in the packet buffer and its packets wait for the ingress half; the completion is earned
then, or with TSTAMP when the first frame leaves (R156). -/
def execTx (ring : RingNo) (data : Bytes) (s : State) : Outcome :=
  let n := ring.toNat
  match s.ring (sqKey n), s.nextDesc n with
  | some r, some d =>
    if dOpcode d.bytes != 1 || d.waits then done s
    else
      let s := (s.endRead r.fid (.data (sqKey n) d.index)).begin_ n d.index
      let fs := txFrames d data
      let s := s.injectAll n r d (txSegments d data) true fs
      if bit (le d.bytes 16 1) 3 && !fs.isEmpty then done s else done (s.earn n d.index (descCpl n d 0))
  | _, _ => done s

/-- The descriptor whose timestamp request a packet carries, while the request has not been answered (R187). -/
def State.stampOf (s : State) (p : Pkt) : Option (Nat × FDesc) :=
  match p.ask.tstamp with
  | none => none
  | some (n, i) => ((s.workOf (sqKey n)).fetched.find? (fun d => d.index == i && d.cpl.isNone)).map (fun d => (n, d))

/-- A packet that carries a timestamp request leaves at a time, or is dropped or delivered elsewhere: the request is answered once, by the first
copy to leave, or without a time when the last copy is gone (R187). -/
def State.answerStamp (p : Pkt) (t : Option (BitVec 64)) (s : State) : State :=
  match s.stampOf p, t with
  | none, _ => s
  | some (n, d), some t => s.earn n d.index (putBytes (putBytes (descCpl n d 0) 13 [2]) 24 (toLe 8 t.toNat))
  | some (n, d), none =>
    if 1 < d.copies then s.modDesc n d.index (fun d => { d with copies := d.copies - 1 }) else s.earn n d.index (descCpl n d 0)

/-- A packet with a timestamp request goes out in `k` copies (R187). -/
def State.copyStamp (p : Pkt) (k : Nat) (s : State) : State :=
  match s.stampOf p with
  | none => s
  | some (n, d) => s.modDesc n d.index (fun d => { d with copies := max d.copies 1 + k - 1 })

/-- The completion of a buffer that RING_DESTROY gives back unused (R96, R157). DEDUCED (log 39). -/
def flushedCpl (sq : Nat) (b : RxBuf) : Bytes := cplBytes b.user.toNat 0 1 0 0 2 sq 0 0

/-- RX_POST (R152): the next descriptor's buffer is posted and held on chip; on a ring that is being destroyed it is given back (R96). -/
def execRxPost (ring : RingNo) (s : State) : Outcome :=
  let n := ring.toNat
  match s.nextDesc n with
  | none => done s
  | some d =>
    if dOpcode d.bytes != 2 then done s
    else
      let b : RxBuf := { index := d.index, user := BitVec.ofNat 64 (dUser d.bytes), addr := BitVec.ofNat 64 (dAddr d.bytes),
                         len := dLength d.bytes, tstamp := bit (le d.bytes 16 1) 0 }
      let s := s.dropDesc n d.index
      if (match s.ring (sqKey n) with
        | none => false
        | some r => r.destroying) then done ((s.causeCpl n none (flushedCpl n b)).settle n)
      else done (s.modWork (sqKey n) (fun w => { w with posted := w.posted ++ [b] }))

/-- NOP (R153): it moves no data, and completes once every earlier descriptor of its SQ has. -/
def execNop (ring : RingNo) (s : State) : Outcome :=
  let n := ring.toNat
  match s.nextDesc n with
  | none => done s
  | some d => if dOpcode d.bytes != 0x0F then done s else done ((s.begin_ n d.index).settle n)

/-! ## Delivery to receive rings (R152, R154) -/

/-- Fills posted buffers in order with a packet's bytes: the writes made, the buffers used and the bytes written. -/
def fillBufs : Nat → List RxBuf → Bytes → List (BitVec 64 × Bytes) × Nat × Nat
  | 0, _, _ => ([], 0, 0)
  | _, [], _ => ([], 0, 0)
  | fuel + 1, b :: bs, data =>
    let now := data.take b.len
    let rest := data.drop b.len
    if rest.isEmpty then ([(b.addr, now)], 1, now.length)
    else let r := fillBufs fuel bs rest; ((b.addr, now) :: r.1, r.2.1 + 1, now.length + r.2.2)


/-- The receive completion: only a network arrival carries a receive time and has its L4 checksum checked, by the vector and the frame as they are
at delivery (R154, R187, R204, R205). DEDUCED (log 146). -/
def rxCpl (sq : Nat) (b : RxBuf) (p : Pkt) (frameLen used written : Nat) : Bytes :=
  let trunc := decide (written < frameLen)
  let ts := b.tstamp && p.arrLp.isSome
  let k := if p.arrLp.isSome then checkL4 ((reparse false false p.hv p.frame).2 == .innerFrag) p.hv p.frame else (false, false)
  cplBytes b.user.toNat (if trunc then written else frameLen) (if trunc then 6 else 0)
    ((if ts then 2 else 0) + (if k.1 && k.2 then 4 else 0) + (if k.1 && !k.2 then 8 else 0)) used 2
    (sq + p.cls * 262144 + p.colour * 2097152) p.metaw.toNat (if ts then p.time.toNat else 0)

/-- Bytes that buffers hold. -/
def bufBytes (bs : List RxBuf) : Nat := bs.foldl (fun a b => a + b.len) 0

/-- RX_PACKET_DELIVERY (R152, R154, R156): the first packet that waits for the ring fills posted buffers in order; it completes once it is
written whole or 16 buffers are full, and until then waits for the next buffer posted. -/
def State.deliver (n : Nat) (s : State) : State :=
  let w := s.workOf (sqKey n)
  match s.ring (sqKey n), w.rxWait, w.posted with
  | some r, p :: ps, _ :: _ =>
    let f := p.edited
    let stopped := match s.ring (cqKey r.bind) with
      | none => true
      | some c => c.state == .fetchStopped || s.cqHolding r.bind
    if r.role != .receive || r.state == .fetchStopped || stopped || !s.dmaOn r.fid then s
    else
      let off := bufBytes w.filled
      let x := fillBufs (16 - w.filled.length) w.posted (f.drop off)
      let s := s.each (fun (e : BitVec 64 × Bytes) s => s.dmaWrite r.fid e.1 e.2) x.1
      let used := w.filled ++ w.posted.take x.2.1
      let s := s.modWork (sqKey n) (fun w => { w with filled := used, posted := w.posted.drop x.2.1 })
      if off + x.2.2 < f.length ∧ used.length < 16 then s
      else
        let s := s.modWork (sqKey n) (fun w => { w with rxWait := ps, filled := [] })
        let s := (s.bump 0 r.fid 0).bumpBy 0 r.fid 1 f.length
        match used with
        | [] => s
        | b :: _ =>
          let s := match p.arrLp with
            | some lp => if b.tstamp then s.bump 1 lp 14 else s
            | none => s
          ((s.causeCpl n none (rxCpl n b p f.length used.length (off + x.2.2))).answerStamp p none).settle n
  | _, _, _ => s

/-- A packet fails a check of R528 on a half: it is dropped, counted, and the fault charged where R519 has a row (R30, R532). -/
def State.checkDrop (h : Nat) (c : PktCheck) (p : Pkt) (s : State) : State :=
  (match c with
    | .ok => s
    | .fifo => s.integrityDrop h 2
    | .buffer row => (s.memFault row.toNat true).integrityDrop h (if resKind row.toNat = 4 then 6 else 3)
    | .vector => ((s.bump 2 p.pipe 11).integrityDrop h 4).chargeDegrade (resId 12 p.pipe) 1
    | .carry => (s.bump 3 h 9226).integrityDrop h 10).answerStamp p none

/-- The packet at the front of a receive ring fails a check as it is read for delivery: the buffers it had filled wait for the next one
(R528). DESIGN CHOICE (log 120). -/
def State.deliverFail (n : Nat) (c : PktCheck) (s : State) : State :=
  match (s.workOf (sqKey n)).rxWait with
  | [] => s
  | p :: ps =>
    (s.modWork (sqKey n) (fun w => { w with rxWait := ps, filled := [], posted := w.filled ++ w.posted })).checkDrop (halfOfSq n) c p

/-- RX_PACKET_DELIVERY (R152, R528). -/
def execRxPacketDelivery (ring : RingNo) (s : State) (check : PktCheck := .ok) (mem : MemEnv := {}) : Outcome :=
  match s.memEnv 0 { mem with flips := [] } check with
  | (.ok, s) => done (s.deliver ring.toNat)
  | (c, s) => done (s.deliverFail ring.toNat c)

/-- COMPLETION_WRITE (R156, R158). -/
def execCompletionWrite (cq : RingNo) (pick : Nat) (s : State) : Outcome := done (s.completionWrite cq.toNat pick)

end Sys2Proof.Machine
end

