-- ==== Sys2Proof/Machine/EmTable.lean ====
section
/-! DEFINITION. The exact-match table: keys and hashes, lookups, insertion with relocation, deletion, learning and aging
(R241 to R253). -/

namespace Sys2Proof.Machine

open Sys2Proof

/-! ## SipHash-2-4 (R243) -/

/-- The four words of SipHash state. -/
structure Sip where
  v0 : BitVec 64
  v1 : BitVec 64
  v2 : BitVec 64
  v3 : BitVec 64
  deriving DecidableEq, Repr

/-- One SipRound. -/
def sipRound (s : Sip) : Sip :=
  let v0 := s.v0 + s.v1
  let v1 := (s.v1.rotateLeft 13) ^^^ v0
  let v0 := v0.rotateLeft 32
  let v2 := s.v2 + s.v3
  let v3 := (s.v3.rotateLeft 16) ^^^ v2
  let v0 := v0 + v3
  let v3 := (v3.rotateLeft 21) ^^^ v0
  let v2 := v2 + v1
  let v1 := (v1.rotateLeft 17) ^^^ v2
  let v2 := v2.rotateLeft 32
  ⟨v0, v1, v2, v3⟩

/-- One message word: two rounds. -/
def sipWord (s : Sip) (m : BitVec 64) : Sip :=
  let t := sipRound (sipRound { s with v3 := s.v3 ^^^ m })
  { t with v0 := t.v0 ^^^ m }

/-- SipHash-2-4 of 16 bytes under a 128-bit key. PRESUMED (log 40). -/
def sip16 (key : BitVec 128) (bs : Bytes) : BitVec 64 :=
  let k0 := key.setWidth 64
  let k1 := (key >>> 64).setWidth 64
  let s : Sip := ⟨k0 ^^^ 0x736f6d6570736575, k1 ^^^ 0x646f72616e646f6d, k0 ^^^ 0x6c7967656e657261, k1 ^^^ 0x7465646279746573⟩
  let s := sipWord s (BitVec.ofNat 64 (le bs 0 8))
  let s := sipWord s (BitVec.ofNat 64 (le bs 8 8))
  let s := sipWord s (BitVec.ofNat 64 (16 * 2 ^ 56))
  let s := { s with v2 := s.v2 ^^^ 0xff }
  let s := sipRound (sipRound (sipRound (sipRound s)))
  s.v0 ^^^ s.v1 ^^^ s.v2 ^^^ s.v3

/-! ## Entries (R242) -/

def emStatic (e : Bytes) : Bool := bit (le e 1 1) 0
def emKind (e : Bytes) : Nat := le e 16 1 % 8
def emClass (e : Bytes) : Nat := le e 17 1 % 8
def emClassValid (e : Bytes) : Bool := bit (le e 17 1) 3
def emColour (e : Bytes) : Nat := bits (le e 17 1) 4 2
def emColourValid (e : Bytes) : Bool := bit (le e 17 1) 6
def emDestFid (e : Bytes) : Nat := le e 18 2 % 8192
def emDest (e : Bytes) : Nat := le e 20 4 % 262144
def emMeta (e : Bytes) : Nat := le e 24 4
def emGen (e : Bytes) : Nat := le e 28 1

/-- The 16 key bytes of a type, identifier and address (R243). -/
def emKeyOf (ty id : Nat) (mac : Bytes) : Bytes := toLe 1 ty ++ [0, 0, 0] ++ toLe 4 id ++ slice mac 0 6 ++ [0, 0]
/-- The key bytes of an entry: bytes 0 and 4 to 13. -/
def emKeyBytes (e : Bytes) : Bytes := emKeyOf (le e 0 1 % 4) (le e 4 4) (slice e 8 6)

/-- The two buckets of a key in a pipeline (R243). -/
def Pipe.buckets (p : Pipe) (k : Bytes) : Nat × Nat :=
  let h1 := crc32c 0 k % 65536
  let h2 := (sip16 p.seed k).toNat % 65536
  (h1, if h2 = h1 then (h1 + 1) % 65536 else h2)

/-- Where an entry stands. -/
inductive EmLoc where
  | way (n : Nat)
  | stash (i : Nat)
  deriving DecidableEq, Repr

/-- The ways of a bucket. -/
def waysOf (b : Nat) : List Nat := [4 * b, 4 * b + 1, 4 * b + 2, 4 * b + 3]

/-- A lookup: both buckets, then the stash (R244). -/
def Pipe.find (p : Pipe) (k : Bytes) : Option (EmLoc × EmEntry) :=
  let b := p.buckets k
  let hit := (waysOf b.1 ++ waysOf b.2).findSome? (fun w =>
    match Tab.find w p.ways with
    | some e => if emKeyBytes e.bytes = k then some (EmLoc.way w, e) else none
    | none => none)
  match hit with
  | some x => some x
  | none =>
    match p.stash.findIdx? (fun e => emKeyBytes e.bytes == k) with
    | some i => (p.stash[i]?).map (fun e => (EmLoc.stash i, e))
    | none => none

/-- The entry at a place replaced. -/
def Pipe.putAt (p : Pipe) (l : EmLoc) (e : EmEntry) : Pipe :=
  match l with
  | .way w => { p with ways := Tab.set w e p.ways }
  | .stash i => { p with stash := p.stash.set i e }

/-- The entry at a place removed. -/
def Pipe.removeAt (p : Pipe) (l : EmLoc) : Pipe :=
  match l with
  | .way w => { p with ways := Tab.del w p.ways }
  | .stash i => { p with stash := p.stash.eraseIdx i }

/-! ## Insertion and relocation (R245, R246) -/

/-- The first free way of a bucket. -/
def Pipe.freeWay (p : Pipe) (b : Nat) : Option Nat := (waysOf b).find? (fun w => (Tab.find w p.ways).isNone)

/-- The other bucket of the entry in way `w`. -/
def Pipe.otherBucket (p : Pipe) (w : Nat) : Option Nat :=
  match Tab.find w p.ways with
  | none => none
  | some e =>
    let b := p.buckets (emKeyBytes e.bytes)
    some (if b.1 = w / 4 then b.2 else b.1)

/-- Breadth-first search for a chain of moves: each path lists ways, last first; answers the first path whose last occupant has a free way
in its other bucket, with that way (R245 step 3). -/
def Pipe.chain (p : Pipe) : Nat → List (List Nat) → Option (List Nat × Nat)
  | 0, _ => none
  | fuel + 1, paths =>
    let ends := paths.findSome? (fun path =>
      match path with
      | [] => none
      | w :: _ =>
        match p.otherBucket w with
        | none => none
        | some b => (p.freeWay b).map (fun f => (path, f)))
    match ends with
    | some x => some x
    | none =>
      p.chain fuel (paths.flatMap (fun path =>
        match path with
        | [] => []
        | w :: _ =>
          match p.otherBucket w with
          | none => []
          | some b => ((waysOf b).filter (fun v => !path.contains v)).map (fun v => v :: path)))

/-- Executes the moves of a chain from the last to the first (R245 step 4, R246). -/
def Pipe.moves (p : Pipe) : List Nat → Nat → Pipe
  | [], _ => p
  | w :: ws, free =>
    match Tab.find w p.ways with
    | none => p
    | some e => ({ p with ways := Tab.del w (Tab.set free e p.ways) } : Pipe).moves ws w

/-- Places an entry in its buckets: a free way, or a chain of at most 8 moves; answers the pipeline and the moves made (R245). -/
def Pipe.place (p : Pipe) (e : EmEntry) : Option (Pipe × Nat) :=
  let b := p.buckets (emKeyBytes e.bytes)
  match (p.freeWay b.1).orElse (fun _ => p.freeWay b.2) with
  | some w => some ({ p with ways := Tab.set w e p.ways }, 0)
  | none =>
    match p.chain 8 ((waysOf b.1 ++ waysOf b.2).map (fun w => [w])) with
    | none => none
    | some (path, f) =>
      let q := p.moves path f
      match path.getLast? with
      | none => none
      | some w => some ({ q with ways := Tab.set w e q.ways }, path.length)

/-- How an insertion ends: the pipeline after it, the moves made, and whether it failed with TABLE_FULL. -/
structure Inserted where
  pipe   : Pipe
  moves  : Nat := 0
  full   : Bool := false

/-- Inserts a new key: buckets, then the stash of 64 (R245). DEDUCED (log 41). -/
def Pipe.insertNew (p : Pipe) (e : EmEntry) : Inserted :=
  match p.place e with
  | some (q, n) => { pipe := q, moves := n }
  | none => if p.stash.length < 64 then { pipe := { p with stash := p.stash ++ [e] } } else { pipe := p, full := true }

/-- Tries to move each stash entry back into its buckets; answers the pipeline and the moves made (R245). -/
def Pipe.unstash (p : Pipe) : List EmEntry → Pipe × List EmEntry × Nat
  | [] => (p, [], 0)
  | e :: es =>
    match p.place e with
    | some (q, n) => let r := q.unstash es; (r.1, r.2.1, r.2.2 + n + 1)
    | none => let r := p.unstash es; (r.1, e :: r.2.1, r.2.2)

/-- The moves of R245 after a deletion or an aging removal. -/
def State.emTidy (n : Nat) (s : State) : State :=
  let p := s.pipe n
  let r := p.unstash p.stash
  (s.modPipe n (fun _ => { r.1 with stash := r.2.1 })).bumpBy 2 n 144 r.2.2

/-- Puts the result of an insertion into effect: RELOCATIONS, INSERT_FAILED, and EV_STASH_HIGH when the stash reaches 48 (R271, R272).
DEDUCED (log 41). -/
def State.emApply (n : Nat) (x : Inserted) (s : State) : State :=
  let before := (s.pipe n).stash.length
  let s := (s.modPipe n (fun _ => x.pipe)).bumpBy 2 n 144 x.moves
  let s := if x.full then s.bump 2 n 145 else s
  if before < 48 ∧ x.pipe.stash.length = 48 then s.postInfra 0x0301 n (toLe 1 48) else s

/-! ## Stale entries (R248) -/

/-- An RX_RING entry whose generation is not its function's. DEDUCED (log 41). -/
def State.emStale (s : State) (e : Bytes) : Bool := emKind e == 2 && emGen e != (s.fn (emDestFid e)).gen.toNat

/-! ## Learn records (R250, R251) -/

/-- A learn record with LOST 0 and PHASE 0. -/
def learnRec (s : State) (p kind lp oldLp destKind : Nat) (e : Bytes) : Bytes :=
  slice e 8 6 ++ [0, 0] ++ toLe 3 (le e 4 3) ++ toLe 1 (le e 0 1 % 4) ++ toLe 1 kind ++ [0] ++ toLe 1 lp ++ [0xF0] ++ toLe 1 p ++
  toLe 1 oldLp ++ toLe 1 destKind ++ [0] ++ toLe 4 0 ++ toLe 8 s.devNow.toNat

/-- A record is lost (R251). DEDUCED (log 53). -/
def State.learnLost (p : Nat) (s : State) : State := (s.bump 2 p 143).modPipe p (fun q => { q with lost := q.lost + 1 })

/-- Writes a learn record, keeps it while its ring is full, or loses it (R250, R251). -/
def State.learnRecord (p : Nat) (rec : Bytes) (s : State) : State :=
  let q := s.pipe p
  match s.ring (cqKey q.learnRing) with
  | none => s.learnLost p
  | some r =>
    if q.noLearn || (s.fn r.fid).state != .active then s.learnLost p
    else if q.recFifo.isEmpty && !s.cqBlocked q.learnRing then s.learnWrite p q.learnRing rec
    else
      let s := if q.recFifo.isEmpty && r.state != .error then s.readIndex (cqKey q.learnRing) else s
      if q.recFifo.length < 256 then s.modPipe p (fun q => { q with recFifo := q.recFifo ++ [rec] }) else s.learnLost p

/-! ## Learning (R249) -/

/-- The entry that learning writes. -/
def learnedEntry (r : LearnReq) : Bytes :=
  toLe 1 r.keyType ++ [2, 0, 0] ++ toLe 4 r.keyId ++ slice r.mac 0 6 ++ [0, 0] ++ [1, 0] ++ toLe 2 0x1FFF ++ toLe 4 r.lp ++
  toLe 4 0 ++ [0, 0, 0, 0]

/-- Queues a learn request; one that finds 256 waiting is discarded (R249). DEDUCED (log 41). -/
def State.learnAsk (p : Nat) (r : LearnReq) (s : State) : State :=
  if (s.pipe p).learnQ.length < 256 then s.modPipe p (fun q => { q with learnQ := q.learnQ ++ [r] }) else s.bump 2 p 142

/-- Sets the hit bit of an entry. -/
def State.emHit (p : Nat) (l : EmLoc) (e : EmEntry) (s : State) : State :=
  s.modPipe p (fun q => q.putAt l { e with hit := true })

/-- What the source lookup of a network arrival leads to (R249). -/
def State.learnFrom (p lp ty id : Nat) (mac : Bytes) (found : Option (EmLoc × EmEntry)) (s : State) : State :=
  let req : LearnReq := { moved := false, keyType := ty, keyId := id, mac := mac, lp := lp }
  match found with
  | none => s.learnAsk p req
  | some (l, e) =>
    if !emStatic e.bytes && s.emStale e.bytes then s.learnAsk p req
    else if !emStatic e.bytes && emKind e.bytes == 1 && emDest e.bytes != lp then
      (s.emHit p l e).learnAsk p { req with moved := true }
    else s.emHit p l e

/-- LEARN_REQUEST_PROCESS (R249): the unit takes the first request and reads the key again. -/
def State.learnStep (p : Nat) (s : State) : State :=
  match (s.pipe p).learnQ with
  | [] => s
  | r :: rs =>
    let s := s.modPipe p (fun q => { q with learnQ := rs })
    let e := learnedEntry r
    match (s.pipe p).find (emKeyBytes e), r.moved with
    | none, false =>
      let x := (s.pipe p).insertNew { bytes := e, hit := true }
      let s := s.emApply p x
      if x.full then (s.bump 2 p 141).learnRecord p (learnRec s p 4 r.lp 0 1 e)
      else (s.bump 2 p 138).learnRecord p (learnRec s p 1 r.lp 0 1 e)
    | some (l, o), false =>
      if !emStatic o.bytes && s.emStale o.bytes then
        ((s.modPipe p (fun q => q.putAt l { bytes := e, hit := true })).bump 2 p 138).learnRecord p (learnRec s p 1 r.lp 0 1 e)
      else s
    | some (l, o), true =>
      if emStatic o.bytes || emKind o.bytes != 1 || emDest o.bytes == r.lp then s
      else
        ((s.modPipe p (fun q => q.putAt l { o with bytes := putBytes o.bytes 20 (toLe 4 r.lp) })).bump 2 p 139).learnRecord p
          (learnRec s p 2 r.lp (emDest o.bytes) 1 e)
    | none, true => s

/-- LEARN_REQUEST_PROCESS (R249). -/
def execLearnRequestProcess (pipe : PipeId) (s : State) : Outcome := done (s.learnStep pipe)

/-! ## Aging (R252) -/

/-- The record of an entry that aging removes. -/
def State.agedRecord (p : Nat) (e : EmEntry) (s : State) : State :=
  (s.bump 2 p 140).learnRecord p
    (learnRec s p 3 (if emKind e.bytes = 1 then emDest e.bytes % 128 else 0) 0 (emKind e.bytes) e.bytes)

/-- An entry is removed by aging: its record is written, and stash entries are tried again (R245, R252). -/
def State.ageOut (p : Nat) (e : EmEntry) (s : State) : State :=
  match (s.pipe p).find (emKeyBytes e.bytes) with
  | none => s
  | some (l, _) => ((s.modPipe p (fun q => q.removeAt l)).agedRecord p e).emTidy p

/-- Every hit bit is cleared (R252). -/
def Pipe.clearHits (q : Pipe) : Pipe :=
  { q with ways := q.ways.mapV (fun _ e => { e with hit := false }), stash := q.stash.map (fun e => { e with hit := false }) }

/-- An aging pass over every bucket and then the stash: entries not static whose hit bit is clear are removed one at a time, and every hit bit is
cleared (R245, R252). -/
def State.agePass (p : Nat) (s : State) : State :=
  let q := s.pipe p
  let gone := (q.ways.map (·.2) ++ q.stash).filter (fun e => !emStatic e.bytes && !e.hit)
  (s.each (State.ageOut p) gone).modPipe p Pipe.clearHits

/-- AGING_PASS (R252): every AGING_MS ms of device time from the commit point of PIPE_CONFIG. -/
def execAgingPass (pipe : PipeId) (dt : Nat) (s : State) : Outcome :=
  let s := s.advance dt
  let q := s.pipe pipe
  if q.agingMs ≠ 0 ∧ q.agingDue ≤ s.clock.dev then
    done ((s.agePass pipe).modPipe pipe (fun q => { q with agingDue := q.agingDue + q.agingMs * 1000000 }))
  else done s

end Sys2Proof.Machine
end

