-- ==== Sys2Proof/Machine/Threads.lean ====
section
/-! DEFINITION. Threads and the packets that reach them: access to cores, threads and channels, and Byre delivery (R387, R391, R403,
R408). -/

namespace Sys2Proof.Machine

open Sys2Proof

/-! ## Units -/

def State.core (s : State) (c : Nat) : Core := s.off.cores.getD c {}
def State.modCore (c : Nat) (f : Core → Core) (s : State) : State :=
  { s with off := { s.off with cores := s.off.cores.upd c {} f } }
def State.thread (s : State) (t : Nat) : Thread := s.off.threads.getD t {}
def State.modThread (t : Nat) (f : Thread → Thread) (s : State) : State :=
  { s with off := { s.off with threads := s.off.threads.upd t {} f } }
def State.chan (s : State) (c : Nat) : Option Chan := Tab.find c s.off.chans
def State.setChan (c : Nat) (x : Chan) (s : State) : State := { s with off := { s.off with chans := Tab.set c x s.off.chans } }
def coreOf (t : Nat) : Nat := t / 16
/-- The half of a thread (R377). -/
def halfOfThread (t : Nat) : Nat := t / 1024
def halfOfCore (c : Nat) : Nat := c / 64

/-- The thread neither runs nor will: STOPPED, FAULTED or LOST. -/
def ThState.off : ThState → Bool
  | .stopped | .faulted | .lost => true
  | _ => false

/-- The core delivers packets to its threads: RUN or RECOVERY (R387). -/
def State.delivers (s : State) (t : Nat) : Bool := decide (2 ≤ (s.core (coreOf t)).mode)

/-- The thread can take packets: a spreader does not skip it (R261, R387). -/
def State.threadLive (s : State) (t : Nat) : Bool := s.delivers t && !(s.thread t).state.off

/-- A packet ends here: a timestamp it owed is answered without one (R187). -/
def State.dropPkt (p : Pkt) (s : State) : State := s.answerStamp p none

/-! ## Byre delivery (R403, R408) -/

/-- Byre packets in a thread's queue. -/
def Thread.byreCount (t : Thread) : Nat := t.queue.countP (fun p => p.origin == 1)

/-- Moves packets of Byre queue `k` into the queue of the thread bound to it, in order: at most 4 of its 8 entries; a thread that is
STOPPED, FAULTED or LOST discards what reaches it (R391, R403, R408). DEDUCED (log 67). DESIGN CHOICE (log 123). -/
def State.byrePump (k : Nat) : Nat → State → State
  | 0, s => s
  | n + 1, s =>
    match Tab.find k s.off.bind, s.byreQ k with
    | some t, p :: ps =>
      let th := s.thread t
      let take := fun (s : State) => { s with net := { s.net with byre := Tab.set k ps s.net.byre } }
      if !s.delivers t then s
      else if th.state.off then (((take s).bump 3 p.half 198).dropPkt p).byrePump k n
      else if decide (8 ≤ th.queue.length) || decide (4 ≤ th.byreCount) then s
      else ((take s).modThread t (fun th => { th with queue := th.queue ++ [{ pkt := p, origin := 1, srcId := k }] })).byrePump k n
    | _, _ => s

/-- Delivers from the Byre queues bound to a thread, lowest number first. -/
def State.feedThread (t : Nat) (s : State) : State :=
  s.each (fun k s => s.byrePump k 1024) ((s.off.bind.filter (fun e => e.2 == t)).map (·.1))

/-! ## The stall sentinel's conditions (R399) -/

/-- Slots of a core's table that a thread owns. -/
def State.slotsOf (s : State) (t : Nat) : Nat := (s.core (coreOf t)).slots.countP (· == t % 16)
/-- The threads of a core. -/
def threadsOf (c : Nat) : List Nat := (List.range 16).map (fun i => 16 * c + i)

/-- Every thread of the core is WAITING, STOPPED or FAULTED or owns no slot, none is HALTED, and no external event source is armed. -/
def State.coreQuiet (s : State) (c : Nat) : Bool :=
  (threadsOf c).all (fun t =>
    let th := s.thread t
    th.state != .halted && (th.state.off || th.state == .waiting || s.slotsOf t == 0) && th.timer.isNone && th.lookups.isEmpty) &&
  !s.net.spread.any (fun e => e.2.threads.any (fun t => coreOf t == c)) && !s.off.bind.any (fun e => coreOf e.2 == c)

/-- The sentinel's count is reset when a condition ends: it can fire again. -/
def State.coreTidy (c : Nat) (s : State) : State := if s.coreQuiet c then s else s.modCore c (fun x => { x with fired := false })

end Sys2Proof.Machine
end

