-- ==== Sys2Proof/Machine/Classify.lean ====
section
/-! DEFINITION. The ingress half: header slots, parsing, malformed packets, deep parse, classification, resolution and admission
(R34, R35, R193, R213, R214, R217 to R221, R226 to R240, R254 to R262). -/

namespace Sys2Proof.Machine

open Sys2Proof

/-! ## Actions (R235) -/

def aVerb (a : Bytes) : Nat := le a 0 1 % 16
def aRecirc (a : Bytes) : Nat := le a 1 1 % 4
def aDecap (a : Bytes) : Bool := bit (le a 1 1) 2
def aCount (a : Bytes) : Bool := bit (le a 1 1) 3
def aNoLearn (a : Bytes) : Bool := bit (le a 1 1) 4
def aCapDrop (a : Bytes) : Bool := bit (le a 1 1) 5
def aKind (a : Bytes) : Nat := le a 2 1 % 8
def aByreQ (a : Bytes) : Nat := le a 3 1 % 32
def aTarget (a : Bytes) : Nat := le a 4 4 % 262144
def aSa (a : Bytes) : Option Nat := if bit (le a 8 4) 31 then some (le a 8 4 % 131072) else none
def aClass (a : Bytes) : Option Nat := if bit (le a 12 1) 3 then some (le a 12 1 % 8) else none
def aColour (a : Bytes) : Option Nat := if bit (le a 12 1) 6 then some (bits (le a 12 1) 4 2) else none
def aQueue (a : Bytes) : Option Nat := if bit (le a 13 1) 3 then some (le a 13 1 % 8) else none
def aCounter (a : Bytes) : Nat := le a 14 2 % 64

/-! ## Drops and the Byre (R29, R260) -/

/-- Packets whose FORWARD verdict the reorder stage holds (R264). -/
def Spread.heldPkts (g : Spread) : List Pkt :=
  g.held.filterMap (fun e => match e.2 with
    | .forward p _ => some p
    | .discard => none)

/-- Bytes of the offload pool in use in a half: packets buffered there that stand in Byre queues, in spread groups to the end of reorder, or with
threads (R257, R258). DEDUCED (log 46). -/
def State.offloadUse (s : State) (h : Nat) : Nat :=
  let sz := fun (ps : List Pkt) => ps.foldl (fun a p => a + (if p.half = h then cellsOf p.frame.length * 128 else 0)) 0
  s.net.byre.foldl (fun a e => a + sz e.2) 0 + s.net.spread.foldl (fun a e => a + sz e.2.waitq + sz e.2.heldPkts) 0 +
  s.off.threads.foldl (fun a e => a + sz (e.2.queue.map (·.pkt)) + (match e.2.held with
    | some p => if p.pkt.half ≠ h then 0 else if p.origin = 2 then 9600 else sz [p.pkt]
    | none => 0)) 0

/-- The offload pool of the half that buffers a packet has room for it (R257, R258, R260, R262). DEDUCED (log 46). -/
def State.offloadRoom (s : State) (p : Pkt) : Bool := decide (s.offloadUse p.half + cellsOf p.frame.length * 128 ≤ 6291456)

/-- Cross-half traffic in split mode is dropped on the half that holds it (R37, R275). -/
def State.splitDrop (p : Pkt) (s : State) : State := (s.bump 3 p.half 9216).dropPkt p

/-- A packet goes to Byre queue `q` of half `h`: queues 0 to 3 count it and discard it, the others hold at most 1,024 (R37, R260). DEDUCED (log
46). -/
def State.byreEnqueue (h q : Nat) (p : Pkt) (s : State) : State :=
  let k := h * 32 + q
  if s.apart && p.half != h then s.splitDrop p
  else if (s.byreQ k).length < 1024 ∧ s.offloadRoom p = true then
    let s := s.bump 3 h q
    if q < 4 then s.dropPkt p
    else
      let p := { p with entered := s.devNow }
      (({ s with net := { s.net with byre := Tab.set k (s.byreQ k ++ [p]) s.net.byre } }).answerStamp p none).byrePump k 1024
  else
    let s := s.bump 3 h (32 + q)
    (s.postInfra 0x0303 k (toLe 4 (s.stat 3 h (32 + q) % 4294967296))).dropPkt p

/-! ## Malformed packets (R213, R214) -/

/-- What packets finish under in the configuration in force. -/
def Pipe.nowCfg (q : Pipe) : OldCfg := ⟨q.malAct, q.sampled, q.miss⟩
/-- What packets finish under in the configuration `cfg`, in force or an earlier one (R213, R222). -/
def Pipe.cfgOf (q : Pipe) (cfg : Nat) : OldCfg := if cfg = q.cfg then q.nowCfg else q.oldMal.getD cfg q.nowCfg
/-- Another malformed packet of a reason under configuration `cfg`. -/
def Pipe.malCount (q : Pipe) (cfg reason : Nat) : Pipe :=
  if cfg = q.cfg then { q with sampled := q.sampled.upd reason 0 (· + 1) }
  else { q with oldMal := q.oldMal.upd cfg q.nowCfg (fun e => { e with sampled := e.sampled.upd reason 0 (· + 1) }) }

/-- The malformed packet goes to the Byre: always, or as the first and every 1,024th of its reason (R213). DEDUCED (log 46). -/
def malByre (m : OldCfg) (reason : Nat) : Bool :=
  match m.mal.toNat % 4 with
  | 1 => true
  | 2 => m.sampled.getD reason 0 % 1024 == 0
  | _ => false

/-- A malformed packet: REASON, its counters, and the MALFORMED_ACTION of the configuration it was taken under (R214, R215, R222). -/
def State.malformed (n cfg reason : Nat) (p : Pkt) (s : State) : State :=
  let m := (s.pipe n).cfgOf cfg
  let s := ((s.bump 2 n 5).bump 2 n (64 + reason)).modPipe n (fun q => q.malCount cfg reason)
  if malByre m reason then
    (s.bump 2 n 6).byreEnqueue (halfOfPipe n) (m.mal.toNat / 4 % 32) { p with hv := Hv.put 10 1 reason p.hv }
  else s.dropPkt p

/-! ## The classification key (R228 to R230) -/

/-- The 64-byte key of a packet. -/
def keyBytes (p : Pkt) (lp scope : Nat) (egress : Bool) : Bytes :=
  let h := p.hv
  let inner := hvHas h 12 || hvHas h 13
  let deep := bit (le h 2 1) 7 && bit (le h 11 1) 7
  let o := if inner then 144 else 96
  let ports := if hvHas h 7 then slice h 104 4 else slice h (if inner then 148 else 100) 4
  let outerLow := if !inner then [0, 0, 0, 0] else if hvHas h 3 then slice h 80 4 else if hvHas h 4 then slice h 92 4 else [0, 0, 0, 0]
  let addrs := if deep then slice h 208 32 else if inner then slice h 112 32 else slice h 64 32
  slice h 0 2 ++ slice h 2 1 ++ toLe 1 (le h 3 1 % 16 + (if p.emHit then 16 else 0) + p.emKind * 32) ++
  toLe 1 (lp + (if egress then 128 else 0)) ++ slice h 11 1 ++ toLe 2 scope ++ toLe 4 p.metaw.toNat ++
  slice h 24 2 ++ slice h 28 2 ++ slice h 48 3 ++ slice h o 1 ++ slice h (o + 1) 1 ++ slice h (o + 3) 1 ++ ports ++
  slice h (o + 2) 1 ++ toLe 1 (b2n inner + 2 * b2n deep) ++ outerLow ++ addrs

/-- A rule's masked key equals the masked packet key. -/
def maskedEq : Bytes → Bytes → Bytes → Bool
  | m :: ms, k :: ks, x :: xs => (k &&& m) == (x &&& m) && maskedEq ms ks xs
  | _, _, _ => true

/-- The rules a pipeline's TCAM holds: those of east are frozen in split mode (R37). -/
def State.rulesOf (s : State) (pipe : Nat) : List Rule :=
  if halfOfPipe pipe = 1 then s.rel.rulesE.getD s.net.rules else s.net.rules

/-- Bytes with one bit turned. -/
def turnBit (b : Bytes) (i : Nat) : Bytes := b.set (i / 8) (b.getD (i / 8) 0 ^^^ ((1 : Byte) <<< (i % 8)))

/-- A rule as a pipeline's TCAM holds it, with the bits that have flipped there (R531). -/
def Rule.held (r : Rule) (fs : List TcamFlip) : Rule :=
  fs.foldl (fun r f =>
    if f.rule != r.id then r
    else if f.bit.val < 512 then { r with key := turnBit r.key f.bit.val } else { r with kmask := turnBit r.kmask (f.bit.val - 512) }) r

/-- The flipped bits of a pipeline's TCAM. -/
def State.flipsOf (s : State) (pipe : Nat) : List TcamFlip := (s.net.flips.filter (fun e => e.1 == pipe)).map (·.2)

/-- The first rule of a pipeline and direction that matches as the TCAM holds it (R231, R531): rules stand in search order. -/
def State.tcam (s : State) (pipe : Nat) (egress : Bool) (key : Bytes) : Option Rule :=
  let fs := s.flipsOf pipe
  (s.rulesOf pipe).find? (fun r => r.egress == egress && bit r.mask pipe && maskedEq (r.held fs).kmask (r.held fs).key key)

/-- COUNT: the rule's owner's counter and its bytes (R235, R274). DEDUCED (log 53). -/
def State.countRule (r : Rule) (n : Nat) (s : State) : State :=
  if aCount r.action then
    (s.bump 0 r.fid (64 + 2 * aCounter r.action)).bumpBy 0 r.fid (65 + 2 * aCounter r.action) n
  else s

/-! ## Routes and flood sets (R254 to R256) -/

/-- The copy of a half (R254). -/
def State.routes (s : State) (h : Nat) : List Bytes := if h = 0 then s.net.routesW else s.net.routesE

/-- A host route of a key type and address in a half's copy. -/
def State.routeFind (s : State) (h ty : Nat) (addr : Bytes) : Option Bytes :=
  (s.routes h).find? (fun e => le e 0 1 % 4 == ty && slice e 8 16 == slice addr 0 16)

/-- A flood set's LP mask in a half's copy. -/
def State.floodMask (s : State) (h set : Nat) : Option Nat :=
  ((s.routes h).find? (fun e => le e 0 1 % 4 == 2 && le e 4 2 % 64 == set)).map (fun e => le e 8 16)

/-- The TABLE_LOOKUP response for the key fields of an entry (R101, R409): TABLE 0 of a pipeline, TABLE 1 of a half's copy. -/
def State.lookupBytes (s : State) (table pipe half : Nat) (entry : Bytes) : Bytes :=
  let none_ : Bytes := List.replicate 40 0
  let found := fun (flags : Nat) (e : Bytes) => toLe 1 flags ++ List.replicate 7 0 ++ slice e 0 32
  if table = 0 then
    match (s.pipe pipe).find (emKeyBytes entry) with
    | none => none_
    | some (l, e) => found (1 + 2 * b2n e.hit + (match l with
        | .way _ => 0
        | .stash _ => 4)) e.bytes
  else
    let same := fun (e : Bytes) => le e 0 1 % 4 == le entry 0 1 % 4 &&
      (if le entry 0 1 % 4 = 2 then le e 4 2 % 64 == le entry 4 2 % 64 else slice e 8 16 == slice entry 8 16)
    match (s.routes half).find? same with
    | none => none_
    | some e => found 1 e

/-- The LPs a flood reaches: those of the mask that are UP, except the one the packet arrived on (R256). -/
def State.floodLps (s : State) (p : Pkt) (mask : Nat) : List Nat :=
  (maskBits 128 mask).filter (fun n => (s.lp n).state == .up && p.arrLp != some n)

/-! ## Resolution (R236 to R240) -/

/-- Where a packet goes, and the counter of a drop or of what was found: counter numbers of group 2 that advance. -/
structure Resolved where
  dest  : Dest
  bumps : List Nat := []
  /-- The host route entry that resolved the destination. -/
  route : Option Bytes := none

/-- Floods a packet to a set (R256). -/
def State.resolveFlood (s : State) (pipe : Nat) (p : Pkt) (set : Nat) (bumps : List Nat) : Resolved :=
  match s.floodMask (halfOfPipe pipe) (set % 64) with
  | none => { dest := .drop, bumps := bumps ++ [151] }
  | some m => { dest := .flood (s.floodLps p m), bumps := bumps ++ [150] }

/-- A host route lookup on the outer destination address (R255): the result, or none on a miss. DEDUCED (log 42). -/
def State.resolveRoute (s : State) (pipe : Nat) (p : Pkt) : Option Resolved :=
  let v4 := hvHas p.hv 3
  let v6 := hvHas p.hv 4
  if !v4 && !v6 then none
  else
    match s.routeFind (halfOfPipe pipe) (if v4 then 0 else 1) (slice p.hv 80 16) with
    | none => none
    | some e =>
      if le p.hv 98 1 ≤ 1 then some { dest := .drop, bumps := [149] }
      else some { dest := .lp (le e 30 1 % 128), bumps := [147], route := some e }

/-- The destination part of MISS_ACTION for a packet whose miss handling is INHERIT, or whose route missed: a route is not looked up twice
(R236, R255). DEDUCED (log 42). -/
def State.resolveMiss (s : State) (pipe : Nat) (p : Pkt) (bumps : List Nat) (kind q target : Nat) (miss : Bytes) : Resolved :=
  let plain := fun (kind q target : Nat) =>
    if kind = 0 then s.resolveFlood pipe p target bumps
    else if kind = 2 then { dest := .byre q, bumps := bumps }
    else ({ dest := .drop, bumps := bumps ++ [134] } : Resolved)
  if kind ≠ 3 then plain kind q target
  else
    match aVerb miss with
    | 0 => plain (aKind miss) (aByreQ miss) (aTarget miss)
    | 1 =>
      match aKind miss with
      | 0 => { dest := .ring (aTarget miss), bumps := bumps }
      | 1 => { dest := .spread (aTarget miss % 1024), bumps := bumps }
      | 2 => { dest := .lp (aTarget miss % 128), bumps := bumps }
      | _ =>
        if bumps.contains 148 then { dest := .drop, bumps := bumps }
        else
          match s.resolveRoute pipe p with
          | some r => { r with bumps := bumps ++ r.bumps }
          | none => { dest := .drop, bumps := bumps ++ [148] }
    | 3 => { dest := .byre (aByreQ miss), bumps := bumps }
    | 4 => if hvHas p.hv 8 then { dest := .transport, bumps := bumps } else { dest := .drop, bumps := bumps ++ [134] }
    | _ => { dest := .drop, bumps := bumps ++ [134] }

/-- The verbs (R236, R248, R255). `em` is the entry the destination lookup found. -/
def State.resolve (s : State) (pipe : Nat) (p : Pkt) (em : Option Bytes) (a miss : Bytes) : Resolved :=
  match aVerb a with
  | 0 =>
    match em with
    | none => s.resolveMiss pipe p [] (aKind a) (aByreQ a) (aTarget a) miss
    | some e =>
      if s.emStale e then { dest := .drop, bumps := [133] }
      else
        match emKind e with
        | 1 => { dest := .lp (emDest e % 128) }
        | 2 => { dest := .ring (emDest e) }
        | 3 => { dest := .spread (emDest e % 1024) }
        | 4 =>
          match s.resolveRoute pipe p with
          | some r => r
          | none => s.resolveMiss pipe p [148] (aKind a) (aByreQ a) (aTarget a) miss
        | 5 => s.resolveFlood pipe p (emDest e) []
        | 6 => { dest := .byre (emDest e % 32) }
        | _ => { dest := .drop, bumps := [134] }
  | 1 =>
    match aKind a with
    | 0 => { dest := .ring (aTarget a) }
    | 1 => { dest := .spread (aTarget a % 1024) }
    | 2 => { dest := .lp (aTarget a % 128) }
    | _ =>
      match s.resolveRoute pipe p with
      | some r => r
      | none => { dest := .drop, bumps := [148] }
  | 3 => { dest := .byre (aByreQ a) }
  | 4 => if hvHas p.hv 8 then { dest := .transport } else { dest := .drop, bumps := [134] }
  | _ => { dest := .drop, bumps := [134] }

/-! ## Admission (R96, R236, R258, R259, R262) -/

/-- The threshold of a colour in a share of `cells` (R259). -/
def colourLimit (colour cells : Nat) : Nat := if colour = 0 then cells else if colour = 1 then cells / 2 else cells / 4

/-- Cells that packets waiting for a function's rings use in a half (R258). -/
def State.fnCells (s : State) (fid h : Nat) : Nat :=
  s.rings.foldl (fun a e =>
    if e.2.fid = fid ∧ kindOfKey e.1 = 0 then
      (s.workOf e.1).rxWait.foldl (fun a p => if p.half = h then a + cellsOf p.frame.length else a) a
    else a) 0

/-- A packet refused against a function's share (R259, R274). -/
def State.fnDrop (fid : Nat) (p : Pkt) (s : State) : State :=
  let s := s.bump 0 fid 2
  let s := if p.colour = 1 then s.bump 0 fid 3 else if p.colour = 2 then s.bump 0 fid 4 else s
  s.dropPkt p

/-- Admits a packet to a receive ring (R236, R258, R259). -/
def State.toRing (n pipe : Nat) (p : Pkt) (s : State) : State :=
  match s.ring (sqKey n) with
  | none => (s.bump 2 pipe 134).dropPkt p
  | some r =>
    if s.apart && halfOfFid r.fid != p.half then s.splitDrop p
    else if r.destroying then (s.bump 0 r.fid 2).dropPkt p
    else if s.fnCells r.fid p.half + cellsOf p.frame.length ≤ colourLimit p.colour ((s.quotaOf r.fid).bufKib * 8) then
      s.modWork (sqKey n) (fun w => { w with rxWait := w.rxWait ++ [p] })
    else s.fnDrop r.fid p

/-- The home half of a spread group: that of the core of its first thread (R261). -/
def Spread.home (g : Spread) : Nat := (g.threads.headD 0) / 1024

/-- A packet resolved to a spread group is admitted, or dropped in its BUF_ADMIT_DROP (R262). -/
def State.toSpread (g pipe : Nat) (p : Pkt) (s : State) : State :=
  let x := s.spread g
  if !x.defined then (s.bump 3 (halfOfPipe pipe) (1025 + 8 * g)).dropPkt p
  else if s.apart && x.home != p.half then s.splitDrop p
  else if decide (4096 ≤ x.waitq.length + x.out) || !s.offloadRoom p || !x.threads.any s.threadLive then
    (s.bump 3 x.home (1025 + 8 * g)).dropPkt p
  else s.modSpread g (fun x => { x with waitq := x.waitq ++ [{ p with entered := s.devNow }] })

/-- Hands a packet to the egress half of an LP's pipeline (R227). -/
def State.toEgress (lp : Nat) (p : Pkt) (s : State) : State :=
  if s.apart && lp / 64 != p.half then s.splitDrop p
  else s.modPipe (lp / 8) (fun q => { q with egIn := q.egIn ++ [(lp, p)] })

/-- The transport sequencer of a pipeline, or its successor, takes a packet; with none in service on the half the packet is dropped in
HDR_DROP (R236, R279, R329, R524). -/
def State.toSequencer (seq : Nat) (p : Pkt) (s : State) : State :=
  match s.seqOf seq with
  | none => (s.bump 3 (halfOfPipe seq) 68).dropPkt p
  | some q =>
    let p := if p.arrLp.isSome then p else { p with time := s.devNow }
    ({ s with net := { s.net with seqIn := s.net.seqIn.upd q [] (· ++ [p]) } }).bump 3 (halfOfPipe seq) 65

/-- The counters of packets resolved to the Byre, to spread groups and to receive rings (R272). -/
def State.countDest (pipe : Nat) (s : State) : Dest → State
  | .byre _ => s.bump 2 pipe 152
  | .spread _ => s.bump 2 pipe 154
  | .ring _ => s.bump 2 pipe 155
  | _ => s

/-- Hands a packet to its destination (R226 step 7); of copies of one packet the first to leave reports its transmit time (R187). -/
def State.admitPkt (pipe : Nat) (p : Pkt) (s : State) : Dest → State
  | .drop => s.dropPkt p
  | .lp n => s.toEgress n p
  | .ring n => s.toRing n pipe p
  | .spread g => s.toSpread g pipe p
  | .byre q => s.byreEnqueue (halfOfPipe pipe) q p
  | .transport =>
    ((s.toSequencer pipe p).bump 2 pipe 153).answerStamp p none
  | .flood [] => s.dropPkt p
  | .flood lps => (s.copyStamp p lps.length).each (fun n => State.toEgress n p) lps

/-- Bytes that second-pass packets buffered in a half hold there (R257). -/
def State.secondUse (s : State) (h : Nat) : Nat :=
  s.net.pipes.foldl (fun a e => e.2.second.foldl (fun a p => if p.half = h then a + cellsOf p.frame.length * 128 else a) a) 0

/-- A packet joins the second-pass queue of 512, or is dropped (R35, R257). -/
def State.secondPass (pipe : Nat) (p : Pkt) (s : State) : State :=
  if 512 ≤ (s.pipe pipe).second.length ∨ 2097152 < s.secondUse p.half + cellsOf p.frame.length * 128 then
    (s.bump 2 pipe 137).dropPkt p
  else s.modPipe pipe (fun q => { q with second := q.second ++ [p] })

/-- The home half of a security association: that of its host port (R339, R354, R355). -/
def halfOfSa (sa : Nat) : Nat := sa / 65536

/-- A dropped packet advances ESP_IN_DROP or ESP_OUT_DROP of its association's owner, for every reason (R359, R376). -/
def State.countEspDrop (sa : Nat) (s : State) : State :=
  match Tab.find sa s.cry.sas with
  | none => s
  | some a => s.bump 0 a.fid (if a.out then 199 else 198)

/-- A packet under an association is dropped because its halves are apart (R37, R354, R376). -/
def State.espSplitDrop (j : InlineJob) (s : State) : State := (s.countEspDrop (j.pkt.sa.getD 0)).splitDrop j.pkt

/-- The scheduler of a half takes an ESP packet. -/
def State.giveCipher (h : Nat) (j : InlineJob) (s : State) : State :=
  { s with net := { s.net with inl := s.net.inl.upd h [] (· ++ [.esp j]) } }

/-- An inline packet goes to the scheduler of its association's home half, or waits in its pipeline while that has no input credit; across halves
it is dropped in split mode (R31, R332, R354). -/
def State.toCipher (sa : Nat) (j : InlineJob) (s : State) : State :=
  let j := { j with pkt := { j.pkt with sa := some sa } }
  let h := halfOfSa sa
  if s.apart && h != j.pkt.half then s.espSplitDrop j
  else if (s.pipe j.pipe).cryWait.isEmpty && s.cipherRoom h != 0 then s.giveCipher h j
  else s.modPipe j.pipe (fun q => { q with cryWait := q.cryWait ++ [j] })

/-- Packets of a pipeline that wait for cipher schedulers are taken in order while there is credit, `k` at most (R31). -/
def State.pumpPipe (n : Nat) : Nat → State → State
  | 0, s => s
  | k + 1, s =>
    match (s.pipe n).cryWait with
    | [] => s
    | j :: js =>
      let h := halfOfSa (j.pkt.sa.getD 0)
      if s.cipherRoom h = 0 then s else ((s.modPipe n (fun q => { q with cryWait := js })).giveCipher h j).pumpPipe n k

/-- Every pipeline's waiting packets, lowest pipeline first. DESIGN CHOICE (log 121). -/
def State.pumpCry (s : State) : State := s.each (fun n s => s.pumpPipe n (s.pipe n).cryWait.length) (List.range 16)

/-- A packet is sent round: checksums and, if asked here, DECAP are applied, what was set is carried, PASS advances (R239). -/
def roundPkt (p : Pkt) (a : Bytes) (decap : Bool) : Pkt :=
  let f := fillAsked p.ask p.hv p.frame
  { p with
    frame := if decap then decapFrame p.hv f else f
    ask := { p.ask with csumL3 := false, csumL4 := false }
    touched := p.touched || (decap && (hvHas p.hv 9 || hvHas p.hv 10))
    source := 2, pass := p.pass + 1
    cls0 := match aClass a with
      | some c => some c
      | none => p.cls0
    queue0 := match aQueue a with
      | some c => some c
      | none => p.queue0
    col0 := match aColour a with
      | some c => some c
      | none => p.col0 }

/-! ## Classification (R226) -/

/-- The lookup key of a packet: type, identifier, destination and source address (R243). -/
def emLookupKey (h : Hv) : Nat × Nat × Bytes × Bytes :=
  if hvHas h 11 then (1, le h 48 3, slice h 152 6, slice h 158 6) else (0, le h 24 2 % 4096, slice h 12 6, slice h 18 6)

/-- The packet with its exact-match result, SCOPE_FID and META (R228, R230). -/
def State.scoped (s : State) (p : Pkt) (em : Option Bytes) : Pkt :=
  let cur := match em with
    | some e => !s.emStale e
    | none => false
  let e := em.getD []
  let p := { p with emHit := cur, emKind := if cur then emKind e else 0 }
  if p.source = 1 then { p with scope := p.fid }
  else if cur && emKind e == 2 then { p with scope := emDestFid e, metaw := BitVec.ofNat 32 (emMeta e) }
  else { p with scope := 0x1FFF, metaw := if p.pass = 0 then 0 else p.metaw }

def ParseEnd.malformed : ParseEnd → Bool
  | .bad _ => true
  | _ => false

/-- Class, queue and colour of a pass (R238). -/
def State.decideClass (s : State) (p : Pkt) (a : Bytes) (em route : Option Bytes) : Pkt :=
  let cur := match em with
    | some e => if s.emStale e then none else some e
    | none => none
  let r1 := route.bind (fun e => if bit (le e 31 1) 3 then some (le e 31 1 % 8) else none)
  let e1 := cur.bind (fun e => if emClassValid e then some (emClass e) else none)
  let ec := cur.bind (fun e => if emColourValid e then some (emColour e) else none)
  let cls := ((aClass a).orElse fun _ => r1.orElse fun _ => e1.orElse fun _ => p.cls0.orElse fun _ => p.sqCls).getD 0
  let queue := ((aQueue a).orElse fun _ => p.queue0).getD cls
  let colour := ((aColour a).orElse fun _ => ec.orElse fun _ => p.col0).getD 0
  { p with cls := cls, queue := queue, colour := colour }

/-- Classifies a parsed packet on a pipeline under the MISS_ACTION it was taken under (R222, R226 steps 2 to 7). -/
def State.classify (n : Nat) (miss : Bytes) (p : Pkt) (s : State) : State :=
  let q := s.pipe n
  let k := emLookupKey p.hv
  let em := (q.find (emKeyOf k.1 k.2.1 k.2.2.1)).map (fun x => x.2.bytes)
  let src := q.find (emKeyOf k.1 k.2.1 k.2.2.2)
  let p := s.scoped p em
  let s := s.bump 2 n (if p.emHit then 131 else 132)
  let rule := s.tcam n false (keyBytes p (le p.hv 4 1) p.scope false)
  let s := s.bump 2 n (if rule.isSome then 128 else 129)
  let a := match rule with
    | some r => r.action
    | none => miss
  let s := match rule with
    | some r => s.countRule r p.frame.length
    | none => s
  let s := match p.arrLp with
    | some lp => if p.source = 0 ∧ p.pass = 0 ∧ aNoLearn a = false then s.learnFrom n lp k.1 k.2.1 k.2.2.2 src else s
    | none => s
  let v := aRecirc a
  if p.pass < v then
    let s := s.bump 2 n 135
    match aSa a with
    | some sa => s.toCipher sa { pkt := { roundPkt p a false with decap := aDecap a }, dest := .drop, round := true, pipe := n }
    | none => s.secondPass n (roundPkt p a (aDecap a))
  else if v ≠ 0 ∧ aCapDrop a then (s.bump 2 n 136).dropPkt p
  else
    let r := s.resolve n p em a miss
    let p := s.decideClass p a em r.route
    let p := { p with decap := aDecap a, hop := r.route.map (fun e => slice e 24 6) }
    let s := (r.bumps.foldl (fun s c => s.bump 2 n c) s).countDest n r.dest
    match aSa a, r.dest with
    | some _, .drop => s.dropPkt p
    | some sa, d => s.toCipher sa { pkt := p, dest := d, pipe := n }
    | none, d => s.admitPkt n p d

/-! ## The header slot (R34, R217, R221) -/

/-- Frames that wait in the receive FIFOs of a pipeline's port take header credits while any is free, `k` at most; among the LPs the
lowest-numbered one with a frame goes first (R31). DESIGN CHOICE (log 27). -/
def State.giveCredits (n : Nat) : Nat → State → State
  | 0, s => s
  | k + 1, s =>
    match (List.range 8).find? (fun i => !(s.lp (8 * n + i)).fifo.isEmpty) with
    | none => s
    | some i =>
      match (s.lp (8 * n + i)).fifo with
      | [] => s
      | f :: fs =>
        if 32 ≤ (s.pipe n).hdrs.length then s
        else ((s.modLp (8 * n + i) (fun l => { l with fifo := fs })).modPipe n (fun q => { q with hdrs := q.hdrs ++ [(8 * n + i, f)] })).giveCredits n k

/-- Takes the packet of the highest precedence: a network arrival, a class-7 injection, then others 3 : 1 (R34). The count of the round robin
starts with host injections. DESIGN CHOICE (log 147). -/
def State.takeHeader (n : Nat) (s : State) : Option (Pkt × State) :=
  let s := s.giveCredits n 32
  let q := s.pipe n
  match q.hdrs with
  | (lp, f) :: hs =>
    some ({ frame := f.bytes, source := 0, arrLp := some lp, pipe := n, time := f.time, half := halfOfPipe n },
      (s.modPipe n (fun q => { q with hdrs := hs })).giveCredits n 1)
  | [] =>
    match q.inj7, q.inj, q.second with
    | p :: ps, _, _ => some (p, s.modPipe n (fun q => { q with inj7 := ps }))
    | [], p :: ps, [] => some (p, s.modPipe n (fun q => { q with inj := ps, wrr := min (q.wrr + 1) 3 }))
    | [], [], p :: ps => some (p, s.modPipe n (fun q => { q with second := ps, wrr := 0 }))
    | [], p :: ps, x :: xs =>
      if q.wrr < 3 then some (p, s.modPipe n (fun q => { q with inj := ps, wrr := q.wrr + 1 }))
      else some (x, s.modPipe n (fun q => { q with second := xs, wrr := 0 }))
    | [], [], [] => none

/-- The counters of a parse (R215). -/
def State.countParse (n : Nat) (p : Pkt) (e : ParseEnd) (s : State) : State :=
  let s := (s.bump 2 n 0).bump 2 n (if p.source = 0 then 1 else if p.source = 1 then 2 else 3)
  let info := le p.hv 2 1
  let s := if bit info 0 then s.bump 2 n (if bit info 1 then 7 else 8) else s
  let s := if bit info 2 then s.bump 2 n 10 else s
  match e with
  | .innerFrag => s.bump 2 n 9
  | _ => s

/-- Those whose credit is free: no packet runs on them (R223). -/
def State.freeProcs (s : State) (n : Nat) : List Nat :=
  (s.processors n).filter (fun i => !(s.pipe n).deepRun.any (fun d => d.proc == i && d.done.isNone))

/-- A packet joins the deep-parse stage behind those taken before it (R221). -/
def State.deepPut (n : Nat) (d : DeepRun) (s : State) : State := s.modPipe n (fun q => { q with deepRun := q.deepRun ++ [d] })

/-- A packet that the fixed parser has passed: to the free parse processor of the lowest number, or to classification (R217). DESIGN CHOICE (log 147). -/
def State.parsed (n : Nat) (p : Pkt) (s : State) : State :=
  let q := s.pipe n
  if q.deep then
    (s.bump 2 n 4).deepPut n { pkt := p, proc := (s.freeProcs n).headD 0, prog := s.boot.progs.getD q.prog {}, cfg := q.cfg }
  else s.classify n q.miss p

/-- A packet that the fixed parser finds malformed: its action is applied in the order the pipeline took the packets (R214). -/
def State.parsedBad (n reason : Nat) (p : Pkt) (s : State) : State :=
  let q := s.pipe n
  if q.deepRun.isEmpty then s.malformed n q.cfg reason p else s.deepPut n { pkt := p, cfg := q.cfg, done := some (.reject reason) }

/-- A header that has been taken is parsed, and classified, handed to a parse processor, sent to the Byre as an inner fragment or treated as
malformed (R209, R214, R217, R226). -/
def State.parse (n : Nat) (c : PktCheck) (p : Pkt) (s : State) : State :=
  let r := parseFrame p.frame p.source p.pass (p.arrLp.getD 0) n p.fid
    (p.source == 1 && p.ask.csumL3 && !p.ask.inner) (p.source == 1 && p.ask.csumL3 && p.ask.inner)
  let p := { p with hv := r.1, pipe := n }
  let s := s.countParse n p r.2
  match r.2 with
  | .bad c => s.parsedBad n c p
  | .innerFrag => s.byreEnqueue (halfOfPipe n) ((s.pipe n).malAct.toNat / 4 % 32) p
  | .ok => if c == .vector then s.checkDrop (halfOfPipe n) .vector p else s.parsed n p

/-- INGRESS_SLOT (R34, R193, R226): takes one header and parses it, unless its frame fails a check of R528 on the way. A step with nothing
waiting, or without a processor credit in deep-parse mode (R223), is lost. DEDUCED (log 43). -/
def State.ingress (n : Nat) (c : PktCheck) (s : State) : State :=
  let q := s.pipe n
  if !q.released || (q.deep && (s.freeProcs n).isEmpty) then s
  else
    match s.takeHeader n with
    | none => s
    | some (p, s) =>
      (if s.apart && p.half != halfOfPipe n then s.splitDrop p
        else
          match c with
          | .fifo => s.checkDrop (halfOfPipe n) c p
          | .buffer _ => s.checkDrop (halfOfPipe n) c p
          | c => s.parse n c p).pumpHost p.half

/-- A packet leaves the deep-parse stage (R214, R220). -/
def State.deepOut (n : Nat) (d : DeepRun) (e : DeepEnd) (s : State) : State :=
  match e with
  | .accept => s.classify n ((s.pipe n).cfgOf d.cfg).miss d.pkt
  | .reject r => s.malformed n d.cfg r d.pkt
  | .vector => s.checkDrop (halfOfPipe n) .vector d.pkt
  | .processor => (s.integrityDrop (halfOfPipe n) 3).dropPkt d.pkt

/-- Packets that have ended leave the deep-parse stage in the order they were taken, `k` at most (R221). -/
def State.deepDrain (n : Nat) : Nat → State → State
  | 0, s => s
  | k + 1, s =>
    match (s.pipe n).deepRun with
    | [] => s
    | d :: rest =>
      match d.done with
      | some e => ((s.modPipe n (fun q => { q with deepRun := rest })).deepOut n d e).deepDrain n k
      | none => s

/-- Earlier configurations that no packet finishes under any more are forgotten (R222). -/
def Pipe.tidyMal (q : Pipe) : Pipe := { q with oldMal := q.oldMal.filter (fun e => q.deepRun.any (fun d => d.cfg == e.1)) }

/-- A parity error of a parse processor is charged to it; at its threshold it is retired and a spare takes over (R216, R519, R526, R545). -/
def State.procFault (n i : Nat) (s : State) : State :=
  let r := resId 11 (n * 34 + i)
  let c := s.charge r 1
  if c.2 then
    let s := c.1.retireRes r
    s.postRetired r
  else c.1

/-- What the program of a packet leaves: the packet with DEEP_CODE and DEEP_DATA as stored, and how it leaves the stage; a packet whose processor
or whose vector fails its parity is dropped (R203, R220). DESIGN CHOICE (log 105). -/
def DeepRun.finish (d : DeepRun) (procError vectorOk : Bool) : DeepRun :=
  let x := deepProgram d.prog d.pkt.hv d.pkt.frame d.prog.w {}
  let h := x.2.vector d.pkt.hv
  match procError, x.1 with
  | true, _ => { d with done := some .processor }
  | false, some r => { d with pkt := { d.pkt with hv := h }, done := some (.reject r) }
  | false, none => { d with pkt := { d.pkt with hv := Hv.info 7 h }, done := some (if vectorOk then .accept else .vector) }

/-- DEEP_PARSE_DONE (R218, R220, R221): the program of the packet in place `slot` has ended, and packets leave in order. DESIGN CHOICE (log
105). -/
def State.deepDone (n slot : Nat) (procError vectorOk : Bool) (s : State) : State :=
  match (s.pipe n).deepRun[slot]? with
  | none => s
  | some d =>
    if d.done.isSome then s
    else
      let s := s.modPipe n (fun q => { q with deepRun := q.deepRun.set slot (d.finish procError vectorOk) })
      let s := if procError then s.procFault n d.proc else s
      (((s.deepDrain n (s.pipe n).deepRun.length).modPipe n Pipe.tidyMal).pumpHost 0).pumpHost 1

/-- INGRESS_SLOT (R34, R528, R531). -/
def execIngressSlot (pipe : PipeId) (check : PktCheck) (s : State) (mem : MemEnv := {}) : Outcome :=
  let x := s.memEnv pipe mem check
  done (x.2.ingress pipe x.1)

/-- DEEP_PARSE_DONE (R220, R221). -/
def execDeepParseDone (pipe : PipeId) (slot : Nat) (procError : Bool) (s : State) (vectorOk : Bool := true) : Outcome :=
  done (s.deepDone pipe slot procError vectorOk)

end Sys2Proof.Machine
end

