-- ==== Sys2Proof/Machine/Egress.lean ====
section
/-! DEFINITION. The egress half and the egress scheduler (R227, R237, R238, R258, R259, R266, R267, R273). -/

namespace Sys2Proof.Machine

open Sys2Proof

/-! ## Logical ports of a breakout (R170) -/

/-- Lanes of each LP of a breakout. -/
def lanesPer (breakout : Nat) : Nat := 8 / 2 ^ breakout
/-- An LP exists in its port's current breakout (R170). -/
def State.lpExists (s : State) (lp : Nat) : Bool := lp % 8 % lanesPer (s.np (lp / 8)).breakout == 0
/-- The configured lanes of an LP, numbers within its port. -/
def State.lpLanes (s : State) (lp : Nat) : List Nat :=
  (List.range (lanesPer (s.np (lp / 8)).breakout)).map (fun i => lp % 8 + i)
/-- The LPs of a breakout of a port. -/
def lpsOf (np breakout : Nat) : List Nat :=
  ((List.range 8).filter (fun i => i % lanesPer breakout == 0)).map (fun i => 8 * np + i)

/-! ## Admission to class queues (R258, R259, R267) -/

/-- The share of a class queue in cells of one half: SHARE_KIB, or 64 KiB for each configured lane (R267). -/
def State.egShare (s : State) (lp q : Nat) : Nat :=
  8 * ((s.egq (lp * 8 + q)).shareKib.getD (64 * lanesPer (s.np (lp / 8)).breakout))

/-- Cells a class queue holds in a half. -/
def EgQ.cells (q : EgQ) (h : Nat) : Nat := q.queue.foldl (fun a p => if p.half = h then a + cellsOf p.frame.length else a) 0

/-- A packet dropped because its LP is not UP (R176). -/
def State.linkDownDrop (lp : Nat) (p : Pkt) (s : State) : State := (s.bump 1 lp 9).dropPkt p

/-- Admits a packet to the class queue of an LP (R176, R259, R273). -/
def State.egAdmit (lp : Nat) (p : Pkt) (s : State) : State :=
  let k := lp * 8 + p.queue
  if (s.lp lp).state != .up then s.linkDownDrop lp p
  else if (s.egq k).cells p.half + cellsOf p.frame.length ≤ colourLimit p.colour (s.egShare lp p.queue) then
    ((s.modEgq k (fun q => { q with queue := q.queue ++ [p] })).bump 4 k 0).bumpBy 4 k 1 p.edited.length
  else
    let s := s.bump 4 k 4
    let s := if p.colour = 1 then s.bump 4 k 5 else if p.colour = 2 then s.bump 4 k 6 else s
    s.dropPkt p

/-- EGRESS_PASS (R227): the egress half takes the next packet, searches the egress TCAM, applies the result and admits the packet, unless its reads
fail a check (R528). -/
def State.egressPass (n : Nat) (c : PktCheck) (s : State) : State :=
  match (s.pipe n).egIn with
  | [] => s
  | (lp, p) :: rest =>
    let s := s.modPipe n (fun q => { q with egIn := rest })
    let scope := if p.source = 1 then p.fid else 0x1FFF
    if c != .ok then s.checkDrop (halfOfPipe n) c p
    else
    match s.tcam n true (keyBytes p lp scope true) with
    | none => s.egAdmit lp p
    | some r =>
      let s := (s.bump 2 n 130).countRule r p.frame.length
      if aVerb r.action = 2 then (s.bump 2 n 134).dropPkt p
      else s.egAdmit lp { p with queue := (aQueue r.action).getD p.queue, colour := (aColour r.action).getD p.colour }

/-- EGRESS_PASS (R227). -/
def execEgressPass (pipe : PipeId) (s : State) (mem : MemEnv := {}) : Outcome :=
  let x := s.memEnv pipe mem .ok
  done (x.2.egressPass pipe x.1)

/-! ## The scheduler (R266) -/

/-- The bucket of queue 7 filled up to now: CLASS7_PERMILLE thousandths of the LP's rate, 25 bytes a ns for each lane in use, at most
4,096 bytes (R266). -/
def State.fillBucket (lp : Nat) (s : State) : State :=
  s.modEgq (lp * 8 + 7) (fun q =>
    let b := q.bucket + ((s.clock.now - q.filledAt) * 25 * (s.lp lp).lanes.length * q.permille : Nat)
    { q with bucket := min b 4096000, filledAt := s.clock.now })

/-- The size of a packet on the wire, FCS included. DEDUCED (log 43). -/
def wireLen (p : Pkt) : Nat := (padTo60 p.edited).length + 4

/-- Queue 7 takes part in the deficit round robin only while its bucket is negative (R266). -/
def inDrr (s : State) (lp q : Nat) : Bool := q != 7 || decide ((s.egq (lp * 8 + 7)).bucket < 0)

/-- The next queue's turn begins with its quantum. -/
def State.nextTurn (lp t : Nat) (s : State) : State :=
  let u := (t + 1) % 8
  let s := s.modLp lp (fun l => { l with turn := u })
  if inDrr s lp u then s.modEgq (lp * 8 + u) (fun q => { q with deficit := q.deficit + q.weight * 512 }) else s

/-- Deficit round robin with a quantum of WEIGHT × 512 bytes: the queue to serve, and the state with its deficits (R266). -/
def State.drr (lp : Nat) : Nat → State → Option (Nat × State)
  | 0, _ => none
  | fuel + 1, s =>
    let t := (s.lp lp).turn
    let q := s.egq (lp * 8 + t)
    match q.queue with
    | p :: _ =>
      if inDrr s lp t ∧ (wireLen p : Int) ≤ q.deficit then
        some (t, s.modEgq (lp * 8 + t) (fun q => { q with deficit := q.deficit - wireLen p }))
      else (s.nextTurn lp t).drr lp fuel
    | [] => ((s.modEgq (lp * 8 + t) (fun q => { q with deficit := 0 })).nextTurn lp t).drr lp fuel

/-- The queue the scheduler serves next: queue 7 in priority while its bucket is not negative, otherwise by deficit round robin; and whether
queue 7 is served beyond its share (R266). DEDUCED (log 43). -/
def State.pickQueue (lp : Nat) (s : State) : Option (Nat × Bool × State) :=
  let q7 := s.egq (lp * 8 + 7)
  if !q7.queue.isEmpty && decide (0 ≤ q7.bucket) then some (7, false, s)
  else (s.drr lp 256).map (fun r => (r.1, r.1 == 7, r.2))

/-- Takes what a class-7 packet costs from the bucket: its length and 20 bytes (R266). DEDUCED (log 43). -/
def State.payBucket (lp q n : Nat) (s : State) : State :=
  if q = 7 then s.modEgq (lp * 8 + 7) (fun q => { q with bucket := q.bucket - ((n + 20) * 1000 : Nat) }) else s

/-- The frame leaves with every byte as received (R530). -/
def Pkt.asReceived (p : Pkt) : Bool :=
  p.arrLp.isSome && !p.touched && p.hop.isNone && !p.decap && p.sa.isNone && p.group.isNone && decide (60 ≤ p.frame.length)

/-- The check that drops a packet about to leave: the FCS carry check is made of unmodified frames only (R528, R530). -/
def Pkt.failed (p : Pkt) (c : PktCheck) : Bool :=
  match c with
  | .ok => false
  | .carry => p.asReceived
  | .vector => false
  | _ => true

/-- FRAME_TRANSMIT (R240, R266, R273, R528, R530): the scheduler of an UP LP serves one packet: it leaves rewritten, padded and with a new FCS,
unless it fails a check. Only a frame that is sent is charged to the bucket and counted. -/
def State.transmit (lp : Nat) (c : PktCheck) (s : State) : State :=
  if (s.lp lp).state != .up then s
  else
    match (s.fillBucket lp).pickQueue lp with
    | none => s
    | some (q, beyond, s) =>
      let k := lp * 8 + q
      match (s.egq k).queue with
      | [] => s
      | p :: rest =>
        let f := padTo60 p.edited
        let s := s.modEgq k (fun q => { q with queue := rest })
        if p.failed c then s.checkDrop (lp / 64) c p
        else
          let s := s.payBucket lp q (f.length + 4)
          let s := if beyond then s.bump 4 k 7 else s
          let s := ((s.bump 4 k 2).bumpBy 4 k 3 p.edited.length).bump 1 lp 7
          let s := (s.bumpBy 1 lp 8 (f.length + 4)).emit (.frame lp (f ++ fcsOf f))
          if (s.stampOf p).isNone then s else (s.bump 1 lp 15).answerStamp p (some s.devNow)

/-- FRAME_TRANSMIT (R266). -/
def execFrameTransmit (lp : LpId) (check : PktCheck) (s : State) (mem : MemEnv := {}) : Outcome :=
  let x := s.memEnv 0 { mem with flips := [] } check
  done (x.2.transmit lp x.1)

end Sys2Proof.Machine
end

