-- ==== Sys2Proof/Machine/Paths.lean ====
section
/-! DEFINITION. Time stamps of the transport and its path state: rates, round-trip times, the pacer's bucket (R184, R304, R315 to R318). -/

namespace Sys2Proof.Machine

open Sys2Proof

/-! ## Time stamps (R184, R304) -/

/-- The span of device time [63:0], in ns. -/
def spanNs : Nat := 4294967296 * 1000000000
/-- The ns that a device time [63:0] stands for, within its span. -/
def wordNs (w : BitVec 64) : Nat := w.toNat / 4294967296 * 1000000000 + w.toNat % 4294967296
/-- How far device time is past a stamp, signed (R184). -/
def State.age (s : State) (w : BitVec 64) : Int :=
  let d := ((s.clock.dev : Int) - (wordNs w : Int)) % (spanNs : Int)
  if d < (spanNs / 2 : Nat) then d else d - (spanNs : Int)
/-- The device time that a stamp names, nearest to now. -/
def State.stampNs (s : State) (w : BitVec 64) : Nat := ((s.clock.dev : Int) - s.age w).toNat

/-- T_keep of R304, 3 ms. -/
def tKeep : Nat := 3000000

/-! ## Path state (R315 to R318) -/

def pathKey (h node : Nat) : Nat := h * 4294967296 + node
def State.path (s : State) (k : Nat) : Option Path := Tab.find k s.lrd.paths
def State.setPath (k : Nat) (p : Path) (s : State) : State := s.modLrd (fun l => { l with paths := Tab.set k p l.paths })
def State.modPath (k : Nat) (f : Path → Path) (s : State) : State :=
  match s.path k with
  | none => s
  | some p => s.setPath k (f p)

/-- The host route of a node in a half's table: LP and next hop (R298). -/
def State.routeTo (s : State) (h : Nat) (addr : Bytes) : Option (Nat × Bytes) :=
  (s.routeFind h 1 addr).map (fun e => (le e 30 1 % 128, slice e 24 6))

/-- 1 Gb/s, MIN_RATE of R317. -/
def minRate : Nat := 1000000000
/-- The line rate of a route, in bits a second: 200 Gb/s for each lane in use of its LP; 1.6 Tb/s to the device itself (R169, R279). DEDUCED
(log 55). -/
def State.lineOf (s : State) : Option (Nat × Bytes) → Nat
  | none => 1600000000000
  | some r => 200000000000 * (s.lp r.1).lanes.length

/-- The path's RTO (R317). DEDUCED (log 55). -/
def Path.rto (p : Path) : Nat := if p.rttMin.isNone then 50000 else min 250000 (max 10000 (p.srtt + 4 * p.rttvar))

/-- Evicts the least recently used path entry of a half that has no packet in its pacer (R315). DEDUCED (log 59). -/
def State.evictPath (h : Nat) (s : State) : State :=
  let es := s.lrd.paths.filter (fun e => e.1 / 4294967296 == h && e.2.turn.isEmpty)
  match es.foldl (fun (b : Option (Nat × Path)) e =>
      match b with
      | none => some e
      | some x => if e.2.used < x.2.used then some e else b) none with
  | none => s
  | some e => (s.modLrd (fun l => { l with paths := Tab.del e.1 l.paths })).bump 3 h 85

/-- The pacer's bucket filled up to now at the present RATE, at most 16 KiB (R318). -/
def Path.fill (now : Nat) (p : Path) : Path :=
  { p with bucket := min 131072000000000 (p.bucket + p.rate * (now - p.filled)), filled := now }

/-- A new RATE: what the old one has earned is in the bucket first (R318). -/
def Path.setRate (now r : Nat) (p : Path) : Path := { p.fill now with rate := r }

/-- The path's line changes: RATE is at most the new one (R317). DEDUCED (log 55). -/
def Path.setLine (now line : Nat) (p : Path) : Path :=
  if line = p.line then p else { p.setRate now (max minRate (min p.rate line)) with line := line }

/-- A packet needs the entry of a path: it is used, or made in the place of one evicted; with none free and none to evict the packet waits without
one (R315, R317). DEDUCED (log 59). -/
def State.needPath (h node fid : Nat) (line : Nat) (s : State) : State :=
  let k := pathKey h node
  let x := s.nextStamp
  match x.2.path k with
  | some p => x.2.setPath k { p.setLine s.clock.dev line with used := x.1 }
  | none =>
    let full := fun (s : State) => decide (131072 ≤ s.lrd.paths.countV (fun k _ => k / 4294967296 == h))
    let s := x.2.when (full x.2) (State.evictPath h)
    if full s then s else s.setPath k { rate := max minRate (line / 8), line := line, used := x.1, fid := fid, filled := s.clock.dev }

/-- An RTT sample (R316, R317). -/
def Path.sample (now r : Nat) (p : Path) : Path :=
  let m := min r (p.rttMin.getD r)
  let q := r - m
  let p := if p.rttMin.isNone then { p with srtt := r, rttvar := r / 2 }
    else
      let d := if p.srtt < r then r - p.srtt else p.srtt - r
      { p with rttvar := (3 * p.rttvar + d) / 4, srtt := (7 * p.srtt + r) / 8 }
  match p.since with
  | none => { p with rttMin := some m, since := some now, qmin := q }
  | some _ => { p with rttMin := some m, qmin := min p.qmin q }

/-- A sample of a packet that arrived at a time: from its echo and the receiver's hold (R316). -/
def State.rttSample (k : Nat) (arrived echo : BitVec 64) (hold : Nat) (s : State) : State :=
  s.modPath k (Path.sample s.clock.dev (s.age echo - s.age arrived - hold).toNat)

/-- The end of an update interval (R317). -/
def Path.update (now target : Nat) (p : Path) : Path :=
  let r := if p.qmin ≤ target then min p.line (p.rate + p.line / 64)
    else max minRate (max (p.rate / 2) (p.rate * target / p.qmin))
  { p.setRate now r with since := none, qmin := 0, halved := false }

/-- PATH_UPDATE_INTERVAL (R317). -/
def execPathUpdateInterval (half : Half) (node : BitVec 32) (dt : Nat) (s : State) : Outcome :=
  let s := s.advance dt
  let k := pathKey half node.toNat
  match s.path k with
  | none => done s
  | some p =>
    match p.since with
    | none => done s
    | some t => if t + max p.srtt 4000 ≤ s.clock.dev then done (s.setPath k (p.update s.clock.dev s.lrd.target)) else done s

/-- A retransmission timer expires on a path: RATE is halved, once an interval (R317). -/
def Path.expire (now : Nat) (p : Path) : Path :=
  if p.halved then p else { p.setRate now (max minRate (p.rate / 2)) with halved := true }

/-- The line of an LP changes by a lane fallback or a breakout: every path whose route names it follows (R317). -/
def State.reline (lp : Nat) (s : State) : State :=
  { s with lrd := { s.lrd with paths := s.lrd.paths.mapV (fun k p =>
    match s.routeTo (k / 4294967296) (slice s.sets.lrdPrefix 0 12 ++ toBe 4 (k % 4294967296)) with
    | none => p
    | some r => if r.1 = lp ∧ k % 4294967296 ≠ s.lrd.nodeId then p.setLine s.clock.dev (s.lineOf (some r)) else p) } }

end Sys2Proof.Machine
end

