-- ==== Sys2Proof/Machine/Ports.lean ====
section
/-! DEFINITION. Network ports: frames received, link states, lane faults, retirement and fallback, PORT_CONFIG (R168 to R183), with NC-SI's link notification (R503). -/

namespace Sys2Proof.Machine

open Sys2Proof

/-! ## Lanes and widths (R168, R180) -/

/-- Lane `i` of port `np` is retired. -/
def State.laneRetired (s : State) (np i : Nat) : Bool := (s.lane (8 * np + i)).retired

/-- The lanes an LP trains on: its group while none is retired, otherwise the half of the group without a retired lane, and with a
retired lane in both the half with fewer, the lower on a tie; none where a single lane is retired (R180, R181). -/
def usableLanes (ret : Nat → Bool) : Nat → List Nat → List Nat
  | 0, _ => []
  | fuel + 1, g =>
    if !g.any ret then g
    else if g.length ≤ 1 then []
    else
      let a := g.take (g.length / 2)
      let b := g.drop (g.length / 2)
      let lower := decide (a.countP ret ≤ b.countP ret)
      usableLanes ret fuel (if lower then a else b)

/-- An LP enters TRAINING on the lanes of a group it can use, or stays DOWN without one (R175, R180); while a PORT_CONFIG of its port is pending it
stays DOWN, and trains once that is in place (R171, R181); while its pipeline is held in a reset it stays DOWN too (R175). The bucket of class 7 has
filled at the rate so far (R266). Paths that run through it follow its line (R317). -/
def State.train (lp : Nat) (group : List Nat) (s : State) : State :=
  let ls := usableLanes (s.laneRetired (lp / 8)) 4 group
  let held := ls.isEmpty || (s.np (lp / 8)).pend.isSome || !(s.pipe (lp / 8)).released
  let s := (s.fillBucket lp).modLp lp (fun l => { l with lanes := ls, state := if held then .down else .training })
  if ls.isEmpty then s else s.reline lp

/-- An LP starts training on its configured lanes (R175, R181). -/
def State.trainFresh (lp : Nat) (s : State) : State := s.train lp (s.lpLanes lp)

/-! ## Leaving UP (R176) -/

/-- Empties an LP's class queues into a counter of the LP (R171, R176). -/
def State.flushLp (lp counter : Nat) (s : State) : State :=
  s.each (fun q s =>
    let ps := (s.egq (lp * 8 + q)).queue
    let s := (s.modEgq (lp * 8 + q) (fun e => { e with queue := [] })).bumpBy 1 lp counter ps.length
    s.each State.dropPkt ps) (List.range 8)

/-- NC-SI tells the BMC of a link change on an enabled channel whose notification is on (R503). DEDUCED (log 103). -/
def State.aen (lp : Nat) (up : Bool) (s : State) : State :=
  let c := s.mgmt.chans.getD (lp / 8) {}
  match s.mgmt.aenOn with
  | none => s
  | some b =>
    if lp % 8 == 0 && c.on && c.aen then s.mgmtSend b ([0xFF, BitVec.ofNat 8 (lp / 8), 0] ++ toBe 4 (b2n up) ++ toBe 4 (if up then 2 else 0)) else s

/-- An UP LP leaves UP: LINK_DOWN_COUNT advances and EV_LINK_DOWN is posted with its cause (R176, R182). -/
def State.leaveUp (lp cause : Nat) (s : State) : State :=
  if (s.lp lp).state != .up then s
  else (((s.modLp lp (fun l => { l with state := .down })).bump 1 lp 13).postPfs 0x0202 lp (toLe 1 cause)).aen lp false

/-- A fault takes an UP LP back to TRAINING, its queues emptied (R175, R176). DEDUCED (log 47). -/
def State.faultLp (lp cause : Nat) (s : State) : State :=
  if (s.lp lp).state != .up then s
  else ((s.leaveUp lp cause).flushLp lp 9).train lp (s.lp lp).lanes

/-! ## Lane faults and retirement (R178, R179, R181) -/

/-- Retires lane `i` of an LP's port: the map, EV_LANE_RETIRED, EV_RESOURCE_RETIRED and the Ledger record; the LP trains narrower, unless a
PORT_CONFIG of its port is pending (R179, R180, R181). DEDUCED (log 47). -/
def State.retireLane (lp i : Nat) (s : State) : State :=
  let np := lp / 8
  let dl := 8 * np + i
  let s := (s.modLane dl (fun l => { l with retired := true, fails := 0 })).retireRes (resId 1 dl)
  let s := if (s.np np).pend.isSome then s else s.train lp (s.lp lp).lanes
  let speed := s.narrowed lp
  ((s.postPfs 0x0203 dl (toLe 1 lp ++ toLe 1 speed)).postRetired (resId 1 dl)).ledgerAdd 0x0033 dl (toLe 1 lp ++ toLe 1 speed)

/-- A fault attributed to lane `i` of an LP: LANE_FAULTS advances and the lane is charged; answers whether it is permanent (R178). -/
def State.chargeLane (lp i : Nat) (s : State) : State × Bool :=
  let dl := 8 * (lp / 8) + i
  (s.bump 1 dl 35).charge (resId 1 dl) 1

/-- The FEC symbol errors of a lane over the last 1 ms. -/
def symbolsOf (sym : List (Fin 8 × Nat)) (i : Nat) : Nat := (sym.filter (fun e => e.1.val == i)).foldl (fun a e => a + e.2) 0

/-- The lane of an LP that a fault is attributed to (R178): the one lane involved; otherwise the one whose symbol errors are at least four
times those of every other lane of the LP. DEDUCED (log 47). -/
def attributed (lanes hit : List Nat) (sym : List (Fin 8 × Nat)) : Option Nat :=
  match lanes.filter hit.contains with
  | [i] => some i
  | _ => lanes.find? (fun i => symbolsOf sym i != 0 && lanes.all (fun j => j == i || decide (4 * symbolsOf sym j ≤ symbolsOf sym i)))

/-- An UP LP leaves UP for a fault of a cause: the lane it is attributed to is charged, and retired at its threshold (R176, R178, R179). -/
def State.lpFault (lp cause : Nat) (lane : Option Nat) (s : State) : State :=
  match lane with
  | none => s.faultLp lp cause
  | some i =>
    let c := s.chargeLane lp i
    if c.2 then (c.1.faultLp lp 6).retireLane lp i else c.1.faultLp lp cause

/-- LOCAL_FAULT (R176, R178, R183): the lanes `hit` of an UP LP lose signal or lock, none where only alignment is lost; every one of them
advances LANE_LOCK_LOSS. DEDUCED (log 47). -/
def State.localFault (lp : Nat) (hit : List Nat) (sym : List (Fin 8 × Nat)) (s : State) : State :=
  let l := s.lp lp
  if l.state != .up then s
  else (s.each (fun i => State.bump 1 (8 * (lp / 8) + i) 33) (l.lanes.filter hit.contains)).lpFault lp 1 (attributed l.lanes hit sym)

/-- LOCAL_FAULT (R176). -/
def execLocalFault (lp : LpId) (lanes : List (Fin 8)) (s : State) (symbols : List (Fin 8 × Nat) := []) : Outcome :=
  done (s.localFault lp (lanes.map (·.val)) symbols)

/-- REMOTE_FAULT (R176). -/
def execRemoteFault (lp : LpId) (s : State) : Outcome := done (s.faultLp lp 2)

/-- HIGH_BER (R176, R178, R183): `codewords` uncorrectable codewords arrive within 1 ms and are counted; more than 100 of them are a fault, which
is attributed by symbol errors alone. DEDUCED (log 47). -/
def execHighBer (lp : LpId) (codewords : Nat) (s : State) (symbols : List (Fin 8 × Nat) := []) : Outcome :=
  let l := s.lp lp
  if l.state != .up then done s
  else
    let s := s.bumpBy 1 lp 12 codewords
    done (if 100 < codewords then s.lpFault lp 3 (attributed l.lanes [] symbols) else s)

/-- Attempts of the half's LPs fail for want of their clock; no lane is at fault (R178, R561). -/
def State.sdLost (s : State) (lp : Nat) : Bool := s.clkLost (if lp < 64 then .sdWest else .sdEast)

/-- TRAINING_ATTEMPT_DONE (R175): training and alignment are complete on every lane of the LP. -/
def State.trained (lp : Nat) (s : State) : State :=
  let l := s.lp lp
  if l.state != .training || s.sdLost lp then s
  else
    let s := s.modLp lp (fun l => { l with state := .up, linkUps := (l.linkUps + 1) % 2 ^ 64 })
    let s := s.each (fun i => State.modLane (8 * (lp / 8) + i) (fun x => { x with fails := 0 })) l.lanes
    (s.postPfs 0x0201 lp (s.linkUpData lp)).aen lp true

/-- TRAINING_ATTEMPT_DONE (R175). -/
def execTrainingAttemptDone (lp : LpId) (s : State) : Outcome := done (s.trained lp)

/-- TRAINING_ATTEMPT_FAIL (R177 to R179): the attempt fails on the lanes `bad`; the lane it is attributed to is charged, and the third failure in a
row at the same lane retires it. -/
def State.trainFail (lp : Nat) (bad : List Nat) (sym : List (Fin 8 × Nat)) (s : State) : State :=
  let l := s.lp lp
  if l.state != .training || s.sdLost lp then s
  else
    let hit := attributed l.lanes bad sym
    let s := s.each (fun i => State.modLane (8 * (lp / 8) + i) (fun x => { x with fails := if hit = some i then x.fails + 1 else 0 })) l.lanes
    match hit with
    | none => s
    | some i =>
      let dl := 8 * (lp / 8) + i
      let c := (s.bump 1 dl 34).chargeLane lp i
      if c.2 then c.1.retireLane lp i
      else if 3 ≤ (c.1.lane dl).fails then (c.1.permanent (resId 1 dl) 1).retireLane lp i
      else c.1

/-- TRAINING_ATTEMPT_FAIL (R177). -/
def execTrainingAttemptFail (lp : LpId) (lanes : List (Fin 8)) (s : State) (symbols : List (Fin 8 × Nat) := []) : Outcome :=
  done (s.trainFail lp (lanes.map (·.val)) symbols)

/-! ## Frames from the wire (R28, R173, R174) -/

/-- The bytes a port's receive FIFO holds for an LP: 8 KiB for each configured lane (R174). -/
def State.fifoCap (s : State) (lp : Nat) : Nat := 8192 * lanesPer (s.np (lp / 8)).breakout

/-- A MAC control frame: EtherType 0x8808 (R173). -/
def isMacCtrl (f : Bytes) : Bool := be f 12 2 == 0x8808

/-- No frame waits in the receive FIFO of port `n`. -/
def State.fifoIdle (s : State) (n : Nat) : Bool := (List.range 8).all (fun i => (s.lp (8 * n + i)).fifo.isEmpty)

/-- A frame of legal length and correct FCS takes a header credit, or without one enters the receive FIFO, or is dropped whole (R28, R31). A
frame takes its bytes without FCS of the FIFO. DESIGN CHOICE (log 27, 147). -/
def State.rxEnqueue (lp : Nat) (f : Bytes) (s : State) : State :=
  let n := lp / 8
  let x : RxFrame := { bytes := f, time := s.devNow }
  let held := (s.lp lp).fifo.foldl (fun a x => a + x.bytes.length) 0
  if (s.pipe n).hdrs.length < 32 ∧ s.fifoIdle n = true then s.modPipe n (fun q => { q with hdrs := q.hdrs ++ [(lp, x)] })
  else if s.fifoCap lp < held + f.length then s.bump 1 lp 5
  else s.modLp lp (fun l => { l with fifo := l.fifo ++ [x] })

/-- The MAC's verdict on a frame, FCS included (R173): undersize, oversize, FCS error, MAC control, or a frame to keep (answered without
FCS). -/
def State.macCheck (lp : Nat) (frame : Bytes) (fcsOk : Bool) (s : State) : State × Option Bytes :=
  if frame.length < 64 then (s.bump 1 lp 3, none)
  else if 9600 < frame.length then (s.bump 1 lp 4, none)
  else if !fcsOk then ((s.bump 1 lp 2).integrityDrop (lp / 64) 1, none)
  else
    let s := (s.bump 1 lp 0).bumpBy 1 lp 1 frame.length
    let f := frame.take (frame.length - 4)
    if isMacCtrl f then (s.bump 1 lp 6, none) else (s, some f)

/-! ## PORT_CONFIG (R115, R171, R267) -/

/-- Puts every LP of a port DOWN for a change, queued packets kept (R171). -/
def State.portDown (np : Nat) (s : State) : State :=
  s.each (fun lp s => (s.leaveUp lp 4).modLp lp (fun l => { l with state := .down })) (lpsOf np (s.np np).breakout)

/-- Starts training on every LP of a port that is enabled (R175). -/
def State.portStart (np : Nat) (s : State) : State :=
  if (s.np np).enable then s.each State.trainFresh (lpsOf np (s.np np).breakout) else s

/-- The default settings of a class queue, its packets kept (R267). -/
def EgQ.toDefault (q : EgQ) : EgQ := { q with weight := 1, shareKib := none, permille := 100 }

/-- The new configuration of a port comes into place: packets of removed LPs are flushed, settings return to the defaults where the
breakout changes, no LP uses lanes until it trains, and enabled LPs start training (R171, R175, R267). -/
def State.portApply (np breakout : Nat) (enable : Bool) (s : State) : State :=
  let old := (s.np np).breakout
  let s := s.each State.fillBucket (lpsOf np old)
  let gone := (lpsOf np old).filter (fun lp => !(lpsOf np breakout).contains lp)
  let s := s.each (fun lp s => s.flushLp lp 10) gone
  let s := if old = breakout then s
    else s.each (fun k => State.modEgq k EgQ.toDefault) ((List.range 64).map (fun i => 64 * np + i))
  let s := s.each (fun i => State.modLp (8 * np + i) (fun l => { l with lanes := [], state := .down })) (List.range 8)
  (s.modNp np (fun n => { n with breakout := breakout, enable := enable, pend := none })).portStart np

end Sys2Proof.Machine
end

