-- ==== Sys2Proof/Machine/LrdTx.lean ====
section
/-! DEFINITION. The transport's sending side: trust-domain and pair keys, packets on the wire, messages, their pacing and their completions
(R276 to R303, R312, R313, R318). -/

namespace Sys2Proof.Machine

open Sys2Proof

/-! ## Trust-domain keys (R285, R290) -/

def State.td (s : State) (h td : Nat) : Td := (if h = 0 then s.lrd.tdW else s.lrd.tdE).getD td {}
def State.modTd (h td : Nat) (f : Td → Td) (s : State) : State :=
  s.modLrd (fun l => if h = 0 then { l with tdW := l.tdW.upd td {} f } else { l with tdE := l.tdE.upd td {} f })
/-- The key that sending uses (R285). -/
def Td.sending (t : Td) : Option TdKey := if t.switchAt.isSome then t.prev else t.cur
/-- The key of an epoch that reception accepts (R285). -/
def Td.byEpoch (t : Td) (e : Nat) : Option TdKey :=
  match t.cur, t.prev with
  | some c, p => if c.epoch = e then some c else p.bind (fun k => if k.epoch = e then some k else none)
  | none, p => p.bind (fun k => if k.epoch = e then some k else none)
def State.tdSent (s : State) (td : Nat) : Nat := s.lrd.tdSent.getD td 0

/-- Counts a packet sent under a domain's sending epoch; at 2^47 EV_TD_EPOCH_LOW is posted (R290, R328). -/
def State.countTd (td epoch : Nat) (s : State) : State :=
  let n := s.tdSent td + 1
  let s := s.modLrd (fun l => { l with tdSent := Tab.set td n l.tdSent })
  if n = 2 ^ 47 then s.postInfra 0x0403 td (toLe 2 epoch ++ List.replicate 6 0 ++ toLe 8 n) else s

/-! ## Derived keys (R286, R287) -/

def PairKey.same (a b : PairKey) : Bool := a.td == b.td && a.epoch == b.epoch && a.src == b.src && a.dst == b.dst
def State.pairKeys (s : State) (h : Nat) : List PairKey := if h = 0 then s.lrd.keysW else s.lrd.keysE
def State.setPairKeys (h : Nat) (ks : List PairKey) (s : State) : State :=
  s.modLrd (fun l => if h = 0 then { l with keysW := ks } else { l with keysE := ks })
def State.hasPair (s : State) (h : Nat) (k : PairKey) : Bool := (s.pairKeys h).any k.same
/-- A pair key is used, or enters the cache of 32,768, which evicts the least recently used (R287). -/
def State.usePair (h : Nat) (k : PairKey) (s : State) : State :=
  let ks := s.pairKeys h
  let e := (ks.find? k.same).getD k
  s.setPairKeys h ((e :: ks.filter (fun x => !k.same x)).take 32768)
/-- Asks for the derivation of a pair key by a sequencer, once (R287). -/
def State.askPair (seq : Nat) (k : PairKey) (s : State) : State :=
  s.modLrd (fun l => { l with derive_ := l.derive_.upd seq [] (fun ks => if ks.any k.same then ks else ks ++ [k]) })

/-! ## Packets on the wire (R281 to R284, R288) -/

/-- What tells the packets of a sequencer apart: everything of the base header but the nonce, the stamps of the moment and PAY_LEN. -/
structure LrdHdr where
  type    : Nat
  notify  : Bool := false
  attempt : Nat := 1
  td      : Nat
  epoch   : Nat
  pktIdx  : Nat := 0
  dst     : Nat
  srcEp   : Nat
  srcGen  : Nat
  dstEp   : Nat
  dstGen  : Nat
  msg     : Nat
  msgTs   : BitVec 64
  msgLen  : Nat := 0

/-- The base header (R282). -/
def LrdHdr.bytes (h : LrdHdr) (node : Nat) (payLen : Nat) (now : BitVec 64) (salt : BitVec 32) (ctr : Nat) : Bytes :=
  [BitVec.ofNat 8 (16 + h.type), BitVec.ofNat 8 (b2n h.notify + 16 * h.attempt)] ++ toBe 2 h.td ++ toBe 2 h.epoch ++ toBe 2 h.pktIdx ++
  toBe 4 node ++ toBe 4 h.dst ++ toBe 4 (h.srcEp + 1048576 * h.srcGen) ++ toBe 4 (h.dstEp + 1048576 * h.dstGen) ++ toBe 6 h.msg ++
  toBe 2 payLen ++ toBe 8 now.toNat ++ toBe 8 h.msgTs.toNat ++ toBe 4 h.msgLen ++ toBe 4 salt.toNat ++ toBe 8 ctr

/-- H of R281. -/
def lrdHash (hdr : Bytes) : Nat := crc32c 0 (slice hdr 16 14 ++ toLe 1 (le hdr 1 1 / 16))

/-- The frame of an LRD packet (R281). -/
def lrdFrame (hop prefix_ : Bytes) (node dst cls : Nat) (hdr body : Bytes) : Bytes :=
  let h := lrdHash hdr
  let udp := 8 + hdr.length + body.length
  slice hop 0 6 ++ [0x02, 0x4C] ++ toBe 4 node ++ [0x86, 0xDD] ++
  toBe 4 (0x60000000 + cls * 33554432 + h % 1048576) ++ toBe 2 udp ++ [17, 64] ++
  slice prefix_ 0 12 ++ toBe 4 node ++ slice prefix_ 0 12 ++ toBe 4 dst ++
  toBe 2 (0xC000 + h % 0x4000) ++ toBe 2 20768 ++ toBe 2 udp ++ [0, 0] ++ hdr ++ body

/-- A packet built by sequencer `seq`, as the pipelines take it (R281). -/
def lrdPkt (seq cls : Nat) (frame : Bytes) (time : BitVec 64) : Pkt :=
  { frame := frame, hv := (parseFrame frame 3 0 0 seq 0 false false).1, source := 3, pipe := seq, cls := cls, queue := cls,
    time := time, half := halfOfPipe seq }

/-- The half where an endpoint number lives: that of its owner, or of its last owner (R280). -/
def State.homeOf (s : State) (ep : Nat) : Option Nat :=
  match s.ep ep with
  | some e => some (halfOfFid e.fid)
  | none => (Tab.find ep s.lrd.epLast).map halfOfFid

/-- The sequencer that takes a packet for an endpoint of the device itself (R279): the sending one, or its counterpart on the endpoint's
home half. DEDUCED (log 55). -/
def State.loopSeq (s : State) (seq ep : Nat) : Nat := ((s.homeOf ep).getD (halfOfPipe seq)) * 8 + seq % 8

/-- Gives the scheduler of a half inline LRD work (R332). -/
def State.giveInl (h : Nat) (j : InlJob) (s : State) : State := { s with net := { s.net with inl := s.net.inl.upd h [] (· ++ [j]) } }

/-- A packet that a sequencer has built goes to its half's scheduler, or waits for transport-to-cipher credit (R31, R332). -/
def State.submit (j : SealJob) (s : State) : State :=
  if s.seqCredit j.seq then s.giveInl (halfOfPipe j.seq) (.enc j)
  else { s with net := { s.net with lrdOut := s.net.lrdOut.upd j.seq [] (· ++ [j]) } }

/-- Packets of a sequencer that wait for credit are submitted in order, `k` at most (R31). -/
def State.pumpSeq (seq : Nat) : Nat → State → State
  | 0, s => s
  | k + 1, s =>
    match s.net.lrdOut.getD seq [] with
    | [] => s
    | j :: js =>
      if 64 ≤ s.seqJobs seq then s
      else (({ s with net := { s.net with lrdOut := Tab.set seq js s.net.lrdOut } }).giveInl (halfOfPipe seq) (.enc j)).pumpSeq seq k

/-- A sequencer builds a packet, with its time stamp and its nonce, and gives it to the cipher scheduler of its half (R281 to R290, R332). DEDUCED
(log 55). -/
def State.lrdSend (seq cls : Nat) (route : Option (Nat × Bytes)) (h : LrdHdr) (kt ext pay : Bytes) (s : State) : State :=
  match s.saltOf (halfOfPipe seq) with
  | none => s
  | some salt =>
    let n := s.lrd.ctr.getD seq 0
    let ctr := seq * 2 ^ 60 + n % 2 ^ 60
    let node := s.lrd.nodeId
    let j : SealJob :=
      { seq := seq, cls := cls, route := route, node := h.dst, dstEp := h.dstEp, hdr := h.bytes node pay.length s.devNow salt ctr, ext := ext,
        pay := pay, key := pairKey kt h.td h.epoch node h.dst, nonce := toBe 4 salt.toNat ++ toBe 8 ctr }
    let s := (s.modLrd (fun l => { l with ctr := Tab.set seq (n + 1) l.ctr })).bump 3 (halfOfPipe seq) 64
    let s := if (s.td (halfOfPipe seq) h.td).sending.map (·.epoch) = some h.epoch then s.countTd h.td h.epoch else s
    s.submit j

/-- A cipher core encrypts an LRD packet, and it leaves: to the egress half of its route's pipeline, or for the device itself to a sequencer of
the target's home half (R279, R281, R353, R375). DEDUCED (log 55). -/
def State.sealOut (j : SealJob) (s : State) : State :=
  let c := aeadSeal 1 j.key j.nonce (j.hdr ++ j.ext) j.pay
  let h := halfOfPipe j.seq
  let s := (s.bump 3 h 128).bumpBy 3 h 130 j.pay.length
  let f := lrdFrame (match j.route with
    | some r => r.2
    | none => [0x02, 0x4C] ++ toBe 4 j.node) s.sets.lrdPrefix s.lrd.nodeId j.node j.cls j.hdr (j.ext ++ c.1 ++ c.2)
  let p := lrdPkt j.seq j.cls f s.devNow
  match j.route with
  | some r => s.toEgress r.1 p
  | none => if s.apart && halfOfPipe (s.loopSeq j.seq j.dstEp) != h then s.splitDrop p else s.toSequencer (s.loopSeq j.seq j.dstEp) p

/-! ## Ending a message (R295, R298, R324) -/

/-- The completion of a message (R295). -/
def lrdCpl (m : Msg) (id status nak elapsedUs : Nat) : Bytes :=
  cplBytes m.user (if status = 0 then m.len else 0) status 0 0 m.op (m.sq + m.cls * 262144) (id % 4294967296)
    (id / 4294967296 + nak * 65536 + min elapsedUs 0xFFFFFFFF * 4294967296)

/-- A message leaves the turn of every pacer. -/
def State.unpace (k : Nat) (s : State) : State :=
  s.modLrd (fun l => { l with paths := l.paths.mapV (fun _ p => if p.turn.contains k then { p with turn := p.turn.filter (· != k) } else p) })

/-- A message ends with a status: it never sends again, its completion is earned, and the function's counters advance (R298, R330). -/
def State.endMsg (k status nak : Nat) (s : State) : State :=
  match s.msg k with
  | none => s
  | some m =>
    if m.state == .ended then s
    else
      let s := (s.setMsg k { m with state := .ended, data := [], pkts := [] }).unpace k
      let s := s.bump 0 m.fid (if status = 0 then 9 else 10)
      let s := if status = 0x10 then s.bump 0 m.fid 11 else s
      let s := if m.ready then s else (s.endRead m.fid (.data (sqKey m.sq) m.index)).begin_ m.sq m.index
      s.earn m.sq m.index (lrdCpl m (idOfMsg k) status nak ((s.clock.now - m.fetchedAt) / 1000))

/-! ## Handing packets to the pacer (R299, R313) -/

/-- Packets of a message of `n` bytes (R299). -/
def pktCount (n : Nat) : Nat := max 1 ((n + 4095) / 4096)
def Msg.count (m : Msg) : Nat := pktCount m.len
def Msg.half (m : Msg) : Nat := halfOfPipe m.seq
def Msg.path (m : Msg) : Nat := pathKey m.half m.node
def Msg.isRead (m : Msg) : Bool := m.op == 0x11

/-- The message joins the turn of its path's pacer while a packet of it waits there (R318). -/
def State.joinTurn (k : Nat) (s : State) : State :=
  match s.msg k with
  | none => s
  | some m =>
    if m.pkts.any (fun e => e.2.wait) then
      (s.needPath m.half m.node m.fid (s.lineOf m.route)).modPath m.path (fun p =>
        if p.turn.contains k then p else { p with turn := p.turn ++ [k] })
    else s

/-- Hands new WRITE packets below BASE_IDX + 256 to the pacer: `n` at most (R299). -/
def Msg.feedWrite (m : Msg) : Nat → Msg
  | 0 => m
  | n + 1 =>
    if m.next < min m.count (m.base + 256) then
      ({ m with pkts := Tab.set m.next {} m.pkts, next := m.next + 1 } : Msg).feedWrite n
    else m

/-- Response packets that a read has requested, or is about to request, and not received. -/
def Msg.reading (m : Msg) : Nat :=
  m.pkts.foldl (fun a e => a + ((List.range e.2.count).countP (fun i => !m.got.contains (e.1 + i)))) 0

/-- W of R313. -/
def readWindow (p : Path) : Nat := max 2 ((p.rate * max p.srtt 4000 + 32768000000000 - 1) / 32768000000000)

/-- Asks for one more run of response packets while W allows (R313). -/
def Msg.feedRead (m : Msg) (w : Nat) : Msg :=
  let n := min (w - m.reading) (m.count - m.next)
  if n = 0 then m else { m with pkts := Tab.set m.next { count := n } m.pkts, next := m.next + n }

/-- Hands what a message may send now to its pacer. -/
def State.feed (k : Nat) (s : State) : State :=
  match s.msg k with
  | none => s
  | some m =>
    if m.state != .sending && m.state != .awaiting then s
    else
      let m := if m.isRead then m.feedRead (match s.path m.path with
          | some p => readWindow p
          | none => 2) else m.feedWrite 256
      (s.setMsg k m).joinTurn k

/-! ## Starting a message (R279, R298, R327) -/

/-- The pair key a message needs to send. -/
def State.pairOf (s : State) (m : Msg) (epoch : Nat) : PairKey :=
  { td := m.td, epoch := epoch, src := s.lrd.nodeId, dst := m.node, fid := m.fid }

/-- A QUEUED message goes on as far as it can: it ends without a route, waits for a key, or begins to send (R298). -/
def State.launch (k : Nat) (s : State) : State :=
  match s.msg k with
  | none => s
  | some m =>
    if m.state != .queued || !m.ready then s
    else
      let own := decide (m.node = s.lrd.nodeId)
      let r := s.routeTo m.half (slice s.sets.lrdPrefix 0 12 ++ toBe 4 m.node)
      if s.apart && s.homeOf (epOfMsg k) != some m.half then s.endMsg k 0x12 0
      else if !own && r.isNone then s.endMsg k 0x11 0
      else if !own && s.apart && (r.map (fun x => x.1 / 64)) != some m.half then s.endMsg k 0x12 0
      else
        match (s.td m.half m.td).sending with
        | none => s
        | some t =>
          let pk := s.pairOf m t.epoch
          if !s.hasPair m.half pk then s.askPair m.seq pk
          else
            let route := if own then none else r
            let s := (s.usePair m.half pk).needPath m.half m.node m.fid (s.lineOf route)
            let rto := match s.path m.path with
              | some p => p.rto
              | none => 50000
            (s.setMsg k { m with state := .sending, route := route, rto := rto }).feed k

/-- A work request is fetched and becomes a message of the SQ's endpoint: it is counted, draws its MSG_ID and is outstanding from now on, with the
lifetime of this moment (R104, R293, R294, R298, R330). With no MSG_ID left it completes at once. DEDUCED (log 148). -/
def State.fetchMsg (n : Nat) (r : Ring) (d : FDesc) (s : State) : State :=
  match s.epOfSq n with
  | none => s
  | some (e, x) =>
    let b := d.bytes
    let life := le b 40 2
    let m : Msg :=
      { fid := r.fid, sq := n, index := d.index, op := dOpcode b, user := dUser b, len := dLength b, node := le b 16 4,
        dstEp := le b 20 4 % 1048576, dstGen := le b 20 4 / 1048576 % 256, raddr := le b 24 8, rkey := le b 32 4, imm := le b 36 4,
        life := 1000 * (if life = 0 then s.lrd.lifeUs else life), td := x.td, cls := r.cls, seq := (s.seqOf r.pipe).getD r.pipe,
        frags := d.frags.map (fun f => (f.1, f.2.1)), fetchedAt := d.fetchedAt, fetchedDev := d.fetchedDev }
    let s := s.bump 0 r.fid 8
    if 0xFFFFFFFFFFFF < x.nextMsg then
      (((s.bump 0 r.fid 10).modDesc n d.index (fun y => { y with msg := some (e, exhaustTag), begun := true })).earn n d.index
        (lrdCpl m 0 0x1C 0 0))
    else
      (((s.readData n r d).modEp e (fun x => { x with nextMsg := x.nextMsg + 1 })).modDesc n d.index (fun y =>
        { y with msg := some (e, x.nextMsg) })).setMsg (msgKey e x.nextMsg) m |>.touchEp e

/-- The next work request of an SQ has what it needs: its message goes on (R291, R298). -/
def State.lrdWork (op n : Nat) (data : Bytes) (s : State) : State :=
  match s.ring (sqKey n), s.nextDesc n with
  | some r, some d =>
    match d.msg with
    | none => s
    | some (e, k) =>
      match s.msg (msgKey e k) with
      | none => s
      | some m =>
        if r.use != .lrd || dOpcode d.bytes != op then s
        else
          let s := (s.endRead r.fid (.data (sqKey n) d.index)).begin_ n d.index
          (s.setMsg (msgKey e k) { m with data := if op = 0x11 then [] else slice data 0 m.len, ready := true }).launch (msgKey e k)
  | _, _ => s

/-- WRITE (R291): `data` is the source buffer as the device read it. -/
def execWrite (ring : RingNo) (data : Bytes) (s : State) : Outcome := done (s.lrdWork 0x10 ring.toNat data)
/-- READ (R291, R312). -/
def execRead (ring : RingNo) (s : State) : Outcome := done (s.lrdWork 0x11 ring.toNat [])
/-- WRITE_NOTIFY (R291). -/
def execWriteNotify (ring : RingNo) (data : Bytes) (s : State) : Outcome := done (s.lrdWork 0x12 ring.toNat data)

/-! ## The pacer (R300, R303, R318) -/

/-- The header of packet `i` of a message, without its attempt. -/
def Msg.hdr (m : Msg) (id srcGen epoch i attempt : Nat) (ep : Nat) (ts : BitVec 64) : LrdHdr :=
  { type := if m.isRead then 2 else 1, notify := m.op == 0x12, attempt := attempt, td := m.td, epoch := epoch,
    pktIdx := if m.isRead then 0 else i, dst := m.node, srcEp := ep, srcGen := srcGen, dstEp := m.dstEp, dstGen := m.dstGen,
    msg := id, msgTs := ts, msgLen := m.len }

/-- The extension and payload of packet `i` (R283). -/
def Msg.body (m : Msg) (i count : Nat) : Bytes × Bytes :=
  if m.isRead then (toBe 8 m.raddr ++ toBe 4 m.rkey ++ toBe 2 i ++ toBe 2 count, [])
  else (toBe 8 m.raddr ++ toBe 4 m.rkey ++ toBe 4 m.imm, (m.data.drop (4096 * i)).take 4096)

/-- Bytes that a packet costs the pacer: its frame with FCS and 20 more (R318). DEDUCED (log 55). -/
def paceCost (ext pay : Nat) : Nat := 14 + 40 + 8 + 64 + ext + pay + 16 + 4 + 20

/-- The moment a message's life ends (R303). DEDUCED (log 58). -/
def Msg.deadline (m : Msg) : Nat := m.msgTs.getD m.fetchedDev + m.life

/-- Records the transmission of packet `i` (R298 to R300). -/
def Msg.sent (m : Msg) (now i : Nat) (x : PktTx) : Msg :=
  let m := { m with
    pkts := Tab.set i { x with at_ := now, attempt := min 15 (x.attempt + 1), wait := false } m.pkts
    msgTs := some (m.msgTs.getD now)
    lastTx := max m.lastTx now }
  if m.state == .sending && decide (m.count ≤ m.next) && !m.pkts.any (fun e => e.2.wait && e.2.attempt == 0) then
    { m with state := .awaiting }
  else m

/-- The pacer of a path moves a message to the end of its turn, or out of it when no packet of it waits. -/
def State.turnOver (pk k : Nat) (s : State) : State :=
  let more := match s.msg k with
    | some m => m.pkts.any (fun e => e.2.wait)
    | none => false
  s.modPath pk (fun p => { p with turn := p.turn.filter (· != k) ++ (if more then [k] else []) })

/-- Messages whose packets wait for an entry of the path join its turn, which makes the entry where there is room for it (R315). DEDUCED
(log 59). -/
def State.joinPath (pk : Nat) (s : State) : State :=
  let waits := fun (k : Nat) (m : Msg) => m.path == pk && (m.state == .sending || m.state == .awaiting) && m.pkts.any (fun e => e.2.wait) &&
    !(s.path pk).any (fun p => p.turn.contains k)
  s.each State.joinTurn (s.lrd.msgs.keysWhere waits)

/-- PACER_SEND (R31, R290, R299, R303, R315, R318): the message whose turn it is sends its first waiting packet, if the bucket and the
sequencer's credit allow. -/
def State.pacerSend (h node : Nat) (s : State) : State :=
  let pk := pathKey h node
  let s := s.joinPath pk
  let s := s.modPath pk (Path.fill s.clock.dev)
  match s.path pk with
  | none => s
  | some p =>
    match p.turn with
    | [] => s
    | k :: _ =>
      match s.msg k, s.ep (epOfMsg k) with
      | some m, some e =>
        match m.pkts.find? (fun x => x.2.wait) with
        | none => s.turnOver pk k
        | some (i, x) =>
          if m.state == .backoff || m.state == .ended then s.modPath pk (fun p => { p with turn := p.turn.filter (· != k) })
          else if m.deadline < s.clock.dev then
            (s.setMsg k { m with pkts := m.pkts.mapV (fun _ x => { x with wait := false }) }).turnOver pk k
          else
            match (s.td h m.td).sending with
            | none => s
            | some t =>
              let prk := s.pairOf m t.epoch
              let b := m.body i x.count
              let cost := paceCost b.1.length b.2.length * 8000000000
              if !s.hasPair h prk then s.askPair m.seq prk
              else if !s.seqCredit m.seq then s
              else if 2 ^ 48 ≤ s.tdSent m.td then s.endMsg k 0x1B 0
              else if s.apart && m.route.any (fun r => r.1 / 64 != h) then s.endMsg k 0x12 0
              else if p.bucket < cost then s
              else
                let now := s.clock.dev
                let ts := devWord (m.msgTs.getD now)
                let s := ((s.usePair h prk).needPath h node m.fid (s.lineOf m.route)).modPath pk (fun p => { p with bucket := p.bucket - cost })
                let s := if x.attempt = 0 then s.bumpBy 0 m.fid 12 b.2.length else (s.bump 3 h 66).bump 0 m.fid 14
                let s := s.setMsg k (m.sent now i x)
                (s.lrdSend m.seq m.cls m.route (m.hdr (idOfMsg k) e.gen.toNat t.epoch i (min 15 (x.attempt + 1)) (epOfMsg k) ts) t.key
                  b.1 b.2).turnOver pk k
      | _, _ => s.modPath pk (fun p => { p with turn := p.turn.filter (· != k) })

/-- PACER_SEND (R318). -/
def execPacerSend (half : Half) (node : BitVec 32) (s : State) : Outcome := done (s.pacerSend half node.toNat)

/-! ## Timers of a message (R300, R301, R303) -/

/-- READ: the runs of indices below `first + n` that a request asked for and that have not arrived. -/
def missingRuns (got : List Nat) : Nat → Nat → Option (Nat × Nat) → List (Nat × Nat)
  | _, 0, none => []
  | _, 0, some r => [r]
  | i, n + 1, cur =>
    if got.contains i then
      (match cur with
        | some r => [r]
        | none => []) ++ missingRuns got (i + 1) n none
    else missingRuns got (i + 1) n (some (match cur with
      | some r => (r.1, r.2 + 1)
      | none => (i, 1)))

/-- Marks packet `i` for retransmission; for a READ its request is cut to the runs still missing. DEDUCED (log 55). -/
def Msg.again (m : Msg) (i : Nat) (x : PktTx) : Msg :=
  if m.isRead then
    { m with pkts := (missingRuns m.got i x.count none).foldl (fun t r => Tab.set r.1 { x with wait := true, count := r.2 } t) (Tab.del i m.pkts) }
  else { m with pkts := Tab.set i { x with wait := true } m.pkts }

/-- A packet has been sent and is not acknowledged (R300). -/
def Msg.open_ (m : Msg) (i : Nat) (x : PktTx) : Bool :=
  !x.wait && x.attempt != 0 && (if m.isRead then (List.range x.count).any (fun j => !m.got.contains (i + j)) else !x.acked)

/-- Every packet has been acknowledged and DONE has not come: the last one is sent again (R300). -/
def Msg.lastDue (m : Msg) (now : Nat) : List (Nat × PktTx) :=
  if m.isRead || m.state != .awaiting || m.pkts.any (fun e => !e.2.acked || e.2.wait) then []
  else m.pkts.filter (fun e => e.1 + 1 == m.count && decide (e.2.at_ + m.rto ≤ now))

/-- The packets whose timer has expired. -/
def Msg.due (m : Msg) (now : Nat) : List (Nat × PktTx) :=
  m.pkts.filter (fun e => m.open_ e.1 e.2 && decide (e.2.at_ + m.rto ≤ now)) ++ m.lastDue now

/-- RETRANSMIT_TIMER (R300, R317). -/
def execRetransmitTimer (ep : BitVec 20) (msg : BitVec 48) (dt : Nat) (s : State) : Outcome :=
  let s := s.advance dt
  let k := msgKey ep.toNat msg.toNat
  match s.msg k with
  | none => done s
  | some m =>
    let due := m.due s.clock.dev
    if (m.state != .sending && m.state != .awaiting) || due.isEmpty then done s
    else
      let m := due.foldl (fun m e => m.again e.1 e.2) m
      let s := s.setMsg k { m with rto := min 500000 (2 * m.rto) }
      done ((s.modPath m.path (Path.expire s.clock.dev)).joinTurn k)

/-- BACKOFF_END (R298, R301): RETRY_US has passed; every unacknowledged packet that has been sent is retransmitted. -/
def execBackoffEnd (ep : BitVec 20) (msg : BitVec 48) (dt : Nat) (s : State) : Outcome :=
  let s := s.advance dt
  let k := msgKey ep.toNat msg.toNat
  match s.msg k with
  | none => done s
  | some m =>
    if m.state != .backoff || decide (s.clock.dev < m.until_) then done s
    else
      let m := (m.pkts.filter (fun e => m.open_ e.1 e.2)).foldl (fun m e => m.again e.1 e.2) m
      let fresh := decide (m.next < m.count) || m.pkts.any (fun e => e.2.attempt == 0)
      done ((s.setMsg k { m with state := if fresh then .sending else .awaiting }).feed k)

/-- MESSAGE_LIFETIME_EXPIRY (R298, R303). -/
def execMessageLifetimeExpiry (ep : BitVec 20) (msg : BitVec 48) (dt : Nat) (s : State) : Outcome :=
  let s := s.advance dt
  let k := msgKey ep.toNat msg.toNat
  match s.msg k with
  | none => done s
  | some m => if m.state != .ended && decide (m.deadline ≤ s.clock.dev) then done (s.endMsg k 0x10 0) else done s

/-- SENDING_KEY_SWITCH (R285, R290): 1 s after the commit point of TD_KEY_SET, sending uses CURRENT and its count begins anew. -/
def execSendingKeySwitch (td : Fin 4096) (dt : Nat) (s : State) : Outcome :=
  let s := s.advance dt
  let due := fun (h : Nat) => match (s.td h td).switchAt with
    | some t => decide (t ≤ s.clock.dev)
    | none => false
  let go := fun (h : Nat) (s : State) => if due h then s.modTd h td (fun t => { t with switchAt := none }) else s
  let n := s.each go [0, 1]
  if due 0 || due 1 then done (n.modLrd (fun l => { l with tdSent := Tab.del td l.tdSent })) else done n

/-- START_GUARD_END (R305): the start guard ends at G0 + T_keep. -/
def execStartGuardEnd (dt : Nat) (s : State) : Outcome :=
  let s := s.advance dt
  match s.clock.startG0 with
  | some g => if g + tKeep ≤ s.clock.dev then done { s with clock := { s.clock with startG0 := none } } else done s
  | none => done s

end Sys2Proof.Machine
end

