-- ==== Sys2Proof/Machine/LrdRx.lean ====
section
/-! DEFINITION. The transport's receiving side: checks, records, acknowledgements, reads, the miss queue, windows and NAKs (R304 to R314,
R319 to R325). -/

namespace Sys2Proof.Machine

open Sys2Proof

/-! ## A received packet (R282 to R284) -/

/-- The LRD part of a packet. -/
def lrdBytes (p : Pkt) : Bytes := p.frame.drop (le p.hv 44 2 - 32)
def lrdType (b : Bytes) : Nat := le b 0 1 % 16
def lrdTd (b : Bytes) : Nat := be b 2 2 % 4096
def lrdEpoch (b : Bytes) : Nat := be b 4 2
def lrdIdx (b : Bytes) : Nat := be b 6 2 % 4096
def lrdSrc (b : Bytes) : Nat := be b 8 4
def lrdDst (b : Bytes) : Nat := be b 12 4
def lrdSrcEp (b : Bytes) : Nat := be b 16 4 % 1048576
def lrdSrcGen (b : Bytes) : Nat := be b 16 4 / 1048576 % 256
def lrdDstEp (b : Bytes) : Nat := be b 20 4 % 1048576
def lrdDstGen (b : Bytes) : Nat := be b 20 4 / 1048576 % 256
def lrdMsg (b : Bytes) : Nat := be b 24 6
def lrdPay (b : Bytes) : Nat := be b 30 2 % 8192
def lrdSendTs (b : Bytes) : BitVec 64 := BitVec.ofNat 64 (be b 32 8)
def lrdMsgTs (b : Bytes) : BitVec 64 := BitVec.ofNat 64 (be b 40 8)
def lrdLen (b : Bytes) : Nat := be b 48 4 % 33554432
def lrdNotify (b : Bytes) : Bool := bit (le b 1 1) 0
/-- Bytes of the extension (R283). -/
def lrdExtLen (b : Bytes) : Nat := if lrdType b = 4 then 48 else 16
def lrdExt (b : Bytes) : Bytes := slice b 64 (lrdExtLen b)
def lrdText (b : Bytes) : Bytes := slice b (64 + lrdExtLen b) (lrdPay b)
def lrdTag (b : Bytes) : Bytes := slice b (64 + lrdExtLen b + lrdPay b) 16

/-- A reserved field of the base header or the extension is not zero (R282 to R284). -/
def lrdReservedBad (b : Bytes) : Bool :=
  let x := lrdExt b
  le b 1 1 / 2 % 8 != 0 || be b 2 2 / 4096 != 0 || be b 6 2 / 4096 != 0 || be b 16 4 / 2 ^ 28 != 0 || be b 20 4 / 2 ^ 28 != 0 ||
  be b 30 2 / 8192 != 0 || be b 48 4 / 33554432 != 0 ||
  match lrdType b with
  | 2 => be x 12 2 / 4096 != 0 || be x 14 2 / 8192 != 0
  | 3 => be x 12 4 != 0
  | 4 => be x 12 2 / 4096 != 0 || be x 14 2 / 512 != 0 || be x 14 2 % 256 != 0
  | 5 => be x 12 4 != 0
  | 6 => be x 8 8 != 0
  | _ => false

/-- The header checks of R284. DEDUCED (log 56). -/
def lrdHdrOk (p : Pkt) (b : Bytes) : Bool :=
  le b 0 1 / 16 == 1 && decide (1 ≤ lrdType b) && decide (lrdType b ≤ 6) && !lrdReservedBad b &&
  be p.frame (le p.hv 34 2 + 4) 2 == 8 + 64 + lrdExtLen b + 16 + lrdPay b

/-- A packet is stale (R304). -/
def State.lrdStale (s : State) (b : Bytes) : Bool :=
  decide ((tStale : Int) < s.age (lrdSendTs b)) || decide (s.age (lrdSendTs b) < -1000000) ||
  (decide (lrdType b ≤ 3) && decide ((tStale : Int) < s.age (lrdMsgTs b)))

/-- Where answers to a packet go. -/
def replyOf (seq : Nat) (p : Pkt) (b : Bytes) : Reply :=
  { seq := seq, ip := slice p.hv 64 16, loop := p.source == 3, cls := le p.hv 97 1 / 32, td := lrdTd b, epoch := lrdEpoch b,
    node := lrdSrc b, ep := lrdSrcEp b, gen := lrdSrcGen b, dstEp := lrdDstEp b, dstGen := lrdDstGen b, msg := lrdMsg b,
    msgTs := lrdMsgTs b }

/-- Takes a packet from the front of a sequencer's queue, or puts packets back there. -/
def State.seqFront (seq : Nat) (ps : List Pkt) (s : State) : State :=
  { s with net := { s.net with seqIn := s.net.seqIn.upd seq [] (fun q => ps ++ q) } }
def State.seqPop (seq : Nat) (s : State) : State :=
  { s with net := { s.net with seqIn := s.net.seqIn.upd seq [] (fun q => q.drop 1) } }

/-- What steps 1 to 5 of R306 make of a packet. -/
inductive RxPre where
  | gone (s : State)
  | wait (s : State) (k : PairKey)
  | pass (key : TdKey)

/-- The halves are apart and a packet's endpoint has its home on the other half than the sequencer (R327). -/
def State.lrdAcross (s : State) (seq : Nat) (b : Bytes) : Bool :=
  s.apart && (s.homeOf (lrdDstEp b)).any (fun h => h != halfOfPipe seq)

/-- Steps 1 to 5 of R306. -/
def State.rxPre (s : State) (seq : Nat) (p : Pkt) (b : Bytes) : RxPre :=
  let h := halfOfPipe seq
  if !s.lrdRuns h then .gone (s.bump 3 h 67)
  else if !lrdHdrOk p b then .gone (s.bump 3 h 68)
  else if lrdDst b != s.lrd.nodeId then .gone (s.bump 3 h 69)
  else if s.lrdStale b then .gone (s.bump 3 h 70)
  else
    match (s.td h (lrdTd b)).byEpoch (lrdEpoch b) with
    | none => .gone (s.bump 3 h 71)
    | some t =>
      let fid := match Tab.find (lrdDstEp b) s.lrd.epLast with
        | some f => f
        | none => 8192
      let k : PairKey := { td := lrdTd b, epoch := lrdEpoch b, src := lrdSrc b, dst := s.lrd.nodeId, fid := fid }
      if !s.hasPair h k then .wait s k
      else if s.lrdAcross seq b then .gone (s.bump 3 h 9216)
      else .pass t

/-- The miss queue of a half (R320). -/
def State.missQ (s : State) (h : Nat) : List Pkt := if h = 0 then s.lrd.missW else s.lrd.missE
def State.setMissQ (h : Nat) (ps : List Pkt) (s : State) : State :=
  s.modLrd (fun l => if h = 0 then { l with missW := ps } else { l with missE := ps })

/-- EV_MISSQ_DROP (R328). -/
def State.postMissDrop (h : Nat) (s : State) : State := s.postInfra 0x0401 h (toLe 4 (s.stat 3 h 73 % 4294967296))

/-- Step 6 of R306: a packet whose endpoint is off chip waits in the miss queue of the endpoint's home half (R320). -/
def State.rxMiss (seq : Nat) (p : Pkt) (b : Bytes) (s : State) : Option State :=
  match s.ep (lrdDstEp b) with
  | none => none
  | some e =>
    if e.onChip then none
    else
      let h := halfOfFid e.fid
      let q := s.missQ h
      if 4096 ≤ q.length ∨ 256 ≤ q.countP (fun x => lrdDstEp (lrdBytes x) == lrdDstEp b) then
        some ((s.bump 3 h 73).postMissDrop h)
      else some ((s.setMissQ h (q ++ [{ p with pipe := seq }])).fetchEp (lrdDstEp b))

/-- A packet that has passed its checks goes to the cipher scheduler of the sequencer's half for its tag check (R306, R332). -/
def State.toOpen (seq : Nat) (p : Pkt) (b : Bytes) (t : TdKey) (s : State) : State :=
  s.giveInl (halfOfPipe seq) (.dec { seq := seq, pkt := p, key := pairKey t.key (lrdTd b) (lrdEpoch b) (lrdSrc b) s.lrd.nodeId })

/-- Steps 1 to 6 of R306 on the packet at the front of a sequencer's queue, if it is of a type and the sequencer has cipher credit (R31); `miss`
says that step 6 applies. One that comes from the miss queue has passed them, and is left without a key where its epoch has gone. DESIGN CHOICE
(log 122). -/
def State.rxSubmit (seq : Nat) (types : Nat → Bool) (miss : Bool) (s : State) : State :=
  match s.net.seqIn.getD seq [] with
  | [] => s
  | p :: _ =>
    let b := lrdBytes p
    let h := halfOfPipe seq
    if !types (lrdType b) || !s.seqCredit seq then s
    else
      let s := s.seqPop seq
      if p.past then
        if s.lrdAcross seq b then s.bump 3 h 9216
        else
          match (s.td h (lrdTd b)).byEpoch (lrdEpoch b) with
          | none => s.bump 3 h 71
          | some t => s.toOpen seq p b t
      else
        match s.rxPre seq p b with
        | .gone s => s
        | .wait s key => (s.askPair seq key).modLrd (fun l => { l with keyWait := l.keyWait.upd seq [] (· ++ [p]) })
        | .pass t =>
          let s := s.usePair h { td := lrdTd b, epoch := lrdEpoch b, src := lrdSrc b, dst := s.lrd.nodeId, fid := 8192 }
          match (if miss then s.rxMiss seq p b else none) with
          | some s => s
          | none => s.toOpen seq p b t

/-- A cipher core checks the tag of a packet (R284, R286, R307, R353, R375): one that verifies goes back to its sequencer with its plaintext, any
other is dropped in AUTH_FAIL. -/
def State.openOut (j : OpenJob) (s : State) : State :=
  let b := lrdBytes j.pkt
  let h := halfOfPipe j.seq
  let x := aeadOpen 1 j.key (slice b 52 4 ++ slice b 56 8) (slice b 0 (64 + lrdExtLen b)) (lrdText b) (lrdTag b)
  let s := (s.bump 3 h 128).bumpBy 3 h 130 (lrdPay b)
  if x.2 then { s with net := { s.net with opened := s.net.opened.upd j.seq [] (· ++ [(j.pkt, x.1)]) } }
  else (s.bump 3 h 72).integrityDrop h 9

/-- The common steps of a packet of a type (R306, R307): `k` carries out one whose tag has verified; where none of the type stands at the front of
those, the next one that has arrived is submitted. One whose endpoint the split has parted from the sequencer is dropped (R327). DESIGN CHOICE (log
122). -/
def State.rxTake (seq : Nat) (types : Nat → Bool) (miss : Bool) (k : Pkt → Bytes → Bytes → State → State) (s : State) : State :=
  match s.net.opened.getD seq [] with
  | [] => s.rxSubmit seq types miss
  | (p, pay) :: rest =>
    if types (lrdType (lrdBytes p)) then
      let s := { s with net := { s.net with opened := Tab.set seq rest s.net.opened } }
      if s.lrdAcross seq (lrdBytes p) then s.bump 3 (halfOfPipe seq) 9216 else k p (lrdBytes p) pay s
    else s.rxSubmit seq types miss

/-! ## Answers (R283, R301, R309) -/

/-- An answer to a received packet can be sent: its epoch is still known, its route is there (R309), and its domain is below the limit of
R290. -/
def State.canAnswer (s : State) (r : Reply) : Bool :=
  let h := halfOfPipe r.seq
  ((s.td h r.td).byEpoch r.epoch).isSome && (r.loop || (s.routeTo h r.ip).isSome) && decide (s.tdSent r.td < 2 ^ 48)

/-- Sends a control packet or a response to where a received packet came from: under its TD and epoch, without the pacer (R318); one with no
route is not sent (R309). The pair key for answers is derived as it is needed. -/
def State.answer (r : Reply) (type : Nat) (pktIdx msgLen : Nat) (ext pay : Bytes) (s : State) : State :=
  let h := halfOfPipe r.seq
  match (s.td h r.td).byEpoch r.epoch with
  | none => s
  | some t =>
    let route := s.routeTo h r.ip
    if !r.loop && route.isNone then s.bump 3 h 84
    else if 2 ^ 48 ≤ s.tdSent r.td then s
    else
      let fid := match Tab.find r.dstEp s.lrd.epLast with
        | some f => f
        | none => 8192
      let s := s.usePair h { td := r.td, epoch := r.epoch, src := s.lrd.nodeId, dst := r.node, fid := fid }
      s.lrdSend r.seq r.cls (if r.loop then none else route)
        { type := type, td := r.td, epoch := r.epoch, pktIdx := pktIdx, dst := r.node, srcEp := r.dstEp, srcGen := r.dstGen,
          dstEp := r.ep, dstGen := r.gen, msg := r.msg, msgTs := r.msgTs, msgLen := msgLen } t.key ext pay

/-- A NAK (R283, R323); only one that is sent is counted (R329). -/
def State.nak (r : Reply) (sendTs : BitVec 64) (code reason retryUs : Nat) (s : State) : State :=
  (s.when (s.canAnswer r) (State.bump 3 (halfOfPipe r.seq) 80)).answer r 5 0 0 (toBe 8 sendTs.toNat ++ toBe 1 code ++ toBe 1 reason ++ toBe 2 retryUs ++ [0, 0, 0, 0]) []

/-- The lowest index a record has not received. -/
def lowestMissing (got : List Nat) : Nat := (lowestFree (fun i => got.contains i) 0 4097).getD 4096

/-- BITMAP of an ACK (R283). -/
def ackBitmap (got : List Nat) (base : Nat) : Nat :=
  got.foldl (fun a i => if base ≤ i ∧ i < base + 256 then a + 2 ^ (i - base) else a) 0

/-- The extension of an ACK for a record (R283). -/
def Rec.ackExt (r : Rec) (hold : Nat) : Bytes :=
  let fin := r.state == .finished
  let b := if fin then 0 else lowestMissing r.got
  toBe 8 r.echo.toNat ++ toBe 4 (min hold 0xFFFFFFFF) ++ toBe 2 b ++ [BitVec.ofNat 8 (b2n fin), 0] ++
  toBe 32 (if fin then 0 else ackBitmap r.got b)

/-- The records of a half's duplicate filter (R308, R311). -/
def State.recs (s : State) (h : Nat) : List Rec := if h = 0 then s.lrd.recsW else s.lrd.recsE
def State.setRecs (h : Nat) (rs : List Rec) (s : State) : State :=
  s.modLrd (fun l => if h = 0 then { l with recsW := rs } else { l with recsE := rs })
def Reply.sameMsg (a b : Reply) : Bool := a.node == b.node && a.ep == b.ep && a.gen == b.gen && a.msg == b.msg
def State.rec_ (s : State) (h : Nat) (r : Reply) : Option Rec := (s.recs h).find? (fun x => x.reply.sameMsg r)
/-- The record of the same message replaced. -/
def State.setRec (h : Nat) (x : Rec) (s : State) : State :=
  s.setRecs h ((s.recs h).map (fun y => if y.reply.sameMsg x.reply then x else y))
/-- A new record; EV_FILTER_HIGH is posted as occupancy reaches 90 % of 4,194,304 (R311, R328). -/
def State.newRec (h : Nat) (x : Rec) (s : State) : State :=
  let n := (s.recs h).length + 1
  let s := s.setRecs h (s.recs h ++ [x])
  if n = 3774874 then s.postInfra 0x0402 h (toLe 4 n) else s

/-- Sends the ACK of a record and starts its next interval (R309). -/
def State.sendAck (h : Nat) (x : Rec) (s : State) : State :=
  let hold := s.clock.dev - x.arrived
  let x' := { x with newly := 0, firstAt := none, doneAck := if x.state == .finished then some s.clock.dev else x.doneAck }
  (s.setRec h x').answer x.reply 4 0 0 (x.ackExt hold) []

/-! ## Endpoints and windows (R297, R322, R325) -/

/-- Step 7 of R306: the NAK code of a packet for an endpoint, or none where it proceeds (R325); from the moment its owner enters ABORTING it
answers NO_ENDPOINT (R59). -/
def State.epJudge (s : State) (b : Bytes) : Option Nat :=
  let g := lrdDstGen b
  let other :=
    match Tab.find (lrdDstEp b) s.lrd.epLast with
    | some f => if (s.fn f).state == .active && (s.fn f).gen.toNat != g then 3 else 4
    | none => 4
  match s.ep (lrdDstEp b) with
  | some e =>
    if (s.fn e.fid).state != .active then some 4
    else if e.gen.toNat = g then (if e.td = lrdTd b then none else some 8)
    else some other
  | none => some other

/-- Step 11 of R306 for the window (R322): the NAK code, or none. `addr` and `len` are the bytes addressed. DEDUCED (log 58). -/
def State.winJudge (s : State) (ep : Nat) (e : Ep) (rkey : Nat) (access addr len : Nat) : Option Nat :=
  match Tab.find (rkey / 256) s.lrd.wins with
  | none => some 5
  | some w =>
    if w.fid != e.fid then some 5
    else if w.gen.toNat != rkey % 256 || !w.live then some 2
    else if w.ep.any (· != ep) then some 5
    else if !bit w.access access then some 6
    else if len != 0 && (decide (addr < w.addr) || decide (w.addr + w.len < addr + len)) then some 7
    else none

/-- The length rule of R284 for a packet with payload. DEDUCED (log 56). -/
def payOk (len idx pay : Nat) : Bool :=
  decide (idx < pktCount len) && pay == (if idx + 1 = pktCount len then len - 4096 * idx else 4096)

/-- Step 11 for a WRITE packet (R284, R322). -/
def State.writeJudge (s : State) (ep : Nat) (e : Ep) (b : Bytes) : Option Nat :=
  let x := lrdExt b
  match s.winJudge ep e (be x 8 4) 0 (be x 0 8 + 4096 * lrdIdx b) (if lrdLen b = 0 then 0 else lrdPay b) with
  | some c => some c
  | none =>
    if 16777216 < lrdLen b ∨ (lrdLen b = 0 ∧ !lrdNotify b) ∨ payOk (lrdLen b) (lrdIdx b) (lrdPay b) = false then some 9 else none

/-- What an endpoint's notification hold counts (R297): 64 at most. -/
def State.notifyHeld (s : State) (h ep : Nat) (e : Ep) : Nat :=
  (s.recs h).countP (fun r => r.notify && r.state == .receiving && r.reply.dstEp == ep) +
  (s.workOf (cqKey e.cq)).due.countP (fun c => c.lrd == some (ep, notifyTag))

/-- The notification of an executed WRITE_NOTIFY (R296). -/
def State.notifyEp (ep : Nat) (e : Ep) (x : Rec) (s : State) : State :=
  let r := x.reply
  let b := cplBytes (x.imm + r.node * 4294967296) x.len 0 0 0 0x12 (e.sq + r.cls * 262144) (r.ep + r.gen * 1048576) x.raddr
  s.modWork (cqKey e.cq) (fun w => { w with due := w.due ++ [{ bytes := b, sq := e.sq, lrd := some (ep, notifyTag) }] })

/-! ## WRITE packets (R301, R305 to R309) -/

/-- The guards of step 9: REASON and RETRY_US (R192, R301, R305). DEDUCED (log 56). -/
def State.guardJudge (s : State) (b : Bytes) : Option (Nat × Nat) :=
  let c := s.clock
  let before := fun (w : BitVec 64) (t : Nat) => decide (s.stampNs w < t)
  match c.startG0.filter (fun g => decide (c.dev < g + tKeep) && before (lrdMsgTs b) g), c.guarded.filter (before (lrdSendTs b)) with
  | some g, _ => some (4, min 1000 ((g + tKeep - c.dev + 999) / 1000 + 10))
  | none, some g => some (3, min 1000 ((g - c.dev + 999) / 1000 + 10))
  | none, none => none

/-- A packet's payload is written to its place (R283, R330). -/
def State.lrdWriteHost (e : Ep) (b pay : Bytes) (s : State) : State :=
  if pay.isEmpty then s
  else (s.dmaWrite e.fid (BitVec.ofNat 64 (be (lrdExt b) 0 8 + 4096 * lrdIdx b)) pay).bumpBy 0 e.fid 13 pay.length

/-- Answers go out through the sequencer that took the newest packet, back to where it came from (R309). -/
def Reply.through (x r : Reply) : Reply := { x with seq := r.seq, ip := r.ip, loop := r.loop, epoch := r.epoch }

/-- Step 13: the record takes the packet, and an ACK is sent when it is due at once (R308, R309). -/
def State.recTake (h ep : Nat) (e : Ep) (r : Reply) (x : Rec) (p : Pkt) (b pay : Bytes) (s : State) : State :=
  let s := s.lrdWriteHost e b pay
  let x := { x with
    reply := x.reply.through r
    got := x.got ++ [lrdIdx b], newly := x.newly + 1, firstAt := some (x.firstAt.getD s.clock.dev)
    echo := lrdSendTs b, arrived := s.stampNs p.time }
  if x.got.length = pktCount x.len then
    let x := { x with state := .finished }
    let s := s.setRec h x
    let s := if x.notify then s.notifyEp ep e x else s
    s.sendAck h x
  else if 8 ≤ x.newly then (s.setRec h x).sendAck h x
  else s.setRec h x

/-- Steps 7 to 13 of R306 for a WRITE packet whose tag has verified. -/
def State.rxWrite (seq : Nat) (p : Pkt) (b pay : Bytes) (s : State) : State :=
  let r := replyOf seq p b
  let ts := lrdSendTs b
  match s.epJudge b, s.ep (lrdDstEp b) with
  | some c, _ => s.nak r ts c 0 0
  | none, none => s.nak r ts 4 0 0
  | none, some e =>
    let ep := lrdDstEp b
    let h := halfOfFid e.fid
    let s := s.touchEp ep
    match s.rec_ h r with
    | some x =>
      match x.state with
      | .receiving =>
        if x.got.contains (lrdIdx b) then
          s.setRec h { x with reply := x.reply.through r, firstAt := some (x.firstAt.getD s.clock.dev), echo := ts, arrived := s.stampNs p.time }
        else
          match (if x.len = lrdLen b then s.writeJudge ep e b else some 9) with
          | some c => (s.setRec h { x with state := .failed c }).nak r ts c 0 0
          | none => s.recTake h ep e r x p b pay
      | .finished =>
        let s := s.bump 3 h 78
        let ok := match x.doneAck with
          | some t => decide (t + 2000 ≤ s.clock.dev)
          | none => true
        if ok then s.sendAck h { x with reply := { r with dstGen := x.reply.dstGen }, echo := ts, arrived := s.stampNs p.time } else s
      | .failed c => (s.bump 3 h 78).nak r ts c 0 0
      | .released _ => s.bump 3 h 78
    | none =>
      match s.guardJudge b with
      | some g => s.nak r ts 1 g.1 g.2
      | none =>
        if 4194304 ≤ (s.recs h).length then s.nak r ts 1 1 100
        else if lrdNotify b && decide (64 ≤ s.notifyHeld h ep e) then s.nak r ts 1 2 50
        else
          let x : Rec := { reply := r, created := s.clock.dev, len := lrdLen b, notify := lrdNotify b, imm := be (lrdExt b) 12 4,
                           raddr := be (lrdExt b) 0 8 }
          match s.writeJudge ep e b with
          | some c => (s.newRec h { x with state := .failed c }).nak r ts c 0 0
          | none => (s.newRec h x).recTake h ep e r x p b pay

/-- WRITE_PACKET (R306): the packet at the front of the sequencer's queue, a WRITE or one whose type is not listed. -/
def execWritePacket (seq : PipeId) (s : State) : Outcome :=
  done (s.rxTake seq (fun t => t == 1 || t == 0 || decide (6 < t)) true (State.rxWrite seq))

/-! ## Reads (R312, R314) -/

/-- Sends the responses of a READ_REQ, `n` of them from index `i`, and counts their payload for the window's owner (R283, R314, R330). -/
def State.sendResponses (fid : Nat) (r : Reply) (echo : Bytes) (arrived len : Nat) (data : Bytes) : Nat → Nat → State → State
  | _, 0, s => s
  | i, n + 1, s =>
    let pay := (data.take 4096).take (len - 4096 * i)
    let s := s.when (s.canAnswer r) (State.bumpBy 0 fid 12 pay.length)
    let s := s.answer r 3 i len (echo ++ toBe 4 (min (s.clock.dev - arrived) 0xFFFFFFFF) ++ [0, 0, 0, 0]) pay
    s.sendResponses fid r echo arrived len (data.drop 4096) (i + 1) n

/-- The first `k` requests of a read complete with a failed ECRC, and each is issued once more (R42). -/
def State.reissue (fid : Nat) (u : ReadUse) (k : Nat) (s : State) : State :=
  let l := s.linkOf fid
  s.each (fun (e : Nat × HostRead) s => (s.hifErr l 1).sendRead l e.1 { e.2 with retried := true })
    (((s.link l).reads.filter (fun e => e.2.use == u && e.2.fid == fid && !e.2.orphan)).take k)

/-- A READ_REQ whose tag has verified (R42, R306, R314): `data` is what the host memory held where it was asked for, none where the host read
fails. -/
def State.rxReadReq (seq : Nat) (data : Option Bytes) (ecrcFails : Nat) (p : Pkt) (b _pay : Bytes) (s : State) : State :=
  let r := replyOf seq p b
  let ts := lrdSendTs b
  let x := lrdExt b
  let first := be x 12 2
  let count := be x 14 2
  match s.epJudge b, s.ep (lrdDstEp b) with
  | some c, _ => s.nak r ts c 0 0
  | none, none => s.nak r ts 4 0 0
  | none, some e =>
    let s := s.touchEp (lrdDstEp b)
    match s.winJudge (lrdDstEp b) e (be x 8 4) 1 (be x 0 8) (lrdLen b) with
    | some c => s.nak r ts c 0 0
    | none =>
      if lrdLen b = 0 ∨ 16777216 < lrdLen b ∨ count = 0 ∨ pktCount (lrdLen b) < first + count then s.nak r ts 9 0 0
      else
        let addr := BitVec.ofNat 64 (be x 0 8 + 4096 * first)
        let n := min (4096 * count) (lrdLen b - 4096 * first)
        let u := ReadUse.response (lrdDstEp b)
        let s := ((s.issueRead e.fid addr n u).reissue e.fid u ecrcFails).endRead e.fid u
        match data with
        | none => s.hostDma e.fid
        | some d => s.sendResponses e.fid r (toBe 8 ts.toNat) (s.stampNs p.time) (lrdLen b) (slice d 0 n) first count

/-- READ_REQ (R314). -/
def execReadReq (seq : PipeId) (data : Option Bytes) (s : State) (ecrcFails : Nat := 0) : Outcome :=
  done (s.rxTake seq (· == 2) true (State.rxReadReq seq data ecrcFails))

/-- Writes bytes at an offset of a buffer made of fragments. -/
def State.scatter (fid : Nat) : List (BitVec 64 × Nat) → Nat → Bytes → State → State
  | [], _, _, s => s
  | (a, n) :: fs, off, data, s =>
    if data.isEmpty then s
    else if n ≤ off then s.scatter fid fs (off - n) data
    else
      let here := data.take (n - off)
      (s.dmaWrite fid (a + BitVec.ofNat 64 off) here).scatter fid fs 0 (data.drop (n - off))

/-- The message that an answer names, if it still runs and the answer comes from its target. -/
def State.msgOf (s : State) (b : Bytes) : Option (Nat × Msg) :=
  let k := msgKey (lrdDstEp b) (lrdMsg b)
  match s.msg k, s.ep (lrdDstEp b) with
  | some m, some e =>
    if m.state != .ended && m.state != .queued && m.node == lrdSrc b && m.dstEp == lrdSrcEp b && m.dstGen == lrdSrcGen b &&
        e.gen.toNat == lrdDstGen b then some (k, m) else none
  | _, _ => none

/-- A READ_RESP whose tag has verified (R312, R313, R316). DEDUCED (log 56). -/
def State.rxReadResp (seq : Nat) (p : Pkt) (b pay : Bytes) (s : State) : State :=
  match s.msgOf b with
  | none => s.bump 3 (halfOfPipe seq) 83
  | some (k, m) =>
    if !m.isRead then s.bump 3 (halfOfPipe seq) 83
    else
      let i := lrdIdx b
      let s := s.rttSample m.path p.time (BitVec.ofNat 64 (be (lrdExt b) 0 8)) (be (lrdExt b) 8 4)
      if m.got.contains i || !payOk m.len i (lrdPay b) then s
      else
        let s := s.scatter m.fid m.frags (4096 * i) pay
        let rto := match s.path m.path with
          | some p => p.rto
          | none => 50000
        let m := { m with got := m.got ++ [i], rto := rto }
        if m.got.length = m.count then (s.setMsg k m).endMsg k 0 0 else (s.setMsg k m).feed k

/-- READ_RESP (R312). -/
def execReadResp (seq : PipeId) (s : State) : Outcome := done (s.rxTake seq (· == 3) false (State.rxReadResp seq))

/-! ## ACK, NAK and RELEASE (R298, R300 to R303, R308, R323) -/

/-- The indices an ACK says have been received. -/
def ackedBy (x : Bytes) (i : Nat) : Bool :=
  let base := be x 12 2
  decide (i < base) || (decide (i < base + 256) && bit (be x 16 32) (i - base))

/-- Sends the RELEASE of a message (R302). -/
def State.sendRelease (k : Nat) (m : Msg) (e : Ep) (s : State) : State :=
  match (s.td m.half m.td).sending with
  | none => s
  | some t =>
    if 2 ^ 48 ≤ s.tdSent m.td then s
    else
      (s.usePair m.half (s.pairOf m t.epoch)).lrdSend m.seq m.cls m.route
        { type := 6, td := m.td, epoch := t.epoch, dst := m.node, srcEp := epOfMsg k, srcGen := e.gen.toNat, dstEp := m.dstEp,
          dstGen := m.dstGen, msg := idOfMsg k, msgTs := devWord (m.msgTs.getD 0) } t.key
        (toBe 8 (devWord m.lastTx).toNat ++ List.replicate 8 0) []

/-- An ACK whose tag has verified (R298 to R300, R302, R316). DEDUCED (log 56). -/
def State.rxAck (seq : Nat) (p : Pkt) (b _pay : Bytes) (s : State) : State :=
  let x := lrdExt b
  match s.msgOf b, s.ep (lrdDstEp b) with
  | some (k, m), some e =>
    if m.isRead then s.bump 3 (halfOfPipe seq) 82
    else
      let s := s.rttSample m.path p.time (BitVec.ofNat 64 (be x 0 8)) (be x 8 4)
      if bit (be x 14 2) 8 then (s.endMsg k 0 0).sendRelease k m e
      else
        let new := m.pkts.any (fun e => !e.2.acked && ackedBy x e.1)
        let rto := match s.path m.path with
          | some p => p.rto
          | none => 50000
        let m := { m with
          pkts := m.pkts.mapV (fun i q => if ackedBy x i then { q with acked := true, wait := false } else q)
          base := max m.base (be x 12 2), rto := if new then rto else m.rto }
        (s.setMsg k m).feed k
  | _, _ => s.bump 3 (halfOfPipe seq) 82

/-- ACK (R298). -/
def execAck (seq : PipeId) (s : State) : Outcome := done (s.rxTake seq (· == 4) false (State.rxAck seq))

/-- A NAK whose tag has verified (R298, R301, R323). DEDUCED (log 55). -/
def State.rxNak (seq : Nat) (_p : Pkt) (b _pay : Bytes) (s : State) : State :=
  let h := halfOfPipe seq
  let s := s.bump 3 h 81
  let code := be (lrdExt b) 8 1
  match s.msgOf b with
  | none => s.bump 3 h 82
  | some (k, m) =>
    if code = 0 ∨ 9 < code then s.bump 3 h 82
    else if code = 1 then
      if m.state == .sending || m.state == .awaiting then
        (s.setMsg k { m with state := .backoff, until_ := s.clock.dev + 1000 * be (lrdExt b) 10 2 }).unpace k
      else s
    else s.endMsg k (0x11 + code) code

/-- NAK (R323). -/
def execNak (seq : PipeId) (s : State) : Outcome := done (s.rxTake seq (· == 5) false (State.rxNak seq))

/-- A RELEASE whose tag has verified (R308). DEDUCED (log 56). -/
def State.rxRelease (seq : Nat) (p : Pkt) (b _pay : Bytes) (s : State) : State :=
  let r := replyOf seq p b
  let h := (s.homeOf (lrdDstEp b)).getD (halfOfPipe seq)
  match s.rec_ h r with
  | none => s
  | some x =>
    let last := max s.clock.dev (s.stampNs (BitVec.ofNat 64 (be (lrdExt b) 0 8)) + tStale)
    match x.state with
    | .finished => s.setRec h { x with state := .released last }
    | .failed _ => s.setRec h { x with state := .released last }
    | _ => s

/-- RELEASE (R308). -/
def execRelease (seq : PipeId) (s : State) : Outcome := done (s.rxTake seq (· == 6) false (State.rxRelease seq))

/-! ## Timers of records (R308, R309) -/

/-- The record of a message, by sending node, endpoint and MSG_ID. DEDUCED (log 58). -/
def State.recAt (s : State) (h node ep msg : Nat) : Option Rec :=
  (s.recs h).find? (fun x => x.reply.node == node && x.reply.ep == ep && x.reply.msg == msg)
/-- The record of the same message removed. -/
def State.dropRec (h : Nat) (x : Rec) (s : State) : State := s.setRecs h ((s.recs h).filter (fun y => !y.reply.sameMsg x.reply))

/-- ACK_TIMER (R309). -/
def execAckTimer (half : Half) (node : BitVec 32) (ep : BitVec 20) (msg : BitVec 48) (dt : Nat) (s : State) : Outcome :=
  let s := s.advance dt
  match s.recAt half node.toNat ep.toNat msg.toNat with
  | none => done s
  | some x =>
    match x.firstAt with
    | none => done s
    | some t => if x.state == .receiving && decide (t + 4000 ≤ s.clock.dev) then done (s.sendAck half x) else done s

/-- RECORD_EXPIRY (R308): T_keep after creation. -/
def execRecordExpiry (half : Half) (node : BitVec 32) (ep : BitVec 20) (msg : BitVec 48) (dt : Nat) (s : State) : Outcome :=
  let s := s.advance dt
  match s.recAt half node.toNat ep.toNat msg.toNat with
  | none => done s
  | some x =>
    if s.clock.dev < x.created + tKeep then done s
    else
      match x.state with
      | .released _ => done s
      | .receiving => done ((s.dropRec half x).bump 3 half 79)
      | _ => done (s.dropRec half x)

/-- RELEASED_RECORD_EXPIRY (R308). -/
def execReleasedRecordExpiry (half : Half) (node : BitVec 32) (ep : BitVec 20) (msg : BitVec 48) (dt : Nat) (s : State) : Outcome :=
  let s := s.advance dt
  match s.recAt half node.toNat ep.toNat msg.toNat with
  | none => done s
  | some x =>
    match x.state with
    | .released t => if t < s.clock.dev then done (s.dropRec half x) else done s
    | _ => done s

/-! ## Contexts and derivations (R287, R319 to R321) -/

/-- An endpoint is pinned (R319). -/
def State.epPinned (s : State) (n : Nat) (e : Ep) : Bool :=
  e.fetching || s.lrd.msgs.anyV (fun k _ => epOfMsg k == n) ||
  s.lrdComing (fun q _ => q == e.sq) != 0 || s.epDue e.cq n notifyTag != 0 ||
  (s.missQ (halfOfFid e.fid)).any (fun p => lrdDstEp (lrdBytes p) == n)

/-- The unpinned endpoint of a half that was used least recently. DEDUCED (log 57). -/
def State.lruEp (s : State) (h : Nat) : Option Nat :=
  ((s.lrd.eps.filter (fun e => e.2.onChip && halfOfFid e.2.fid == h && !s.epPinned e.1 e.2)).foldl
    (fun (b : Option (Nat × Ep)) e =>
      match b with
      | none => some e
      | some x => if e.2.used < x.2.used then some e else b) none).map (·.1)

/-- The bytes of a context as the device writes it back: its layout is private (R319). DEDUCED (log 57). -/
def State.contextBytes (s : State) : Bytes := (List.range 256).map (fun i => Config.freeBytes s.free i)

/-- An endpoint's context is written back and leaves the chip (R319). DEDUCED (log 57). -/
def State.evictEp (n : Nat) (s : State) : State :=
  match s.ep n with
  | none => s
  | some e =>
    let s := s.dmaWrite e.fid (s.slotOfEp e) s.contextBytes
    (({ s with free := s.free + 1 }).modEp n (fun e => { e with onChip := false })).bump 3 (halfOfFid e.fid) 75

/-- Contexts that a half holds on chip. -/
def State.epsOnChip (s : State) (h : Nat) : Nat := s.lrd.eps.countV (fun _ e => e.onChip && halfOfFid e.fid == h)

/-- A packet for the endpoint has arrived: it waits in a sequencer, for a key, for its tag check or for its commit. -/
def State.epArrival (s : State) (n : Nat) : Bool :=
  let here := fun (p : Pkt) => lrdDstEp (lrdBytes p) == n
  s.net.seqIn.any (fun e => e.2.any here) || s.lrd.keyWait.any (fun e => e.2.any here) || s.net.opened.any (fun e => e.2.any (fun x => here x.1)) ||
  s.net.inl.any (fun e => e.2.any (fun j => match j with
    | .dec x => here x.pkt
    | _ => false))

/-- The least recently used unpinned endpoint of a half is written back, unless an arrival cancels it: its context stays on chip, used by the
arrival (R319, R321). -/
def State.evictLru (h : Nat) (s : State) : State :=
  match s.lruEp h with
  | none => s
  | some n => if s.epArrival n then (s.bump 3 h 76).touchEp n else s.evictEp n

/-- Room for one more context among a half's 65,536, after `k` tries at most (R319, R321). -/
def State.roomEp (h : Nat) : Nat → State → State
  | 0, s => s
  | k + 1, s => if s.epsOnChip h < 65536 then s else (s.evictLru h).roomEp h k

/-- CONTEXT_EVICTION (R319, R321): the least recently used unpinned endpoint is written back, unless an arrival cancels it. -/
def execContextEviction (ep : BitVec 20) (s : State) : Outcome :=
  match s.ep ep.toNat with
  | none => done s
  | some e =>
    if s.lruEp (halfOfFid e.fid) != some ep.toNat then done s else done (s.evictLru (halfOfFid e.fid))

/-- Packets leave the miss queue in order: a stale one is dropped, the others go on in their sequencer at step 7 (R320). -/
def State.missOut (h : Nat) : List Pkt → State → State
  | [], s => s
  | p :: ps, s =>
    let s := s.missOut h ps
    if s.lrdStale (lrdBytes p) then s.bump 3 h 70 else s.seqFront p.pipe [{ p with past := true }]

/-- The miss queue of an endpoint's home half parted: the packets that wait for the endpoint, and the others. -/
def State.missOf (s : State) (n : Nat) (e : Ep) : List Pkt × List Pkt :=
  let mine := fun (p : Pkt) => lrdDstEp (lrdBytes p) == n
  ((s.missQ (halfOfFid e.fid)).filter mine, (s.missQ (halfOfFid e.fid)).filter (fun p => !mine p))

/-- The context read of an endpoint has failed: the packets that wait for it are discarded and counted in MISSQ_DROP (R320, R328). -/
def State.contextLost (n : Nat) (s : State) : State :=
  match s.ep n with
  | none => s
  | some e =>
    let h := halfOfFid e.fid
    let q := s.missOf n e
    let s := ((s.modEp n (fun e => { e with fetching := false })).setMissQ h q.2).bumpBy 3 h 73 q.1.length
    if q.1.isEmpty then s else s.postMissDrop h

/-- CONTEXT_FETCH_DONE (R320): the context read of an endpoint returns; one that fails aborts the owner and discards the waiting packets.
While every context the half can hold is pinned the new one waits (R319). DEDUCED (log 57). -/
def execContextFetchDone (ep : BitVec 20) (ok : Bool) (s : State) : Outcome :=
  let n := ep.toNat
  match s.ep n with
  | none => done s
  | some e =>
    if !e.fetching then done s
    else
      let h := halfOfFid e.fid
      if !ok then done (((s.endRead e.fid (.context n)).hostDma e.fid).contextLost n)
      else
        let s := s.roomEp h 65536
        if 65536 ≤ s.epsOnChip h then done s
        else
          let q := s.missOf n e
          let s := (s.endRead e.fid (.context n)).setMissQ h q.2
          done (((s.modEp n (fun e => { e with onChip := true, fetching := false })).touchEp n).missOut h q.1)

/-- KEY_DERIVATION_DONE (R287): the first derivation of a sequencer ends; packets and messages that waited for it go on. -/
def execKeyDerivationDone (seq : PipeId) (s : State) : Outcome :=
  match s.lrd.derive_.getD seq [] with
  | [] => done s
  | k :: ks =>
    let h := halfOfPipe seq
    let s := s.modLrd (fun l => { l with derive_ := Tab.set seq ks l.derive_ })
    let s := if ((s.td h k.td).byEpoch k.epoch).isSome then s.usePair h k else s
    let w := s.lrd.keyWait.getD seq []
    let mine := fun (p : Pkt) => let b := lrdBytes p; lrdTd b == k.td && lrdEpoch b == k.epoch && lrdSrc b == k.src
    let s := (s.modLrd (fun l => { l with keyWait := Tab.set seq (w.filter (fun p => !mine p)) l.keyWait })).seqFront seq (w.filter mine)
    done (s.each State.launch (s.lrd.msgs.keysWhere (fun _ m => m.state == .queued && m.seq == seq.val && m.td == k.td && m.node == k.dst)))

/-! ## Host reads that fail (R42, R53, R56, R320) -/

/-- A host DMA error met by a read: the function is aborted (R53), and of an endpoint's context read the packets that wait for it are discarded
and counted (R320). -/
def State.readFailed (r : HostRead) (s : State) : State :=
  let s := s.hostDma r.fid
  match r.use with
  | .context n => s.contextLost n
  | _ => s

/-- HOST_READ_COMPLETION (R42, R53, R56): an orphan is discarded and its tag comes back; a first ECRC failure issues the read once more, but
begins no DMA for a function that is not ACTIVE (R55); a second one, poison, UR or CA is a host DMA error. One lost to a parity error at a clocked
crossing leaves the read outstanding, to time out (R528). DESIGN CHOICE (log 19). -/
def execHostReadCompletion (link : LinkId) (tag : BitVec 14) (status : CplStatus) (s : State) : Outcome :=
  match Tab.find tag.toNat (s.link link).reads with
  | none => done s
  | some r =>
    let s := match status with
      | .ecrcFail => s.hifErr link 1
      | .poisoned => s.hifErr link 2
      | _ => s
    if status == .lost then done (s.integrityDrop (link / 8) 2)
    else if r.orphan then done (s.dropRead link tag.toNat)
    else
      match status with
      | .ok => done (s.dropRead link tag.toNat)
      | .ecrcFail =>
        if r.retried then done ((s.dropRead link tag.toNat).readFailed r)
        else if !s.dmaOn r.fid then done (s.dropRead link tag.toNat)
        else done (s.sendRead link tag.toNat { r with retried := true })
      | _ => done ((s.dropRead link tag.toNat).readFailed r)

/-- COMPLETION_TIMEOUT (R38, R53, R56): `dt` ns later a read has waited for the link's completion timeout. -/
def execCompletionTimeout (link : LinkId) (tag : BitVec 14) (s : State) (dt : Nat := 0) : Outcome :=
  let s := s.advance dt
  match Tab.find tag.toNat (s.link link).reads with
  | none => done s
  | some r =>
    if s.clock.now < r.issued + (s.link link).cplTimeout then done s
    else
      let s := (s.hifErr link 4).dropRead link tag.toNat
      if r.orphan then done s else done (s.readFailed r)

end Sys2Proof.Machine
end

