-- ==== Sys2Proof/Machine/Esp.lean ====
section
/-! DEFINITION. The key store's access and cache (R339 to R341, R349 to R352), and inline ESP: the packets it builds and takes apart
(R353 to R359). -/

namespace Sys2Proof.Machine

open Sys2Proof

/-! ## Slots and handles (R111, R339, R342) -/

def State.slot (s : State) (n : Nat) : Slot := s.cry.slots.getD n {}
def State.modSlot (n : Nat) (f : Slot → Slot) (s : State) : State := s.modCry (fun c => { c with slots := c.slots.upd n {} f })
def State.modKey (n : Nat) (f : KeyInfo → KeyInfo) (s : State) : State := s.modSlot n (fun x => { x with info := x.info.map f })
def State.keyOf (s : State) (n : Nat) : Option KeyInfo := (s.slot n).info
/-- KEY_HANDLE: the slot in [17:0] and its generation in [31:24]. -/
def keyHandle (n : Nat) (x : Slot) : Nat := x.gen.toNat * 16777216 + n
def handleSlot (h : Nat) : Nat := h % 262144
def handleGen (h : Nat) : Nat := h / 16777216 % 256
/-- The half whose HBM holds a slot. -/
def halfOfSlot (n : Nat) : Nat := n / 131072

/-! ## The unwrapped-key cache (R341) -/

def State.keyCache (s : State) (h : Nat) : List Nat := if h = 0 then s.cry.cacheW else s.cry.cacheE
def State.setKeyCache (h : Nat) (ks : List Nat) (s : State) : State :=
  s.modCry (fun c => if h = 0 then { c with cacheW := ks } else { c with cacheE := ks })

/-- The slot whose key an ESP packet needs. -/
def State.espSlot (s : State) (j : InlineJob) : Option Nat :=
  (j.pkt.sa.bind (fun a => Tab.find a s.cry.sas)).map (·.slot)

/-- A bulk job with the slot's key has been taken and its input has not come (R351). -/
def State.slotTaken (s : State) (n : Nat) : Bool :=
  s.work.any (fun e => kindOfKey e.1 == 0 && e.2.fetched.any (fun d => d.taken && !d.begun && handleSlot (le d.bytes 16 4) == n))

/-- Some job that names the slot waits or runs: its key is pinned (R341). -/
def State.keyPinned (s : State) (n : Nat) : Bool :=
  s.cry.bulk.any (fun e => e.2.any (fun j => j.slot == n)) || s.cry.cores.any (fun e => e.2.slot == n) || s.slotTaken n ||
  s.net.inl.any (fun e => e.2.any (fun j => match j with
    | .esp x => s.espSlot x == some n
    | _ => false))

/-- The last key that is not pinned removed from a cache over its size. -/
def dropLast (pinned : Nat → Bool) : List Nat → List Nat
  | [] => []
  | k :: ks => if ks.any (fun x => !pinned x) then k :: dropLast pinned ks else if pinned k then k :: ks else ks

/-- A key is used, or enters the cache of 8,192, which evicts the least recently used one that is not pinned (R341). -/
def State.useKey (n : Nat) (s : State) : State :=
  let h := halfOfSlot n
  let ks := n :: (s.keyCache h).filter (· != n)
  s.setKeyCache h (if ks.length ≤ 8192 then ks else dropLast s.keyPinned ks)

/-- A miss: the slot is read and unwrapped (R341). -/
def State.missKey (n : Nat) (s : State) : State :=
  (s.bump 3 (halfOfSlot n) 131).modCry (fun c =>
    { c with unwrapping := if c.unwrapping.contains n then c.unwrapping else c.unwrapping ++ [n] })

/-! ## Nonces and usage (R349 to R352) -/

/-- SALT and CTR, each in network byte order (R349). -/
def keyNonce (salt : BitVec 32) (ctr : Nat) : Bytes := toBe 4 salt.toNat ++ toBe 8 ctr

/-- A counter value remains (R350). -/
def KeyInfo.fresh (k : KeyInfo) : Bool := decide (k.used < k.limit)

/-- Draws the next counter value of a key that has one; EV_KEY_USAGE_HIGH and EV_KEY_EXHAUSTED as it passes their marks (R349 to R352,
R374). -/
def State.drawCtr (n : Nat) (s : State) : State :=
  match s.keyOf n with
  | none => s
  | some k =>
    let u := k.used + 1
    let s := s.modKey n (fun k => { k with used := u })
    let hd := keyHandle n (s.slot n)
    let s := if u = k.limit - k.limit / 8 then s.postBit k.fid .fn 0x0501 hd (toLe 8 u) else s
    if u = k.limit then s.postBit k.fid .fn 0x0502 hd (toLe 8 u) else s

/-! ## ESP packets (R355 to R358) -/

/-- Past an IPv6 header's extension headers: where the last one's next-header byte lies, and the offset after it. -/
def extTail (f : Bytes) : Nat → Nat → Nat → Nat × Nat
  | 0, nhAt, o => (nhAt, o)
  | n + 1, nhAt, o =>
    let nh := be f nhAt 1
    if nh = 0 ∨ nh = 43 ∨ nh = 60 then extTail f n o (o + (be f (o + 1) 1 + 1) * 8)
    else if nh = 44 then extTail f n o (o + 8)
    else (nhAt, o)

/-- Where the byte lies that names what follows the IP header at `l3` and its options or extension headers, and the offset after them. -/
def ipTail (v6 : Bool) (l3 : Nat) (f : Bytes) : Nat × Nat :=
  if v6 then extTail f 8 (l3 + 6) (l3 + 40) else (l3 + 9, l3 + be f l3 1 % 16 * 4)

/-- Payload, pad 1, 2, 3 to a multiple of 4 with the trailer, pad length and next header (R356). -/
def espTrailer (payload : Bytes) (nh : Nat) : Bytes :=
  let n := (4 - (payload.length + 2) % 4) % 4
  payload ++ (List.range n).map (fun i => BitVec.ofNat 8 (i + 1)) ++ toLe 1 n ++ toLe 1 nh

/-- SPI and sequence number as associated data: with ESN its 64 bits (R355, R357). -/
def espAad (spi seq : Nat) (esn : Bool) : Bytes := toBe 4 spi ++ (if esn then toBe 8 seq else toBe 4 (seq % 4294967296))

/-- ESP header, IV, payload and ICV under a key: GMAC authenticates the payload with IV in clear (RFC 4543), the others encrypt it. -/
def espSeal (k : KeyInfo) (a : Sa) (ctr : Nat) (text : Bytes) : Bytes :=
  let aad := espAad a.spi a.seq a.esn
  let iv := toBe 8 ctr
  let hdr := toBe 4 a.spi ++ toBe 4 (a.seq % 4294967296) ++ iv
  let n := keyNonce k.salt ctr
  if aeadIsGmac k.alg then hdr ++ text ++ (aeadSeal k.alg k.key n (aad ++ iv ++ text) []).2
  else let r := aeadSeal k.alg k.key n aad text; hdr ++ r.1 ++ r.2

/-- Opens an ESP packet's bytes from SPI to ICV: the payload, and whether the tag verifies. -/
def espOpen (k : KeyInfo) (a : Sa) (seq : Nat) (esp : Bytes) : Bytes × Bool :=
  let aad := espAad a.spi seq a.esn
  let iv := slice esp 8 8
  let body := (esp.drop 16).take (esp.length - 32)
  let icv := esp.drop (esp.length - 16)
  let n := toBe 4 k.salt.toNat ++ iv
  if aeadIsGmac k.alg then (body, (aeadOpen k.alg k.key n (aad ++ iv ++ body) [] icv).2)
  else aeadOpen k.alg k.key n aad body icv

/-- Lengths of an IP header at `l3` set to the end of the frame; an IPv4 header's checksum is filled in. -/
def ipFinish (v6 : Bool) (l3 : Nat) (f : Bytes) : Bytes :=
  if v6 then putBytes f (l3 + 4) (toBe 2 (f.length - l3 - 40))
  else fillIpv4 l3 (putBytes f (l3 + 2) (toBe 2 (f.length - l3)))

/-- What an outbound association puts before the ESP header and what it protects (R356): the bytes before, where their IP header lies and
its version, the payload and its next header. -/
structure EspOut where
  head : Bytes
  l3   : Nat
  v6   : Bool
  text : Bytes
  nh   : Nat
  deriving DecidableEq, Repr

/-- The parts of an outbound packet of a mode; `h` is the frame's header vector. DEDUCED (log 64). -/
def espParts (a : Sa) (h : Hv) (f : Bytes) : EspOut :=
  let v6 := hvHas h 4
  let l3 := le h 32 2
  if a.tunnel then
    let o6 := a.hdr.length == 40
    { head := f.take (l3 - 2) ++ toBe 2 (if o6 then 0x86DD else 0x0800) ++ a.hdr, l3 := l3, v6 := o6, text := f.drop l3,
      nh := if v6 then 41 else 4 }
  else
    let t := ipTail v6 l3 f
    { head := putBytes (f.take t.2) t.1 [50], l3 := l3, v6 := v6, text := (f.drop t.2).take (ipEndOf v6 l3 f - t.2), nh := be f t.1 1 }

/-- The length of an outbound result, without FCS. -/
def EspOut.len (e : EspOut) : Nat := e.head.length + 16 + (espTrailer e.text e.nh).length + 16

/-- The outbound frame with its ESP part, lengths, identification and checksum. -/
def EspOut.frame (e : EspOut) (ident : Nat) (esp : Bytes) : Bytes :=
  let f := e.head ++ esp
  ipFinish e.v6 e.l3 (if e.v6 then f else putBytes f (e.l3 + 4) (toBe 2 ident))

/-- The last sequence number of an association (R357). -/
def Sa.lastSeq (a : Sa) : Nat := if a.esn then 18446744073709551615 else 4294967295

/-! ## Replay (R358) -/

/-- The 64-bit sequence number of an inbound packet, its high part inferred as RFC 4303 Appendix A defines; none where it would lie below
zero. DEDUCED (log 64). -/
def Sa.inferSeq (a : Sa) (low : Nat) : Option Nat :=
  if !a.esn then some low
  else
    let tl := a.top % 4294967296
    let th := a.top / 4294967296
    let bottom := (tl + 4294967296 - (a.win - 1)) % 4294967296
    if a.win - 1 ≤ tl then some ((if bottom ≤ low then th else th + 1) * 4294967296 + low)
    else if bottom ≤ low then (if th = 0 then none else some ((th - 1) * 4294967296 + low))
    else some (th * 4294967296 + low)

/-- A sequence number is not a replay (R358): not 0, which no sender uses (R357), and above the window, or within it and not seen. DEDUCED
(log 61). -/
def Sa.replayOk (a : Sa) (seq : Nat) : Bool :=
  a.win == 0 || (seq != 0 && (decide (a.top < seq) || (decide (a.top < seq + a.win) && !a.seen.contains seq)))

/-- The window after a packet has verified (R358). -/
def Sa.accept (a : Sa) (seq : Nat) : Sa :=
  if a.win = 0 then a
  else
    let t := max a.top seq
    { a with top := t, seen := (seq :: a.seen).filter (fun x => decide (t < x + a.win)) }

/-- The trailer of a decrypted payload: the payload proper and its next header; none where the padding is wrong (R358). -/
def espUntrail (p : Bytes) : Option (Bytes × Nat) :=
  let n := p.length
  let pad := le p (n - 2) 1
  if n < 2 ∨ n < pad + 2 then none
  else if (p.drop (n - 2 - pad)).take pad == (List.range pad).map (fun i => BitVec.ofNat 8 (i + 1)) then
    some (p.take (n - 2 - pad), le p (n - 1) 1)
  else none

/-- The inbound frame without its ESP (R358). -/
def espInFrame (a : Sa) (h : Hv) (f payload : Bytes) (nh : Nat) : Bytes :=
  let v6 := hvHas h 4
  let l3 := le h 32 2
  if a.tunnel then f.take (l3 - 2) ++ toBe 2 (if nh = 41 then 0x86DD else 0x0800) ++ payload
  else
    let t := ipTail v6 l3 f
    ipFinish v6 l3 (putBytes (f.take t.2) t.1 (toBe 1 nh) ++ payload)

/-! ## Inline jobs (R354, R356 to R359) -/

def State.sa (s : State) (n : Nat) : Option Sa := Tab.find n s.cry.sas
def State.setSa (n : Nat) (a : Sa) (s : State) : State := s.modCry (fun c => { c with sas := Tab.set n a c.sas })

/-- An inline packet dropped in a counter of the home half, and in its owner's ESP_IN_DROP or ESP_OUT_DROP (R359, R375, R376). -/
def State.espDrop (h : Nat) (a : Option Sa) (counter : Nat) (p : Pkt) (s : State) : State :=
  let s := s.bump 3 h counter
  (match a with
    | none => s
    | some a => s.bump 0 a.fid (if a.out then 199 else 198)).dropPkt p

/-- The result of an association: parsed again and admitted to the destination already resolved, or sent on to the second-pass queue with
any DECAP of an inbound one applied (R239, R354). -/
def State.espResult (h : Nat) (a : Sa) (j : InlineJob) (f : Bytes) (s : State) : State :=
  let r := reparse false false j.pkt.hv f
  if r.2.malformed then s.espDrop h (some a) 145 j.pkt
  else
    let s := (s.bump 3 h (if a.out then 132 else 133)).bump 0 a.fid (if a.out then 196 else 197)
    let p := { j.pkt with
      frame := f, hv := r.1, half := h, touched := true, sa := none, decap := j.pkt.decap && !a.out
      ask := { j.pkt.ask with csumL3 := false, csumL4 := false } }
    if j.round then
      s.secondPass j.pipe { p with frame := if p.decap then decapFrame p.hv f else f, decap := false }
    else s.admitPkt j.pipe p j.dest

/-- An outbound association applied (R356, R357). DEDUCED (log 64). -/
def State.espOutbound (h n : Nat) (a : Sa) (k : KeyInfo) (j : InlineJob) (s : State) : State :=
  let p := j.pkt
  let f0 := fillAsked p.ask p.hv p.frame
  let f := if p.decap then decapFrame p.hv f0 else f0
  let r := reparse false false p.hv f
  if r.2.malformed || !(hvHas r.1 3 || hvHas r.1 4) || bit (le r.1 2 1) 0 then s.espDrop h (some a) 144 p
  else
    let e := espParts a r.1 f
    if 9596 < e.len then s.espDrop h (some a) 139 p
    else if a.lastSeq < a.seq then s.espDrop h (some a) 140 p
    else if !k.fresh then s.espDrop h (some a) 141 p
    else
      let text := espTrailer e.text e.nh
      let esp := espSeal k a k.used text
      let s := ((s.bump 3 h 128).bumpBy 3 h 130 (if aeadIsGmac k.alg then 0 else text.length)).drawCtr a.slot
      let s := s.setSa n { a with seq := a.seq + 1, ident := (a.ident + 1) % 65536 }
      let s := if a.seq = (a.lastSeq + 1) / 8 * 7 then s.postBit a.fid .fn 0x0503 n (toLe 8 (a.seq + 1)) else s
      let s := if a.seq = a.lastSeq then s.postBit a.fid .fn 0x0504 n [] else s
      s.espResult h a j (e.frame a.ident esp)

/-- An inbound association applied (R358). DEDUCED (log 64). -/
def State.espInbound (h n : Nat) (a : Sa) (k : KeyInfo) (j : InlineJob) (s : State) : State :=
  let p := j.pkt
  let f := fillAsked p.ask p.hv p.frame
  let o := le p.hv 34 2
  let e := min (ipEndOf (hvHas p.hv 4) (le p.hv 32 2) f) f.length
  if !hvHas p.hv 7 then s.espDrop h (some a) 144 p
  else if le p.hv 104 4 ≠ a.spi then s.espDrop h (some a) 136 p
  else
    match a.inferSeq (le p.hv 108 4) with
    | none => s.espDrop h (some a) 135 p
    | some seq =>
      if !a.replayOk seq then s.espDrop h (some a) 135 p
      else
        let esp := (f.drop o).take (e - o)
        let x := espOpen k a seq esp
        let s := (s.bump 3 h 128).bumpBy 3 h 130 (if aeadIsGmac k.alg then 0 else esp.length - 32)
        if esp.length < 32 ∨ x.2 = false then (s.integrityDrop h 9).espDrop h (some a) 134 p
        else
          let s := s.setSa n (a.accept seq)
          match espUntrail x.1 with
          | none => s.espDrop h (some a) 137 p
          | some (pay, nh) =>
            if nh = 59 then s.espDrop h (some a) 138 p
            else if a.tunnel && nh != 4 && nh != 41 then s.espDrop h (some a) 137 p
            else s.espResult h a j (espInFrame a p.hv f pay nh)

/-- Runs an inline packet whose key, if it needs one, is at hand (R354, R356, R358, R359). -/
def State.runInline (h : Nat) (j : InlineJob) (s : State) : State :=
  let n := j.pkt.sa.getD 0
  match s.sa n with
  | none => s.espDrop h none 142 j.pkt
  | some a =>
    match s.keyOf a.slot with
    | none => s.espDrop h (some a) 143 j.pkt
    | some k =>
      if k.lost then s.espDrop h (some a) 143 j.pkt
      else if a.out then s.espOutbound h n a k j else s.espInbound h n a k j

end Sys2Proof.Machine
end

