-- ==== Sys2Proof/Machine/Cipher.lean ====
section
/-! DEFINITION. The cipher engine: dispatch, bulk jobs, known-answer tests, alarms (R331 to R337, R360 to R373). -/

namespace Sys2Proof.Machine

open Sys2Proof

/-! ## Cores (R331, R333, R336) -/

/-- Those that no job occupies. -/
def State.freeCores (s : State) (h : Nat) : List Nat := (s.cipherCores h).filter (fun c => (Tab.find c s.cry.cores).isNone)

def State.inlQ (s : State) (h : Nat) : List InlJob := s.net.inl.getD h []
def State.setInl (h : Nat) (js : List InlJob) (s : State) : State :=
  { s with net := { s.net with inl := Tab.set h js s.net.inl } }
def State.bulkQ (s : State) (h : Nat) : List BulkJob := s.cry.bulk.getD h []
def State.setBulk (h : Nat) (js : List BulkJob) (s : State) : State := s.modCry (fun c => { c with bulk := Tab.set h js c.bulk })

/-! ## Bulk jobs (R360 to R366) -/

def BulkJob.enc (j : BulkJob) : Bool := dOpcode j.bytes == 0x20
def BulkJob.aadLen (j : BulkJob) : Nat := le j.bytes 20 3
/-- T: bytes of text. -/
def BulkJob.textLen (j : BulkJob) : Nat := dLength j.bytes - j.aadLen
def BulkJob.dst (j : BulkJob) : BitVec 64 := BitVec.ofNat 64 (le j.bytes 24 8)
def BulkJob.tagAddr (j : BulkJob) : BitVec 64 := BitVec.ofNat 64 (le j.bytes 32 8)
def BulkJob.handle (j : BulkJob) : Nat := le j.bytes 16 4
/-- A streamed DECRYPT (R364). -/
def BulkJob.streamed (j : BulkJob) : Bool := !j.enc && (decide (65536 < j.textLen) || bit (le j.bytes 23 1) 0)
/-- The half whose scheduler takes it (R332). -/
def BulkJob.half (j : BulkJob) : Nat := engineOfSq j.sq / 16

/-- The completion of a bulk job (R366). -/
def bulkCpl (sq cls status handle ctr text : Nat) (bytes : Bytes) : Bytes :=
  cplBytes (dUser bytes) (if status = 0 then text else 0) status 0 0 (dOpcode bytes) (sq + cls * 262144) handle ctr

/-- The job of a fetched descriptor, as its scheduler takes it (R351, R360). -/
def BulkJob.of (fid n : Nat) (d : FDesc) : BulkJob :=
  { fid := fid, sq := n, index := d.index, bytes := d.bytes, input := [], tag := [], slot := handleSlot (le d.bytes 16 4), ctr := d.ctr }

/-- A bulk job ends: a streamed range is zeroed on any status but OK, unless the job failed its key check, which writes nothing; the
counters advance and the completion is earned (R362, R365, R366, R375, R376). DEDUCED (log 63). -/
def State.endBulk (j : BulkJob) (status : Nat) (fill : Bool) (s : State) : State :=
  let s := if status ≠ 0 ∧ fill = true ∧ j.streamed = true ∧ 0 < j.textLen then s.dmaWrite j.fid j.dst (List.replicate j.textLen 0) else s
  let s := (s.bump 3 j.half 129).bumpBy 0 j.fid 195 j.textLen
  let s := if status = 0 then s.bump 0 j.fid 192 else s.bump 0 j.fid 193
  let s := if status = 0x40 then s.bump 0 j.fid 194 else s
  let cls := match s.ring (sqKey j.sq) with
    | some r => r.cls
    | none => 0
  s.earn j.sq j.index (bulkCpl j.sq cls status j.handle (j.ctr.getD 0) j.textLen j.bytes)

/-- The checks of R362, and of R368 for a key the function has destroyed: the status of a job that fails. DEDUCED (log 63). -/
def State.keyCheck (s : State) (fid handle text : Nat) (enc : Bool) : Option Nat :=
  let x := s.slot (handleSlot handle)
  match x.info with
  | none => if x.last = some fid ∧ handleGen handle ≠ x.gen.toNat then some 0x42 else some 0x43
  | some k =>
    if k.fid ≠ fid then some 0x43
    else if handleGen handle ≠ x.gen.toNat then some 0x42
    else if k.lost then some 0x45
    else if aeadIsGmac k.alg ∧ text ≠ 0 then some 0x44
    else if enc ∧ k.fresh = false then some 0x41
    else none

/-- The input of the next job of a CIPHER SQ has come, and the job waits for a core (R360, R362). -/
def State.takeBulk (n op : Nat) (input tag : Bytes) (s : State) : State :=
  match s.ring (sqKey n), s.nextDesc n with
  | some r, some d =>
    if dOpcode d.bytes ≠ op ∨ d.taken = false then s
    else
      let s := (s.endRead r.fid (.data (sqKey n) d.index)).begin_ n d.index
      let j := { BulkJob.of r.fid n d with input := slice input 0 (dLength d.bytes), tag := slice tag 0 16 }
      s.setBulk j.half (s.bulkQ j.half ++ [j])
  | _, _ => s

/-- ENCRYPT (R360). -/
def execEncrypt (ring : RingNo) (input : Bytes) (s : State) : Outcome := done (s.takeBulk ring.toNat 0x20 input [])

/-- DECRYPT (R360): `input` and `tag` are what host memory holds at ADDR and TAG_ADDR. -/
def execDecrypt (ring : RingNo) (input tag : Bytes) (s : State) : Outcome := done (s.takeBulk ring.toNat 0x21 input tag)

/-- The tag of a job is known: its output is written in the order of R363 and it ends (R364, R365, R375). -/
def State.bulkDone (j : BulkJob) (s : State) : State :=
  match (s.keyOf j.slot).filter (fun k => !k.lost) with
  | none => s.endBulk j 0x45 true
  | some k =>
    let aad := j.input.take j.aadLen
    let text := j.input.drop j.aadLen
    let n := keyNonce k.salt (j.ctr.getD 0)
    let s := s.bumpBy 3 j.half 130 j.textLen
    let out := fun (b : Bytes) (s : State) => if b.isEmpty then s else s.dmaWrite j.fid j.dst b
    if j.enc then
      let r := aeadSeal k.alg k.key n aad text
      ((out r.1 s).dmaWrite j.fid j.tagAddr r.2).endBulk j 0 true
    else
      let r := aeadOpen k.alg k.key n aad text j.tag
      if r.2 then (out r.1 s).endBulk j 0 true
      else (if j.streamed then out r.1 s else s).endBulk j 0x40 true

/-- CIPHER_JOB_DONE (R335, R363 to R366). -/
def execCipherJobDone (core : CipherCoreId) (s : State) : Outcome :=
  match Tab.find core.val s.cry.cores with
  | none => done s
  | some j => done ((s.modCry (fun c => { c with cores := Tab.del core.val c.cores })).bulkDone j)

/-! ## Dispatch (R333, R341, R364) -/

/-- Bytes of held plaintext staged on a half (R364). -/
def State.staged (s : State) (h : Nat) : Nat :=
  s.cry.cores.foldl (fun a e => if e.1 / 20 = h ∧ e.2.enc = false ∧ e.2.streamed = false then a + e.2.textLen else a) 0

/-- A bulk job may start: its key is not being read, and a held one finds room (R364). -/
def State.bulkReady (s : State) (h : Nat) (j : BulkJob) : Bool :=
  !s.cry.unwrapping.contains j.slot && (j.enc || j.streamed || decide (s.staged h + j.textLen ≤ 8388608))

/-- The slot an ESP packet needs unwrapped: none for one that is dropped at once. -/
def State.inlineSlot (s : State) (j : InlineJob) : Option Nat :=
  (s.espSlot j).filter (fun n => (s.keyOf n).any (fun k => !k.lost))

/-- Inline work may start: an ESP packet's key is not being read. -/
def State.inlineReady (s : State) (j : InlJob) : Bool :=
  match j with
  | .esp x => match s.inlineSlot x with
    | none => true
    | some n => !s.cry.unwrapping.contains n
  | _ => true

/-- Removes the first element that satisfies `p`. -/
def takeFirst {α : Type} (p : α → Bool) : List α → Option (α × List α)
  | [] => none
  | x :: xs => if p x then some (x, xs) else (takeFirst p xs).map (fun r => (r.1, x :: r.2))

/-- Dispatches the first inline job that may start, in order of arrival: an LRD packet is encrypted or checked, an ESP packet has its association
applied, after its key has been read where it is not cached (R333, R341). DEDUCED (log 63). -/
def State.dispatchInline (h : Nat) (s : State) : State :=
  match takeFirst s.inlineReady (s.inlQ h) with
  | none => s
  | some (.enc j, js) => ((s.setInl h js).sealOut j).pumpSeq j.seq 64
  | some (.dec j, js) => ((s.setInl h js).openOut j).pumpSeq j.seq 64
  | some (.esp j, js) =>
    match s.inlineSlot j with
    | none => (s.setInl h js).runInline h j
    | some n => if (s.keyCache h).contains n then ((s.setInl h js).useKey n).runInline h j else s.missKey n

/-- Dispatches the first bulk job that may start to a core; one whose key has been lost ends (R333, R341, R369). DEDUCED (log 63). -/
def State.dispatchBulk (h core : Nat) (s : State) : State :=
  match takeFirst (s.bulkReady h) (s.bulkQ h) with
  | none => s
  | some (j, js) =>
    if (s.keyOf j.slot).all (·.lost) then (s.setBulk h js).endBulk j 0x45 true
    else if (s.keyCache h).contains j.slot then
      ((s.setBulk h js).useKey j.slot).modCry (fun c => { c with cores := Tab.set core j c.cores })
    else s.missKey j.slot

/-- CIPHER_DISPATCH (R31, R333): inline work before bulk jobs, in order of arrival; while a bulk job waits the half's first core in service
is kept for bulk jobs alone. DEDUCED (log 63). -/
def State.cipherDispatch (h : Nat) (s : State) : State :=
  let free := s.freeCores h
  let kept := (s.cipherCores h).head?
  let bulk := !(s.bulkQ h).isEmpty
  let forInline := if bulk then free.filter (fun c => kept != some c) else free
  (if (s.inlQ h).any s.inlineReady && !forInline.isEmpty then s.dispatchInline h
    else
      match free.find? (fun c => (s.inlQ h).isEmpty || kept == some c) with
      | some c => s.dispatchBulk h c
      | none => s).pumpCry

/-- CIPHER_DISPATCH (R333). -/
def execCipherDispatch (half : Half) (s : State) : Outcome := done (s.cipherDispatch half)

/-- Bulk jobs waiting for a slot's key, removed from a half's queue and ended with a status. DEDUCED (log 63). -/
def State.failWaiting (h n status : Nat) (s : State) : State :=
  let js := s.bulkQ h
  (s.setBulk h (js.filter (fun j => j.slot != n))).each (fun j => State.endBulk j status true) (js.filter (fun j => j.slot == n))

/-- KEY_UNWRAP_DONE (R340, R341): a slot has been read and unwrapped into the cache; where its integrity check fails the slot is LOST, and
the jobs that wait for it end. -/
def execKeyUnwrapDone (slot : BitVec 18) (ok : Bool) (s : State) : Outcome :=
  let n := slot.toNat
  let h := halfOfSlot n
  if !s.cry.unwrapping.contains n then done s
  else
    let s := s.modCry (fun c => { c with unwrapping := c.unwrapping.filter (· != n) })
    if ok then done (s.useKey n)
    else done (((s.modKey n (fun k => { k with lost := true })).bump 3 h 9230).failWaiting h n 0x45)

/-! ## Known-answer tests (R336) -/

/-- The job on a core waits again, first in its half's queue, with its nonce (R336, R351). -/
def State.restartJob (core : Nat) (s : State) : State :=
  match Tab.find core s.cry.cores with
  | none => s
  | some j => (s.modCry (fun c => { c with cores := Tab.del core c.cores })).setBulk (core / 20) (j :: s.bulkQ (core / 20))

/-- A cipher core is retired: a spare takes its place (R336, R374, R519, R545). -/
def State.retireCipher (core : Nat) (s : State) : State :=
  let s := (s.retireRes (resId 6 core)).modCry (fun c => { c with withdrawn := c.withdrawn.filter (· != core) })
  let n := (s.cipherCores (core / 20)).length
  (s.postInfra 0x0507 core (toLe 1 n)).postRetired (resId 6 core)

/-- A core fails its test: KAT_FAIL advances, it is withdrawn and charged, and its job starts again elsewhere. -/
def State.katFail (core : Nat) (s : State) : State :=
  let s := (s.bump 3 (core / 20) 148).restartJob core
  let s := s.modCry (fun c => { c with withdrawn := if c.withdrawn.contains core then c.withdrawn else c.withdrawn ++ [core] })
  let r := s.charge (resId 6 core) 1
  if r.2 then r.1.retireCipher core else r.1

/-- KNOWN_ANSWER_TEST (R336) of a core in service. -/
def execKnownAnswerTest (core : CipherCoreId) (pass : Bool) (s : State) : Outcome :=
  if !(s.cipherCores (core.val / 20)).contains core.val || pass then done s else done (s.katFail core)

/-- KAT_RETEST (R336) of a withdrawn core. -/
def execKatRetest (core : CipherCoreId) (pass : Bool) (s : State) : Outcome :=
  if !s.cry.withdrawn.contains core.val then done s
  else if pass then done (s.modCry (fun c => { c with withdrawn := c.withdrawn.filter (· != core.val) }))
  else done (s.katFail core)

/-! ## Jobs that end at once (R367, R372) -/

/-- The jobs of a half that its scheduler has taken and whose input has not come end with a status; their reads are forgotten (R365, R367,
R372). -/
def State.flushTaken (status h : Nat) (s : State) : State :=
  s.each (fun (e : Nat × RingWork) s =>
    match s.ring e.1 with
    | none => s
    | some r => s.each (fun d s =>
        ((s.endRead r.fid (.data e.1 d.index)).begin_ (numOfKey e.1) d.index).endBulk (BulkJob.of r.fid (numOfKey e.1) d) status true)
      (e.2.fetched.filter (fun d => d.taken && !d.begun)))
    (s.work.filter (fun e => kindOfKey e.1 == 0 && halfOfSq (numOfKey e.1) == h))

/-- Inline work that a scheduler held is dropped in a counter (R367, R372). -/
def State.dropInl (counter h : Nat) (j : InlJob) (s : State) : State :=
  match j with
  | .esp j => s.espDrop h (s.sa (j.pkt.sa.getD 0)) counter j.pkt
  | _ => s.bump 3 h counter

/-- Every bulk job of a half, fetched, waiting or running, ends with a status, and every inline packet in its scheduler is dropped in a counter;
what waited outside for its credit goes in. DEDUCED (log 63). -/
def State.flushCipher (status counter h : Nat) (s : State) : State :=
  let js := (s.cry.cores.filter (fun e => e.1 / 20 == h)).map (·.2) ++ s.bulkQ h
  let ps := s.inlQ h
  let s := (s.setBulk h []).setInl h []
  let s := s.modCry (fun c => { c with cores := c.cores.filter (fun e => e.1 / 20 != h) })
  let s := (s.each (fun j => State.endBulk j status true) js).flushTaken status h
  s.each (State.dropInl counter h) ps

/-- What waits outside the schedulers of a half for credit goes in (R31). -/
def State.refill (h : Nat) (s : State) : State := (s.each (fun i => State.pumpSeq (8 * h + i) 64) (List.range 8)).pumpCry

/-- An ENGINE reset of a half's cipher scheduler (R367). -/
def State.resetCipher (h : Nat) (s : State) : State := (s.flushCipher 0x47 147 h).refill h

/-! ## Alarms (R370 to R373) -/

/-- The code of an alarm (R370). -/
def alarmCode : AlarmSource → Nat
  | .voltage => 1 | .temperature => 2 | .stepRate => 3 | .tamperMesh => 4 | .debugIntrusion => 5
/-- A latched alarm (R370). DEDUCED (log 65). -/
def alarmLatched : AlarmSource → Bool
  | .tamperMesh | .debugIntrusion => true
  | _ => false

/-- LRD packets that a half's sequencers hold before and behind the scheduler go with the keys they need: those built and not yet encrypted, and
plaintext that waits for its commit (R371, R372). DESIGN CHOICE (log 122). -/
def State.alarmLrd (h : Nat) (s : State) : State :=
  let mine := fun (q : Nat) => halfOfPipe q == h
  let n := (s.net.lrdOut.filter (fun e => mine e.1)).foldl (fun a e => a + e.2.length) 0 +
    (s.net.opened.filter (fun e => mine e.1)).foldl (fun a e => a + e.2.length) 0
  { s with net := { s.net with
    lrdOut := s.net.lrdOut.filter (fun e => !mine e.1), opened := s.net.opened.filter (fun e => !mine e.1) } }.bumpBy 3 h 146 n

/-- What an alarm zeroes on both halves (R371, R372): the key-wrapping keys, both caches, derived keys and trust-domain keys; every slot is
LOST. Packets that wait for a derivation go back to their sequencer. DEDUCED (log 65). -/
def State.zeroise (s : State) : State :=
  let s := s.modCry (fun c => { c with
    kwkW := none, kwkE := none, cacheW := [], cacheE := [], unwrapping := []
    slots := c.slots.mapV (fun _ x => { x with info := x.info.map (fun k => { k with lost := true, key := [] }) }) })
  let s := s.each (fun (e : Nat × List Pkt) s => s.seqFront e.1 e.2) s.lrd.keyWait
  let s := { s with net := { s.net with seqIn := s.net.seqIn.mapV (fun _ ps => ps.map (fun (p : Pkt) => { p with past := false })) } }
  s.modLrd (fun l => { l with tdW := [], tdE := [], keysW := [], keysE := [], derive_ := [], keyWait := [] })

/-- A cipher alarm (R370 to R374). DEDUCED (log 65). -/
def State.alarm (a : AlarmSource) (s : State) : State :=
  let st := if alarmLatched a || s.cry.state == .zeroLatched then CryState.zeroLatched else .zeroRecoverable
  let s := (((((s.flushCipher 0x46 146 0).flushCipher 0x46 146 1).alarmLrd 0).alarmLrd 1).zeroise).modCry (fun c => { c with
    state := st, alarmAt := s.clock.now, kiks := if alarmLatched a then [] else c.kiks })
  let s := (s.refill 0).refill 1
  let fids := s.fns.keysWhere (fun _ f => f.state == .active)
  (s.postAll fids 0x0505 0 (toLe 1 (alarmCode a) ++ toLe 1 st.code ++ List.replicate 6 0 ++ toLe 8 s.devNow.toNat)).ledgerAdd 0x0032 (alarmCode a)
    (toLe 1 st.code)

/-- The core supply of a die as its comparator judges it, in mV: more than 12 % below or 10 % above its set point; in a slew the limits are taken from
the lower and from the higher of the two (R370, R508). -/
def Power.voltBad (p : Power) (die mv : Nat) : Bool :=
  let a := if die = 0 then p.setW else p.setE
  let b := if p.slew.isNone then a else if die = 0 then p.fromW else p.fromE
  decide (mv * 100 < min a b * 88) || decide (max a b * 110 < mv * 100)
/-- The condition of an alarm source holds: of VOLTAGE, where the voltage is given, beyond its limits (R370). -/
def State.alarmDue (s : State) (source : AlarmSource) (volts : Option (Half × Nat)) : Bool :=
  match source, volts with
  | .voltage, some (d, mv) => s.power.voltBad d mv
  | _, _ => true

/-- CIPHER_ALARM (R370, R371, R508). -/
def execCipherAlarm (source : AlarmSource) (s : State) (volts : Option (Half × Nat) := none) : Outcome :=
  if s.alarmDue source volts then done (s.alarm source) else done s

/-- A new key-wrapping key for each half, from the device's random source (R340). DESIGN CHOICE (log 34). -/
def State.drawKwks (s : State) : State :=
  let k := fun (n : Nat) => Config.freeWord n ++ Config.freeWord (n + 1) ++ Config.freeWord (n + 2) ++ Config.freeWord (n + 3)
  ({ s with free := s.free + 8 }).modCry (fun c => { c with kwkW := some (k s.free), kwkE := some (k (s.free + 4)) })

/-- ALARM_RECOVERY (R373): 10 ms after a recoverable alarm with no condition present. -/
def execAlarmRecovery (dt : Nat) (s : State) : Outcome :=
  let s := s.advance dt
  if s.cry.state == .zeroRecoverable && decide (s.cry.alarmAt + 10000000 ≤ s.clock.now) then
    let s := s.drawKwks.modCry (fun c => { c with state := .ready })
    let fids := s.fns.keysWhere (fun _ f => f.state == .active)
    done (s.postAll fids 0x0506 0 (List.replicate 8 0 ++ toLe 8 s.devNow.toNat))
  else done s

end Sys2Proof.Machine
end

