-- ==== Sys2Proof/Machine/Engines.lean ====
section
/-! DEFINITION. The microcoded engines: microwords, waits, requests, resets, faults, control stores and their registers (R422 to R448),
and the retirement of a transport sequencer (R524). -/

namespace Sys2Proof.Machine

open Sys2Proof

/-! ## Engines (R422, R425) -/

/-- The kind of an engine: 0 transport, 1 DMA, 2 cipher; its number within the kind; its half; the words of its store. -/
def engKind (e : Nat) : Nat := if e < 16 then 0 else if e < 48 then 1 else 2
def engNum (e : Nat) : Nat := if e < 16 then e else if e < 48 then e - 16 else e - 48
def engHalf (e : Nat) : Nat := if e < 16 then e / 8 else if e < 48 then (e - 16) / 16 else e - 48
def storeSize (kind : Nat) : Nat := if kind = 0 then 8192 else if kind = 1 then 4096 else 2048
/-- Engine identity (R425). DEDUCED (log 72). -/
def engIdent (e : Nat) : Nat := engKind e * 256 + engNum e
/-- The engines of a kind on a half. -/
def enginesOf (kind h : Nat) : List Nat := (List.range 50).filter (fun e => engKind e == kind && engHalf e == h)

def State.engine (s : State) (e : Nat) : Engine := s.micro.engines.getD e {}
def State.modEngine (e : Nat) (f : Engine → Engine) (s : State) : State :=
  { s with micro := { s.micro with engines := s.micro.engines.upd e {} f } }
def Engine.reg (x : Engine) (r : Nat) : BitVec 64 := x.regs.getD r 0
/-- A write to a general register; G29 is the timer, armed by a non-zero value (R424). -/
def Engine.setReg (r : Nat) (v : BitVec 64) (x : Engine) : Engine :=
  { x with regs := Tab.set r v x.regs, armed := if r = 29 then v != 0 else x.armed }

/-! ## Resets (R436) -/

/-- What an ENGINE reset clears. -/
def Engine.cleared (x : Engine) : Engine :=
  { x with pc := 0, waiting := false, waited := 0, inOp := false, reqs := 0, regs := [], stack := [], resume := 0, zero := false, neg := false
           carry := false, ovf := false, armed := false, portA := none, portB := none, errA := none, errB := none }

/-- The SQs' and rings' reads that a DMA engine has outstanding. -/
def State.readsOf (s : State) (e : Nat) : List (Nat × Nat × HostRead) :=
  s.links.flatMap (fun l => (l.2.reads.filter (fun r => !r.2.orphan && match r.2.use with
    | .index k => engineOfSq (numOfKey k) == e
    | .descs k => engineOfSq (numOfKey k) == e
    | .spec k => engineOfSq (numOfKey k) == e
    | .data k _ => engineOfSq (numOfKey k) == e
    | _ => false)).map (fun r => (l.1, r.1, r.2)))

/-- A DMA engine's operations in flight start again from their descriptors: its reads are orphaned, and issued anew but for functions that are
no longer ACTIVE (R55, R56, R436). DEDUCED (log 72). -/
def State.restartDma (e : Nat) (s : State) : State :=
  s.each (fun (x : Nat × Nat × HostRead) s =>
    (s.modLink x.1 (fun l => { l with reads := Tab.set x.2.1 { x.2.2 with orphan := true } l.reads })).issueRead
      x.2.2.fid x.2.2.addr x.2.2.len x.2.2.use) (s.readsOf e)

/-- The messages of a sequencer end with RESET (R324). -/
def State.resetMsgs (n : Nat) (s : State) : State := s.each (fun k s => s.endMsg k 0x1E 0) ((s.lrd.msgs.filter (fun e => e.2.seq == n)).map (·.1))

/-- An ENGINE reset (R436): raised by hardware it restarts the engine if AUTO_RESTART is set, written to ENG_CTRL it leaves it STOPPED. -/
def State.resetEngine (e : Nat) (hw : Bool) (s : State) : State :=
  let s := s.modEngine e (fun x => { x.cleared with run := if hw && x.autoRun then .resetting else .stopped })
  let s := s.bump 3 (engHalf e) 289
  match engKind e with
  | 0 => s.resetMsgs (engNum e)
  | 1 => s.restartDma (engNum e)
  | _ => s.resetCipher (engHalf e)

/-! ## Control stores (R440, R443) -/

/-- A control-store word as 20 bytes (R426). -/
def wordBytes (w : BitVec 160) : Bytes := toLe 20 w.toNat
/-- CRC-32C over a store of `n` words in address order (R443). -/
def storeCrc (n : Nat) (st : Tab (BitVec 160)) : BitVec 32 :=
  BitVec.ofNat 32 (crc32c 0 ((List.range n).flatMap (fun i => wordBytes (st.getD i 0))))
def goldenKey (h kind : Nat) : Nat := h * 3 + kind

/-- An engine's store is written from its half's golden copy and checked (R440, R447). -/
def State.reloadStore (e : Nat) (s : State) : State :=
  let st := s.micro.golden.getD (goldenKey (engHalf e) (engKind e)) []
  s.modEngine e (fun x => { x with store := st, csCrc := storeCrc (storeSize (engKind e)) st, reload := false, checking := false })

/-! ## Retirement of a sequencer (R524) -/

/-- The received packet of a job for sequencer `n`. -/
def InlJob.received (n : Nat) : InlJob → Option Pkt
  | .dec j => if j.seq = n then some j.pkt else none
  | _ => none
/-- A received packet of sequencer `n` handed to `q`. -/
def InlJob.handOver (n q : Nat) : InlJob → InlJob
  | .dec j => .dec (if j.seq = n then { j with seq := q } else j)
  | j => j

/-- Transport sequencer `n` is retired: its messages end with RESET and the packets it received go to its successor, before or behind the
cipher scheduler as they stand; what it has built still leaves. DEDUCED (log 72). -/
def State.retireSeq (n : Nat) (s : State) : State :=
  let s := (s.retireRes (resId 8 n)).resetMsgs n
  let h := n / 8
  let ps := s.lrd.keyWait.getD n [] ++ s.net.seqIn.getD n []
  let os := s.net.opened.getD n []
  let js := s.net.inl.getD h []
  let s := { s with net := { s.net with seqIn := Tab.del n s.net.seqIn, opened := Tab.del n s.net.opened },
                    lrd := { s.lrd with keyWait := Tab.del n s.lrd.keyWait, derive_ := Tab.del n s.lrd.derive_ } }
  let s := match s.seqOf n with
    | some q => { s with net := { s.net with
        seqIn := s.net.seqIn.upd q [] (· ++ ps), opened := s.net.opened.upd q [] (· ++ os),
        inl := Tab.set h (js.map (InlJob.handOver n q)) s.net.inl } }
    | none =>
      let s := { s with net := { s.net with inl := Tab.set h (js.filter (fun j => (j.received n).isNone)) s.net.inl } }
      s.each (fun p s => (s.bump 3 h 68).dropPkt p) (ps ++ os.map Prod.fst ++ js.filterMap (InlJob.received n))
  s.postRetired (resId 8 n)

/-! ## Faults (R437, R438) -/

/-- The number of SEQ_FAULTS of an engine (R448). -/
def seqFaultNo (e : Nat) : Nat := if e < 16 then 256 + e % 8 else if e < 48 then 264 + (e - 16) % 16 else 280
/-- The resource an engine's faults are charged to (R519). -/
def engRes (e : Nat) : Nat := resId (8 + engKind e) (engNum e)

/-- The fields of a microword (R426). -/
def mwField (w : BitVec 160) (lo n : Nat) : Nat := bits w.toNat lo n

/-- ENG_FAULT (R442). -/
def faultWord (cause pc : Nat) (w : BitVec 160) : BitVec 64 :=
  BitVec.ofNat 64 (cause + pc % 8192 * 16 + mwField w 23 6 * 131072 + mwField w 29 1 * 8388608 + mwField w 67 16 * 16777216)

/-- A sequencer fault at word `pc`: the engine is FAULTED, the fault is counted, recorded and charged (R438, R524, R525). DEDUCED (log 72).
-/
def State.engineFaultAt (e cause pc : Nat) (s : State) : State :=
  let w := (s.engine e).store.getD pc 0
  let s := s.modEngine e (fun x => { x with
    run := .faulted, waiting := false, fault := faultWord cause pc w, faults := min (x.faults + 1) 0xFFFFFFFF
    reload := x.reload || cause == 7 })
  let s := (s.bump 3 (engHalf e) (seqFaultNo e)).ledgerAdd 0x0035 (engIdent e)
    (toLe 1 cause ++ [0] ++ toLe 2 pc ++ toLe 1 (mwField w 23 6) ++ [0] ++ toLe 2 (mwField w 67 16))
  if engKind e = 0 then
    let c := s.charge (engRes e) 1
    if c.2 then c.1.retireSeq (engNum e) else c.1
  else s.chargeDegrade (engRes e) 1

/-- A sequencer fault at the engine's current word. -/
def State.engineFault (e cause : Nat) (s : State) : State := s.engineFaultAt e cause (s.engine e).pc

/-- An engine whose control store disagrees twice with its CRC is reported as a permanent fault: a transport sequencer is retired, another engine stays
in service (R446, R524, R525). DEDUCED (log 81). -/
def State.storeFail (e : Nat) (s : State) : State :=
  let s := s.permanent (engRes e) 0
  if engKind e = 0 then s.retireSeq (engNum e) else s.degrade (engRes e) 1

/-- The hardware's reset of an engine: after CS_ECC its store is reloaded and checked first; `bad` says that it fails the check twice (R438, R440,
R446). DEDUCED (log 72). -/
def State.recoverEngine (e : Nat) (s : State) (bad : Bool := false) : State :=
  (s.when (s.engine e).reload (fun s => (s.reloadStore e).when bad (State.storeFail e))).resetEngine e true

/-! ## Memory ports (R424, R426, R428, R430) -/

/-- The spaces a kind's ports may address (R428). -/
def spaceOk (kind sp : Nat) : Bool :=
  (if kind = 0 then [0, 1, 2, 3, 5, 6] else if kind = 1 then [0, 1, 2, 3, 4, 5] else [0, 1, 2, 3, 7]).contains sp

/-- Bytes at an address of the engine's scratch, which wraps at 64 KiB. DEDUCED (log 71). -/
def Engine.scratchRead (x : Engine) (a : BitVec 64) (n : Nat) : Bytes := Mem.read 0 x.scratch (a.toNat % 65536) n
def Engine.scratchWrite (a : BitVec 64) (bs : Bytes) (x : Engine) : Engine := { x with scratch := Mem.write 0 x.scratch (a.toNat % 65536) bs }

/-- A port's operation has failed: its error register, and the INTR request (R430, R435). -/
def Engine.portFail (b : Bool) (c : Nat) (x : Engine) : Engine :=
  let x := if b then { x with portB := none, errB := some c } else { x with portA := none, errA := some c }
  { x with reqs := x.reqs ||| 8 }

/-- A port's transfer ends: read data reaches its register; a stream's bytes come from the engine's scratch or from outside, and reach its scratch where
that is their destination; a failure sets the port's error register and the INTR request. DEDUCED (log 71). DESIGN CHOICE (log 5). -/
def Engine.portEnd (b : Bool) (r : Option PortEnd) (x : Engine) : Engine :=
  match r, if b then x.portB else x.portA with
  | some r, some p =>
    let y := if b then { x with portB := none } else { x with portA := none }
    match r with
    | .ok data =>
      if p.op = 1 then
        let n := 2 ^ min p.size 3
        y.setReg p.dreg (BitVec.ofNat 64 (le (if p.space = 0 then x.scratchRead p.addr n else data) 0 n))
      else if p.op = 3 ∧ Config.streamSpace p.dst = 0 then
        let from_ := (Config.streamAddr p.addr).zeroExtend 64
        y.scratchWrite ((Config.streamAddr p.dst).zeroExtend 64)
          (if Config.streamSpace p.addr = 0 then x.scratchRead from_ (min p.len.toNat 65536) else slice data 0 p.len.toNat)
      else y
    | .failed c => x.portFail b c
    | .uncorrectable => y
  | _, _ => x

/-- A read that ends uncorrectable (R437). -/
def Engine.badRead (env : EngEnv) (x : Engine) : Bool :=
  (env.aDone == some .uncorrectable && x.portA.isSome) || (env.bDone == some .uncorrectable && x.portB.isSome)

/-- The operation a word issues on a port from bit `lo` on: OP, SPACE, AREG, DREG, SIZE. -/
def portOp (x : Engine) (w : BitVec 160) (lo : Nat) : Option PortOp :=
  let op := mwField w lo 2
  let a := mwField w (lo + 6) 5
  if op = 0 then none
  else if op = 3 then some { op := 3, space := mwField w (lo + 2) 4, addr := x.reg a, dst := x.reg ((a + 1) % 32), len := x.reg ((a + 2) % 32) }
  else some { op := op, space := mwField w (lo + 2) 4, addr := x.reg a, dreg := mwField w (lo + 11) 5, size := mwField w (lo + 16) 3 }

/-- A transfer that ends with its port's error condition at once: in split mode one to an address of the other half, a write to the
read-only pipeline tables, a stream of a space that the engine's kind does not allow (R428). DEDUCED (log 71). DESIGN CHOICE (log 5). -/
def State.portBars (s : State) (e : Nat) (p : PortOp) : Bool :=
  let far := fun (sp : Nat) (a : BitVec 64) => s.rel.split && ([1, 2, 3, 5, 6].contains sp && Config.portFar sp a)
  if p.op = 3 then
    let a := (Config.streamSpace p.addr).toNat
    let b := (Config.streamSpace p.dst).toNat
    !spaceOk (engKind e) a || !spaceOk (engKind e) b || b == 6 || far a p.addr || far b p.dst
  else (p.op == 2 && p.space == 6) || far p.space p.addr

/-- Issues a port operation: a write to the engine's scratch takes place, others leave the engine. -/
def State.issuePort (e : Nat) (b : Bool) (data : BitVec 64) (p : Option PortOp) (s : State) : State :=
  match p with
  | none => s
  | some p =>
    if s.portBars e p then s.modEngine e (Engine.portFail b ((Config.freeWord (s.free + 66)).toNat % 256))
    else
      let s := s.modEngine e (fun x => if b then { x with portB := some p, errB := none } else { x with portA := some p, errA := none })
      if p.op = 3 then s.emit (.engStream e p.addr p.dst p.len)
      else if p.space = 0 then
        if p.op = 2 then s.modEngine e (Engine.scratchWrite p.addr (toLe (2 ^ min p.size 3) data.toNat)) else s
      else s.emit (.engPort e p.op p.space p.addr (if p.op = 2 then data else 0) (2 ^ min p.size 3))

/-! ## Queues (R429, R430) -/

/-- Queues of a kind that the engine pops, and those it pushes; the miss queue, the timer wheel and the completion hold it fills itself. DESIGN CHOICE
(log 149). -/
def queueIn (kind q : Nat) : Bool := (if kind = 0 then [1, 2, 6, 8] else if kind = 1 then [1, 2, 4, 5, 6] else [1, 2, 4, 8]).contains q
def queueOut (kind q : Nat) : Bool := (if kind = 0 then [3, 4, 5, 6, 7, 8] else if kind = 1 then [3, 5, 7, 8] else [3, 5, 6, 7]).contains q

def Engine.words (x : Engine) (q : Nat) : List (BitVec 64) := x.queues.getD q []
/-- A queue can be popped, or pushed. -/
def Engine.canPop (kind q : Nat) (x : Engine) : Bool := queueIn kind q && !(x.words q).isEmpty
def Engine.canPush (kind q : Nat) (x : Engine) : Bool := queueOut kind q && x.credits.getD q 0 != 0
/-- The word at the head of a queue. -/
def Engine.head (x : Engine) (q : Nat) : BitVec 64 := (x.words q).headD 0

/-- Words and credit that neighbours have sent arrive. DESIGN CHOICE (log 149). -/
def Engine.arrive (kind : Nat) (env : EngEnv) (x : Engine) : Engine :=
  { x with
    queues := env.words.foldl (fun t w => if queueIn kind w.1.val then t.upd w.1.val [] (· ++ [w.2]) else t) x.queues
    credits := env.credits.foldl (fun t c => if queueOut kind c.1.val then t.upd c.1.val 0 (· + c.2) else t) x.credits }

/-- A word's pop and push. -/
def Engine.queueOps (push pop : Nat) (x : Engine) : Engine :=
  let x := if pop = 0 then x else { x with queues := x.queues.upd pop [] (·.drop 1) }
  if push = 0 then x else { x with credits := x.credits.upd push 0 (· - 1) }

/-! ## Conditions and operands (R425, R430, R431) -/

/-- A message of a sequencer satisfies `p`. -/
def State.anyMsg (s : State) (n : Nat) (p : Msg → Bool) : Bool := s.lrd.msgs.anyV (fun _ m => m.seq == n && p m)
/-- A ring that a DMA engine serves satisfies `p`. -/
def State.anyRing (s : State) (n : Nat) (p : Nat → Ring → Bool) : Bool := s.rings.anyV (fun k r => engineOfSq (numOfKey k) == n && p k r)

/-- The conditions 48 to 63 that the state of the blocks around an engine decides; the others name what its microprogram has asked for (R431). DEDUCED (log
71). -/
def State.blockCond (s : State) (e c : Nat) : Option Bool :=
  let h := engHalf e
  let n := engNum e
  match engKind e, c with
  | 0, 49 => some (s.lrd.derive_.getD n []).isEmpty
  | 0, 56 => some (s.seqCredit n)
  | 0, 57 => some (!(s.net.opened.getD n []).isEmpty)
  | 0, 58 => some (decide ((s.missQ h).length < 4096))
  | 0, 59 => some (s.anyMsg n (fun m => (m.state == .sending || m.state == .awaiting) && !(m.due s.clock.dev).isEmpty))
  | 0, 60 => some ((s.recs h).any (fun x => x.reply.seq == n && x.state == .receiving && x.firstAt.any (fun t => decide (t + 4000 ≤ s.clock.dev))))
  | 0, 61 => some (s.anyMsg n (fun m => m.state != .ended && decide (m.deadline ≤ s.clock.dev)))
  | 1, 48 => some (s.anyRing n (fun _ r => r.dbPending))
  | 1, 49 => some (!s.anyRing n (fun _ r => r.readOut))
  | 1, 50 => some (s.anyRing n (fun k _ => (s.workOf k).fetched.any (fun d => !d.begun)))
  | 1, 51 => some (s.anyRing n (fun k _ => (s.workOf k).fetched.any (fun d => !d.begun && dIndirect d.bytes)))
  | 1, 52 => some (s.link (n / 4)).freeTag.isSome
  | 1, 55 => some true
  | 1, 57 => some (s.res.anyV (fun fid r => s.linkOf fid == n / 4 && !r.hold.isEmpty))
  | 1, 59 => some ((List.range 8).any (fun i => decide ((s.pipe (8 * h + i)).inj7.length + (s.pipe (8 * h + i)).inj.length < 256)))
  | 1, 60 => some (s.hostRoom h 1)
  | 1, 61 => some (s.anyRing n (fun k _ => !(s.workOf k).posted.isEmpty))
  | 1, 63 => some (s.link (n / 4)).up
  | 2, 48 => some (!(s.inlQ h).isEmpty)
  | 2, 49 => some (!(s.bulkQ h).isEmpty)
  | 2, 50 => some (!(s.freeCores h).isEmpty)
  | 2, 51 => some ((s.freeCores h).any (fun c => (s.cipherCores h).head? == some c))
  | 2, 53 => some (s.cry.unwrapping.all (fun k => halfOfSlot k != h))
  | 2, 56 => some (decide (0 < s.cipherRoom h))
  | 2, 62 => some (s.cry.state == .ready)
  | _, _ => none

/-- A condition; reserved ones are free. DEDUCED (log 71). -/
def State.engCond (s : State) (e : Nat) (x : Engine) (env : EngEnv) (c : Nat) : Bool :=
  if 48 ≤ c then (s.blockCond e c).getD (env.conds.getLsbD (c - 48))
  else if 40 ≤ c then (Config.freeWord (s.free + c)).getLsbD 0
  else if 32 ≤ c then (x.reg 30).getLsbD (c - 32)
  else if 17 ≤ c then (if queueIn (engKind e) (c - 16) then x.canPop (engKind e) (c - 16) else x.canPush (engKind e) (c - 16))
  else
    match c with
    | 0 => true
    | 1 => x.zero
    | 2 => x.neg
    | 3 => x.carry
    | 4 => x.ovf
    | 5 => x.portA.isNone
    | 6 => x.portB.isNone
    | 7 => x.errA.isSome
    | 8 => x.errB.isSome
    | 9 => x.armed && x.reg 29 == 0
    | 10 => s.clock.synced
    | 11 => s.rel.split
    | 12 => engHalf e == 1
    | 13 => s.power.mode == 2
    | _ => (Config.freeWord (s.free + c)).getLsbD 0

/-- An ALU operand; reserved ones are free. DESIGN CHOICE (log 1). -/
def State.engOperand (s : State) (e : Nat) (x : Engine) (w : BitVec 160) (n : Nat) : BitVec 64 :=
  let imm := mwField w 67 32
  if n < 32 then x.reg n
  else
    match n with
    | 32 => BitVec.ofNat 64 imm
    | 33 => (BitVec.ofNat 32 imm).signExtend 64
    | 34 => s.stepsOf (engHalf e)
    | 35 => s.devNow
    | 36 => BitVec.ofNat 64 (engIdent e)
    | 37 => BitVec.ofNat 64 x.resume
    | 38 => x.reqs.zeroExtend 64
    | 39 => 0
    | _ => Config.freeWord (s.free + n)

/-! ## The ALU (R426) -/

/-- The comparison of MIN and MAX (R426). DESIGN CHOICE (log 5). -/
def lessWord (a b : BitVec 64) : Bool := if Config.minMaxSigned then a.slt b else a.ult b

/-- Bits that are set. -/
def popcount (n : Nat) (v : BitVec 64) : Nat := (List.range n).countP (fun i => v.getLsbD i)

/-- An ALU result, whether it carried or borrowed, and whether it overflowed as a signed value; `f` where the manual states none. DEDUCED
(log 71). -/
def engAlu (op : Nat) (a b f : BitVec 64) : BitVec 64 × Bool × Bool :=
  let n := b.toNat % 64
  match op with
  | 1 => (a + b, decide (2 ^ 64 ≤ a.toNat + b.toNat), a.msb == b.msb && (a + b).msb != a.msb)
  | 2 => (a - b, a.ult b, a.msb != b.msb && (a - b).msb != a.msb)
  | 3 => (a &&& b, false, false)
  | 4 => (a ||| b, false, false)
  | 5 => (a ^^^ b, false, false)
  | 6 => (a <<< n, false, false)
  | 7 => (a >>> n, false, false)
  | 8 => (a.sshiftRight n, false, false)
  | 9 => (a, false, false)
  | 10 => (if lessWord a b then a else b, false, false)
  | 11 => (if lessWord a b then b else a, false, false)
  | 12 => (BitVec.ofNat 64 (beNat (toLe 8 a.toNat)), false, false)
  | 13 => (BitVec.ofNat 64 (popcount 64 a), false, false)
  | _ => (f, false, false)

/-! ## The next address and requests (R427, R435) -/

/-- The address BSEL chooses, with the return stack after it, or the cause of a fault. -/
def nextWord (x : Engine) (w : BitVec 160) (size : Nat) (cond : Bool) (alu pop f : BitVec 64) : Except Nat (Nat × List Nat) :=
  let next := mwField w 0 13
  let seq := x.pc + 1
  let r : Except Nat (Nat × List Nat) := match mwField w 13 4 with
    | 0 => .ok (next, x.stack)
    | 1 => .ok (seq, x.stack)
    | 2 => .ok (if cond then next else seq, x.stack)
    | 3 => .ok (if cond then seq else next, x.stack)
    | 4 => .ok (Nat.lor next (alu.toNat % 16), x.stack)
    | 5 => .ok (Nat.lor next (pop.toNat % 64), x.stack)
    | 6 => if 8 ≤ x.stack.length then .error 6 else .ok (next, seq :: x.stack)
    | 7 => match x.stack with
      | [] => .error 6
      | a :: rest => .ok (a, rest)
    | 8 => .ok (x.resume, x.stack)
    | _ => .ok (f.toNat % 8192, x.stack)
  match r with
  | .error c => .error c
  | .ok (a, st) => if a < size then .ok (a, st) else .error 8

/-- Takes the pending request of highest priority, with RESUME at `next`; without one goes to `next` (R435). -/
def Engine.sample (next : Nat) (x : Engine) : Engine :=
  match (List.range 4).find? (fun i => x.reqs.getLsbD i) with
  | none => { x with pc := next }
  | some i => { x with pc := 4 * (i + 1), resume := next, inOp := false, waiting := false, reqs := x.reqs &&& ~~~((1 : BitVec 4) <<< i) }

/-- `n` steps of an engine pass: the timer counts, and so does a wait (R424, R432). DEDUCED (log 71). -/
def Engine.tick (n : Nat) (x : Engine) : Engine :=
  let x := if x.armed then { x with regs := Tab.set 29 (BitVec.ofNat 64 ((x.reg 29).toNat - n)) x.regs } else x
  if x.waiting then { x with waited := x.waited + n } else x

/-- An engine takes `n` steps of its die, whose counter stands past those of its last (R423, R425). -/
def State.engSteps (e n : Nat) (s : State) : State :=
  let c := max (s.stepsOf (engHalf e)).toNat ((s.engine e).steps.toNat + n)
  (s.stepsTo (engHalf e) c).modEngine e (fun x => { x with steps := BitVec.ofNat 64 c })

/-! ## One microword (R423, R432, R433) -/

/-- The fault a completing word raises before it acts: a busy port, an empty queue, a push without credit. DEDUCED (log 71). -/
def wordFault (kind : Nat) (x : Engine) (w : BitVec 160) : Option Nat :=
  let push := mwField w 137 4
  let pop := mwField w 141 4
  if (mwField w 99 2 ≠ 0 ∧ x.portA.isSome) ∨ (mwField w 118 2 ≠ 0 ∧ x.portB.isSome) then some 4
  else if pop ≠ 0 ∧ x.canPop kind pop = false then some 2
  else if push ≠ 0 ∧ x.canPush kind push = false then some 3
  else none

/-- A word fed to the CRC unit of a DMA engine (R426). DESIGN CHOICE (log 149). -/
def Engine.feedCrc (wide : Bool) (a : BitVec 64) (x : Engine) : Engine :=
  if wide then { x with sum64 := BitVec.ofNat 64 (crc64 x.sum64.toNat (toLe 8 a.toNat)) }
  else { x with sum32 := BitVec.ofNat 32 (crc32c x.sum32.toNat (toLe 8 a.toNat)) }

/-- A word completes (R423): its port operations and queue operations, then the ALU result and the popped word, then the next address and
the sampling of requests. DEDUCED (log 71). -/
def State.wordActs (e : Nat) (x : Engine) (w : BitVec 160) (env : EngEnv) (s : State) : State :=
  let cond := s.engCond e x env (mwField w 17 6)
  let op := mwField w 46 4
  let a := s.engOperand e x w (mwField w 50 6)
  let b := s.engOperand e x w (mwField w 56 6)
  let f := Config.freeWord (s.free + 64)
  let alu := engAlu op a b f
  let q := mwField w 145 5
  let push := mwField w 137 4
  let pop := mwField w 141 4
  match wordFault (engKind e) x w, nextWord x w (storeSize (engKind e)) cond alu.1 (x.head pop) (Config.freeWord (s.free + 65)) with
  | some c, _ => s.engineFault e c
  | none, .error c => s.engineFault e c
  | none, .ok (next, st) =>
    let s := s.issuePort e false (x.reg (mwField w 110 5)) (portOp x w 99)
    let s := s.issuePort e true (x.reg (mwField w 129 5)) (portOp x w 118)
    let s := if push = 0 then s else s.emit (.engPush e push (x.reg q))
    let s := if op = 14 ∧ engKind e = 1 then (s.emit (.engCrc e (b.getLsbD 0) a)).modEngine e (Engine.feedCrc (b.getLsbD 0) a) else s
    s.modEngine e (fun y =>
      let y := ({ y with waiting := false }.tick 1).queueOps push pop
      let y := if op = 0 then y else y.setReg (mwField w 62 5) alu.1
      let y := if pop = 0 then y else y.setReg q (x.head pop)
      let y := if mwField w 151 1 = 0 then y
        else { y with zero := alu.1 == 0, neg := alu.1.msb, carry := alu.2.1, ovf := alu.2.2 }
      let y := { y with stack := st }
      if mwField w 150 1 = 1 then { y with inOp := false }.sample next else { y with inOp := true, pc := next })

/-- The wait limit of a word, in its units (R432). -/
def waitLimit (w : BitVec 160) : Nat := (mwField w 30 12 + 1) * 16 ^ mwField w 42 3

/-- The wait of a word has lasted its limit: in steps, or in µs of the clocked timer (R432). -/
def Engine.limitHit (w : BitVec 160) (now : Nat) (x : Engine) : Bool :=
  x.waiting && (if mwField w 45 1 = 0 then decide (waitLimit w ≤ x.waited) else decide (x.waitFrom + 1000 * waitLimit w ≤ now))

/-- A word waits for one more step; with EOP it samples the requests (R433, R435). DEDUCED (log 71). -/
def Engine.waits (w : BitVec 160) (now : Nat) (x : Engine) : Engine :=
  let x := { (if x.waiting then x else { x with waited := 0, waitFrom := now }) with waiting := true }
  let x := x.tick 1
  if mwField w 150 1 = 1 && x.reqs != 0 then x.sample x.pc else x

/-- A running engine tries its current word: it completes, it reaches its limit, or it waits (R423, R432, R433, R435). DEDUCED (log 71). -/
def State.microStep (e : Nat) (env : EngEnv) (s : State) : State :=
  if (s.engine e).run != .running then s
  else
    let bad := (s.engine e).badRead env
    let s := s.each (fun (m : BitVec 32 × Bool) => State.memFault m.1.toNat m.2) env.mem
    let s := s.modEngine e (fun x =>
      let x := ((x.portEnd false env.aDone).portEnd true env.bDone).arrive (engKind e) env
      if env.intr then { x with reqs := x.reqs ||| 8 } else x)
    let s := s.engSteps e 1
    let x := s.engine e
    let w := x.store.getD x.pc 0
    if env.err == .parity then s.engineFault e 9
    else if env.err == .uncorrectable then s.engineFault e 7
    else if bad then s.engineFault e 5
    else
      let s := if env.err == .corrected then s.bump 3 (engHalf e) 288 else s
      let s := if mwField w 50 6 = 34 ∨ mwField w 56 6 = 34 then s.tickSteps (engHalf e) else s
      let go := s.engCond e x env (mwField w 23 6) != (mwField w 29 1 == 1)
      let s := if go then s.wordActs e x w env
        else if x.limitHit w s.clock.now then s.engineFault e 1
        else s.modEngine e (Engine.waits w s.clock.now)
      { s with free := s.free + 67 }

/-! ## The rows -/

/-- MICROWORD_STEP (R423): an engine executes or waits on one microword; `env` is what the blocks around it show it. -/
def execMicrowordStep (engine : EngineId) (env : EngEnv) (s : State) : Outcome := done (s.microStep engine env)

/-- WAIT_LIMIT (R432, R433): after `dt` ns the wait of a running engine's word has lasted its limit; the word is tried in that step. DESIGN CHOICE (log
11). -/
def execWaitLimit (engine : EngineId) (s : State) (dt : Nat := 0) (env : EngEnv := {}) : Outcome :=
  let s := s.advance dt
  let x := s.engine engine
  if x.run == .running && x.limitHit (x.store.getD x.pc 0) s.clock.now then done (s.microStep engine env) else done s

/-- ENGINE_TIMER (R424, R432): `steps` steps pass, in which G29 counts down and the current word goes on waiting. -/
def execEngineTimer (engine : EngineId) (steps : Nat) (s : State) : Outcome :=
  done ((s.engSteps engine steps).modEngine engine (Engine.tick steps))

/-- ENGINE_RESET (R436): a reset of one engine that hardware raises. -/
def execEngineReset (engine : EngineId) (s : State) (bad : Bool := false) : Outcome := done (s.recoverEngine engine bad)

/-- ENGINE_AUTO_RESTART (R436): an engine being reset by hardware runs from 0x0000. -/
def execEngineAutoRestart (engine : EngineId) (s : State) : Outcome :=
  if (s.engine engine).run == .resetting then done (s.modEngine engine (fun x => { x with run := .running, pc := 0 })) else done s

/-- RUN written while STOPPED starts the engine at 0x0000 (R442). -/
def State.runEngine (e : Nat) (s : State) : State :=
  if (s.engine e).run == .stopped then s.modEngine e (fun x => { x with run := .running, pc := 0 }) else s

/-- ENG_RUN (R442). -/
def execEngRun (engine : EngineId) (s : State) : Outcome := done (s.runEngine engine)

/-- ENG_CTRL_RESET (R442). -/
def execEngCtrlReset (engine : EngineId) (s : State) : Outcome := done (s.resetEngine engine false)

/-- CS_CHECK written: the computation starts (R442). -/
def State.startCheck (e : Nat) (s : State) : State := s.modEngine e (fun x => { x with checking := true })

/-- CS_CHECK (R442). -/
def execCsCheck (engine : EngineId) (s : State) : Outcome := done (s.startCheck engine)

/-- CS_CHECK_DONE (R442, R443). -/
def execCsCheckDone (engine : EngineId) (s : State) : Outcome :=
  if (s.engine engine).checking then
    done (s.modEngine engine (fun x => { x with checking := false, csCrc := storeCrc (storeSize (engKind engine)) x.store }))
  else done s

/-- Request bit `i` of ENG_REQ is raised (R435, R442). -/
def State.engRequest (e i : Nat) (s : State) : State :=
  s.modEngine e (fun x => { x with reqs := x.reqs ||| ((1 : BitVec 4) <<< i), fenceAt := if i = 0 then s.clock.now else x.fenceAt })

/-- QUIESCE (R435). -/
def execQuiesce (engine : EngineId) (s : State) : Outcome := done (s.engRequest engine 1)

/-- CONTROL (R435). -/
def execControl (engine : EngineId) (s : State) : Outcome := done (s.engRequest engine 2)

/-- One part of a word through the window: the fifth commits it and CS_ADDR advances (R443). -/
def Engine.csPart (size : Nat) (v : BitVec 32) (x : Engine) : Engine :=
  if !x.csWe || x.run != .stopped then x
  else
    let ps := x.csIn ++ [v]
    if ps.length < 5 then { x with csIn := ps }
    else
      let w := BitVec.ofNat 160 ((List.range 5).foldl (fun a i => a + (ps.getD i 0).toNat * 2 ^ (32 * i)) 0)
      { x with csIn := [], csAddr := (x.csAddr + 1) % 8192
               store := if x.csAddr < size then (if w = 0 then Tab.del x.csAddr x.store else Tab.set x.csAddr w x.store) else x.store }

/-- The engines that a write through an engine's window reaches (R442). -/
def State.csTargets (s : State) (e : Nat) : List Nat :=
  if (s.engine e).bcast then (enginesOf (engKind e) (engHalf e)).filter (fun k => (s.engine k).csWe) else [e]

/-- A write to CS_DATA (R443). -/
def State.csDataWrite (e : Nat) (v : BitVec 32) (s : State) : State :=
  s.each (fun k => State.modEngine k (Engine.csPart (storeSize (engKind e)) v)) (s.csTargets e)

/-- A read of CS_DATA: the next part of the word at CS_ADDR, which advances after the fifth; beyond the store the value is free (R443).
DEDUCED (log 74). -/
def State.csDataRead (e : Nat) (s : State) : BitVec 32 × State :=
  let x := s.engine e
  let v : BitVec 32 := if x.csAddr < storeSize (engKind e) then BitVec.ofNat 32 (mwField (x.store.getD x.csAddr 0) (32 * x.csOut) 32)
    else (Config.freeWord s.free).truncate 32
  let s := s.modEngine e (fun x =>
    if x.csOut = 4 then { x with csOut := 0, csAddr := (x.csAddr + 1) % 8192 } else { x with csOut := x.csOut + 1 })
  (v, { s with free := s.free + 1 })

/-- A write to CS_ADDR restarts the sequence of five (R443). -/
def State.csAddrWrite (e : Nat) (v : BitVec 32) (s : State) : State :=
  s.each (fun k => State.modEngine k (fun x => { x with csAddr := v.toNat % 8192, csIn := [], csOut := 0 })) (s.csTargets e)

/-- ENG_CS_DATA_WRITE (R443). -/
def execEngCsDataWrite (engine : EngineId) (value : BitVec 32) (s : State) : Outcome := done (s.csDataWrite engine value)

/-- ENG_CS_DATA_READ (R443): the part read leaves the device as a register value. -/
def execEngCsDataRead (engine : EngineId) (s : State) : Outcome :=
  let r := s.csDataRead engine
  done (r.2.emit (.reg (r.1.zeroExtend 64) false false))

/-- ENG_CS_ADDR_WRITE (R443). -/
def execEngCsAddrWrite (engine : EngineId) (value : BitVec 32) (s : State) : Outcome := done (s.csAddrWrite engine value)

/-- CS_SCRUB (R440): the scrubber reads a word; an uncorrectable error counts as though the engine had fetched it. -/
def execCsScrub (engine : EngineId) (addr : Nat) (err : HwError) (s : State) : Outcome :=
  match err with
  | .none => done s
  | .corrected => done (s.bump 3 (engHalf engine) 288)
  | .memory _ _ => done s
  | _ => done (s.engineFaultAt engine 7 addr)

/-- CS_RELOAD (R440, R446): after CS_ECC the engine's store is reloaded, checked, and the engine is released. -/
def execCsReload (engine : EngineId) (s : State) (bad : Bool := false) : Outcome :=
  if (s.engine engine).reload then done (s.recoverEngine engine bad) else done s

end Sys2Proof.Machine
end

