-- ==== Sys2Proof/Machine/Spread.lean ====
section
/-! DEFINITION. Spread groups and the reorder stage (R261 to R265), and where a thread's verdict sends a packet (R407). -/

namespace Sys2Proof.Machine

open Sys2Proof

/-! ## Verdicts (R407) -/

/-- The fields of a destination word. -/
def vKind (d : Nat) : Nat := d % 8
def vDest (d : Nat) : Nat := bits d 3 18
def vFid (d : Nat) : Nat := bits d 21 13
def vGen (d : Nat) : Nat := bits d 34 8
def vClass (d : Nat) : Option Nat := if bit d 45 then some (bits d 42 3) else none
def vColour (d : Nat) : Option Nat := if bit d 48 then some (bits d 46 2) else none

/-- A forwarded packet that goes nowhere (R407). -/
def State.verdictDrop (p : Pkt) (s : State) : State := (s.bump 3 p.half 198).dropPkt p

/-- A forwarded packet is handled as a pipeline destination of its kind (R407). -/
def State.forward (p : Pkt) (d : Nat) (s : State) : State :=
  let pipe := le p.hv 5 1 % 16
  match vKind d with
  | 1 => s.admitPkt pipe p (.lp (vDest d % 128))
  | 2 =>
    if (s.ring (sqKey (vDest d))).isNone || vGen d != (s.fn (vFid d)).gen.toNat then s.verdictDrop p
    else (s.countDest pipe (.ring (vDest d))).admitPkt pipe p (.ring (vDest d))
  | 4 =>
    match s.resolveRoute pipe p with
    | some r =>
      (r.bumps.foldl (fun s c => s.bump 2 pipe c) s).admitPkt pipe { p with hop := r.route.map (fun e => slice e 24 6) } r.dest
    | none => (s.bump 2 pipe 148).verdictDrop p
  | 5 =>
    match s.floodMask (halfOfPipe pipe) (vDest d % 64) with
    | none => (s.bump 2 pipe 151).verdictDrop p
    | some m => (s.bump 2 pipe 150).admitPkt pipe p (.flood (s.floodLps p m))
  | 6 => (s.countDest pipe (.byre (vDest d % 32))).admitPkt pipe p (.byre (vDest d % 32))
  | _ => s.dropPkt p

/-! ## The reorder stage (R264, R265) -/

/-- The stage has already passed a number. -/
def Spread.passed (g : Spread) (n : BitVec 32) : Bool := decide (2147483648 ≤ (n - g.rel).toNat)

/-- Releases held verdicts in sequence while the next is there; a packet that goes on carries no sequence number any more (R263). DEDUCED (log
69). -/
def State.release (g : Nat) : Nat → State → State
  | 0, s => s
  | n + 1, s =>
    let x := s.spread g
    match x.held.find? (fun e => e.1 == x.rel) with
    | none => s
    | some (i, v) =>
      let s := s.modSpread g (fun x => { x with rel := x.rel + 1, out := x.out - 1, held := x.held.filter (fun e => e.1 != i) })
      (match v with
        | .forward p d => s.forward { p with group := none, touched := true } d
        | .discard => s).release g n

/-- A verdict reaches a group's reorder stage; a packet behind the window is dropped (R263, R264). DEDUCED (log 69). -/
def State.toReorder (g : Nat) (n : BitVec 32) (v : Verdict) (s : State) : State :=
  let x := s.spread g
  if x.passed n then
    let s := s.modSpread g (fun x => { x with out := x.out - 1 })
    match v with
    | .forward p _ => (s.bump 3 x.home (1028 + 8 * g)).dropPkt p
    | .discard => s
  else (s.modSpread g (fun x => { x with held := x.held ++ [(n, v)] })).release g 4097

/-- REORDER_TIMEOUT (R265): the packet that has been held longest has waited its 16,384 steps; every missing number before it is passed
over and counted. -/
def execReorderTimeout (group : Fin 1024) (steps : Nat) (s : State) : Outcome :=
  let g := group.val
  let x := s.spread g
  match x.held.find? (fun e => e.2 != .discard) with
  | none => done s
  | some (n, _) =>
    if steps < 16384 then done s
    else
      let lost := (List.range (n - x.rel).toNat).filter (fun i => !x.held.any (fun e => e.1 == x.rel + BitVec.ofNat 32 i))
      let s := s.bumpBy 3 x.home (1027 + 8 * g) lost.length
      let s := s.postInfra 0x0302 g (toLe 4 (s.stat 3 x.home (1027 + 8 * g) % 4294967296))
      let fill := lost.map (fun i => (x.rel + BitVec.ofNat 32 i, Verdict.discard))
      let s := s.modSpread g (fun x => { x with out := x.out + lost.length, held := x.held ++ fill })
      done (s.release g 8194)

/-! ## The spreader (R261, R262) -/

/-- The place in the rotation of the next thread that is not skipped, and how many were skipped. DEDUCED (log 54). -/
def nextThread (live : Nat → Bool) (ts : List Nat) : Nat → Nat → Nat → Option (Nat × Nat)
  | 0, _, _ => none
  | n + 1, i, k => if live (ts.getD (i % ts.length) 0) then some (i % ts.length, k) else nextThread live ts n (i + 1) (k + 1)

/-- SPREADER_DISPATCH (R261, R262): the next packet of a group takes a sequence number and goes to the next thread in rotation; the spreader
waits for a thread whose queue is full, and a packet for the other half is dropped in split mode. DEDUCED (log 69). -/
def State.spreadOne (g : Nat) (s : State) : State :=
  let x := s.spread g
  match x.waitq, nextThread s.threadLive x.threads x.threads.length x.rot 0 with
  | p :: ps, some (i, k) =>
    let t := x.threads.getD i 0
    let next := { x with waitq := ps, rot := (i + 1) % x.threads.length }
    if s.apart && halfOfThread t != p.half then
      ((s.modSpread g (fun _ => next)).bumpBy 3 x.home (1026 + 8 * g) k).splitDrop p
    else if 8 ≤ (s.thread t).queue.length then s
    else
      let s := (s.modSpread g (fun _ => { next with next := x.next + 1, out := x.out + 1 })).bumpBy 3 x.home (1026 + 8 * g) k
      (s.bump 3 x.home (1024 + 8 * g)).modThread t (fun th => { th with
        queue := th.queue ++ [{ pkt := { p with group := some (g, x.next) }, origin := 0, srcId := g }] })
  | _, _ => s

/-- SPREADER_DISPATCH (R261). -/
def execSpreaderDispatch (group : Fin 1024) (s : State) : Outcome := done (s.spreadOne group)

end Sys2Proof.Machine
end

