-- ==== Sys2Proof/Machine/Offload.lean ====
section
/-! DEFINITION. Offload threads: registers, memory, events, faults, channels' leases, and the retirement of a core (R377 to R399, R404,
R405, R412 to R418). -/

namespace Sys2Proof.Machine

open Sys2Proof

/-! ## Registers and completion -/

/-- A general register; x0 reads zero. -/
def Thread.reg (t : Thread) (r : Nat) : BitVec 64 := t.regs.getD r 0
/-- A write to a general register; x0 discards it. -/
def Thread.setReg (r : Nat) (v : BitVec 64) (t : Thread) : Thread := if r = 0 then t else { t with regs := Tab.set r v t.regs }

/-- An instruction of `n` bytes completes: rd is written, the PC moves past it and instret advances. -/
def State.complete (t rd : Nat) (v : BitVec 64) (n : Nat) (s : State) : State :=
  s.modThread t (fun th => { th.setReg rd v with pc := th.pc + BitVec.ofNat 64 n, instret := th.instret + 1 })

/-- A status result: −code (R400, R402). -/
def failCode (c : Nat) : BitVec 64 := 0 - BitVec.ofNat 64 c

/-- An Xlys instruction completes with a value, or with a status code. -/
def State.xdone (t rd : Nat) (v : BitVec 64) (s : State) : State := s.complete t rd v 4
def State.xfail (t rd code : Nat) (s : State) : State := s.complete t rd (failCode code) 4

/-- The thread issues: RUNNING on a core in service, with a slot, and not in a retry (R384, R413). -/
def State.issues (s : State) (t : Nat) : Bool :=
  (s.thread t).state == .running && (s.thread t).retry.isNone && s.slotsOf t != 0

/-! ## Events (R396, R397) -/

/-- A channel whose reader is the thread holds a committed message. -/
def State.chanRx (s : State) (t : Nat) : Bool := s.off.chans.any (fun e => e.2.reader == t && !e.2.orphan && !e.2.msgs.isEmpty)

/-- The event bits that are pending: edges, and the levels EV_PKT and EV_CHAN_RX. -/
def State.pendingBits (s : State) (t : Nat) : BitVec 64 :=
  let th := s.thread t
  th.events ||| (if !th.queue.isEmpty && th.held.isNone then 2 else 0) ||| (if s.chanRx t then 4 else 0)

/-- Sets edge event bits of a thread. -/
def State.raise (t : Nat) (b : BitVec 64) (s : State) : State := s.modThread t (fun th => { th with events := th.events ||| b })

/-- The mask a WAIT uses: bit 63 always for thread 0 in RUN mode (R397). -/
def State.waitMask (s : State) (t : Nat) (m : BitVec 64) : BitVec 64 :=
  if t % 16 = 0 ∧ (s.core (coreOf t)).mode = 2 then m ||| 0x8000000000000000 else m

/-- WAIT or POLL returns the pending bits of its mask, and clears the edges in them. -/
def State.takeEvents (t rd : Nat) (bits : BitVec 64) (s : State) : State :=
  (s.modThread t (fun th => { th with events := th.events &&& ~~~bits })).xdone t rd bits

/-! ## Events posted to hosts (R420) -/

/-- A core's event goes to its owner's function EQ, or without an ACTIVE owner to every ACTIVE INFRA PF. -/
def State.postCore (c code : Nat) (data : Bytes) (s : State) : State :=
  match (s.core c).owner with
  | some fid => if (s.fn fid).state == .active then s.postBit fid .fn code c data else s.postInfra code c data
  | none => s.postInfra code c data

/-! ## Channels' leases (R391, R412, R413, R416) -/

/-- The home half of a channel: its reader's. -/
def Chan.home (c : Chan) : Nat := halfOfThread c.reader
/-- Messages committed and in assembly. -/
def Chan.used (c : Chan) : Nat := c.msgs.length + (if c.holder.isSome then 1 else 0)

/-- A thread without the lease begins a message (R412, R413): it takes the lease with word 0, or finds no room. -/
def State.beginMsg (ch t rd : Nat) (w : BitVec 64) (c : Chan) (s : State) : State :=
  if 16 ≤ c.used then
    (s.setChan ch { c with full := if c.full.contains t then c.full else c.full ++ [t] }).xfail t rd 2
  else
    ((s.setChan ch { c with holder := some t, asm := [w] }).modThread t (fun th => { th with lease := some ch })).xdone t rd 0

/-- A lease has come free: the writer whose retry began first takes it; one that finds no room returns CH_FULL and the next is asked (R413).
DEDUCED (log 68). -/
def State.passLease (ch : Nat) : Nat → State → State
  | 0, s => s
  | n + 1, s =>
    match s.chan ch with
    | none => s
    | some c =>
      match c.holder, c.retry with
      | none, t :: ts =>
        match (s.thread t).retry with
        | none => (s.setChan ch { c with retry := ts }).passLease ch n
        | some (_, w, rd) =>
          ((s.modThread t (fun th => { th with retry := none })).beginMsg ch t rd w { c with retry := ts }).passLease ch n
      | _, _ => s

/-- A partial message is discarded and its lease released; CH_ABANDONED advances (R416). -/
def State.dropPartial (ch : Nat) (s : State) : State :=
  match s.chan ch with
  | none => s
  | some c =>
    match c.holder with
    | none => s
    | some t =>
      let s := (s.setChan ch { c with holder := none, asm := [] }).modThread t (fun th => { th with lease := none })
      (s.bump 3 c.home 201).passLease ch 2048

/-- A CHPUT retry is abandoned before it takes effect (R390). -/
def State.dropRetry (t : Nat) (s : State) : State :=
  match (s.thread t).retry with
  | none => s
  | some (ch, _, _) =>
    let s := s.modThread t (fun th => { th with retry := none })
    match s.chan ch with
    | none => s
    | some c => s.setChan ch { c with retry := c.retry.filter (· != t) }

/-- A flag for the thread's next CHPUT to a channel (R416). DEDUCED (log 68). -/
def State.flagThread (t ch code : Nat) (s : State) : State := s.modThread t (fun th => { th with flags := Tab.set ch code th.flags })

/-- A channel's reader is LOST: messages and any partial are discarded and counted, its holder is flagged (R416). -/
def State.orphanChan (ch : Nat) (s : State) : State :=
  match s.chan ch with
  | none => s
  | some c =>
    let n := c.msgs.length + (if c.holder.isSome then 1 else 0)
    let s := match c.holder with
      | none => s
      | some t => (s.modThread t (fun th => { th with lease := none })).flagThread t ch 5
    let s := s.each (fun t s => (s.modThread t (fun th => { th with retry := none })).xfail t
      (match (s.thread t).retry with
        | some r => r.2.2
        | none => 0) 5) c.retry
    (s.setChan ch { c with orphan := true, msgs := [], asm := [], holder := none, retry := [], full := [] }).bumpBy 3 c.home 202 n

/-! ## Leaving the running states (R263, R391) -/

/-- A packet of a thread is discarded and counted: the sequence number of one that came from a spread group is released in REORDER_THREAD_LOST of the
group; any other advances VERDICT_DROP of the half that buffers it (R30, R263, R391). DESIGN CHOICE (log 123). -/
def State.loseThPkt (p : ThPkt) (s : State) : State :=
  match p.pkt.group with
  | some (g, n) => ((s.bump 3 (s.spread g).home (1029 + 8 * g)).toReorder g n .discard).dropPkt p.pkt
  | none => s.verdictDrop p.pkt

/-- What entering STOPPED, FAULTED or LOST discards (R391). -/
def State.quitThread (t : Nat) (st : ThState) (s : State) : State :=
  let th := s.thread t
  let s := s.dropRetry t
  let s := s.modThread t (fun th => { th with state := st, queue := [], held := none, lookups := [], timer := none })
  let s := s.each State.loseThPkt (th.held.toList ++ th.queue)
  let s := match th.lease with
    | none => s
    | some ch => s.dropPartial ch
  (s.feedThread t).coreTidy (coreOf t)

/-- A thread starts at a PC with its registers, trap CSRs, event bits and timer cleared (R379, R390). -/
def State.startThread (t : Nat) (pc : BitVec 64) (s : State) : State :=
  let th := s.thread t
  (s.modThread t (fun _ => { ({} : Thread) with state := .running, pc := pc, queue := th.queue, held := th.held, coming := th.coming })).coreTidy (coreOf t)

/-! ## Faults (R392 to R395, R420) -/

/-- A fault of a thread: in RUN mode, or with mtvec 0, it is parked; otherwise it traps to mtvec. -/
def State.threadFault (t cause : Nat) (tval : BitVec 64) (s : State) : State :=
  let th := s.thread t
  let c := coreOf t
  let s := (s.modThread t (fun th => { th with mepc := th.pc, mcause := BitVec.ofNat 64 cause, mtval := tval })).bump 3 (halfOfThread t) 192
  if (s.core c).mode = 2 ∨ th.mtvec = 0 then
    let s := s.quitThread t .faulted
    if t % 16 = 0 then s.postCore c 0x0601 (toLe 1 cause ++ List.replicate 7 0 ++ toLe 8 th.pc.toNat)
    else s.raise (16 * c) 0x4000000000000000
  else (s.modThread t (fun th => { th with state := .running, pc := th.mtvec })).coreTidy c

/-- A fault whose mtval the manual leaves open: a free value. DEDUCED (log 66). -/
def State.freeFault (t cause : Nat) (s : State) : State := let d := s.draw; d.2.threadFault t cause d.1

/-- A fault whose mtval is zero or a value, as RISC-V allows: a free choice between them. -/
def State.choiceFault (t cause : Nat) (v : BitVec 64) (s : State) : State :=
  let d := s.draw
  d.2.threadFault t cause (if d.1.getLsbD 0 then v else 0)

/-! ## Retirement of a core (R417, R418) -/

/-- A core is retired. -/
def State.retireCore (c : Nat) (s : State) : State :=
  let ts := threadsOf c
  let lost := ts.foldl (fun a t => a + (if (s.thread t).state == .stopped then 0 else 2 ^ (t % 16))) 0
  let mode := (s.core c).mode
  let s := s.retireRes (resId 7 c)
  let s := { s with off := { s.off with bind := s.off.bind.filter (fun e => coreOf e.2 != c) } }
  let s := s.each (fun t s => s.quitThread t .lost) ts
  let s := s.each State.orphanChan (s.off.chans.keysWhere (fun _ x => coreOf x.reader == c))
  let data := toLe 2 lost ++ toLe 1 mode
  let s := s.postInfra 0x0603 c data
  let s := match (s.core c).owner with
    | some fid => if (s.fn fid).state == FnState.active && !s.infraPfs.contains fid then s.postBit fid .fn 0x0603 c data else s
    | none => s
  (s.postRetired (resId 7 c)).ledgerAdd 0x0034 c (toLe 2 lost)

/-- A fault of a weight charged to a core; a permanent one retires it (R417, R519). -/
def State.chargeCore (c w : Nat) (s : State) : State :=
  let r := s.charge (resId 7 c) w
  if r.2 then r.1.retireCore c else r.1

/-! ## Memory (R380, R404, R405) -/

/-- The regions of the address map. -/
inductive Region where
  | scratch | priv | shared | window
  deriving DecidableEq, Repr

/-- The region of an address (R380). -/
def regionOf (a : Nat) : Option Region :=
  if a < 0x40000 then some .scratch
  else if 0x10000000 ≤ a ∧ a < 0x14000000 then some .priv
  else if 0x20000000 ≤ a ∧ a < 0x30000000 then some .shared
  else if 0x40000000 ≤ a ∧ a < 0x40004000 then some .window
  else none

/-- Packet metadata (R405). -/
def ThPkt.metadata (p : ThPkt) : Bytes :=
  let seq := match p.pkt.group with
    | some (_, n) => if p.origin = 0 then n.toNat else 0
    | none => 0
  toLe 2 p.pkt.frame.length ++ toLe 1 p.origin ++ [0] ++ toLe 2 p.srcId ++ [0, 0] ++ toLe 4 seq ++
  toLe 1 (p.pkt.cls + 8 * p.pkt.colour) ++ [0, 0, 0] ++ toLe 4 p.pkt.metaw.toNat ++ [0, 0, 0, 0] ++
  toLe 8 p.pkt.entered.toNat ++ List.replicate 32 0

/-- One byte of the packet window (R404): zero without a packet, beyond FRAME_LEN in the frame area too; a byte that belongs to no part of
it is free. -/
def State.windowByte (s : State) (t off : Nat) : Byte :=
  match (s.thread t).held with
  | none => 0
  | some p =>
    if off < 256 then p.pkt.hv.getD off 0
    else if off < 320 then p.metadata.getD (off - 256) 0
    else if 1024 ≤ off ∧ off < 10620 then p.pkt.frame.getD (off - 1024) 0
    else Config.freeByte (s.free * 512 + 511) off

/-- One byte as a thread reads it. DESIGN CHOICE (log 2). -/
def State.memByte (s : State) (t a : Nat) : Byte :=
  let c := coreOf t
  match regionOf a with
  | none => 0
  | some .scratch => Mem.get 0 (s.core c).scratch a
  | some .priv => ((s.core c).mem.find a).getD (Config.freeByte ((s.core c).seed * 512 + c) a)
  | some .shared =>
    if halfOfThread t = 0 then (Tab.find a s.off.sharedW).getD (Config.freeByte (s.off.seedW * 512 + 128) a)
    else (Tab.find a s.off.sharedE).getD (Config.freeByte (s.off.seedE * 512 + 129) a)
  | some .window => s.windowByte t (a - 0x40000000)

/-- The little-endian number of `n` bytes at an address; none on an access fault. Aligned accesses lie within one region. -/
def State.memRead (s : State) (t a n : Nat) : Option Nat :=
  match regionOf a with
  | none => none
  | some _ => some (leNat ((List.range n).map (fun i => s.memByte t (a + i))))

/-- One byte of the held packet's frame stored: within FRAME_LEN it changes the frame, beyond it is kept for PKTPUT. -/
def ThPkt.store (off : Nat) (b : Byte) (p : ThPkt) : ThPkt :=
  if off < p.pkt.frame.length then { p with pkt := { p.pkt with frame := p.pkt.frame.set off b } } else { p with more := Tab.set off b p.more }

/-- A byte of scratch or private memory is about to be stored to: instruction fetch may go on seeing what it held (R381). DESIGN CHOICE (log
134). -/
def State.keepStale (t a : Nat) (s : State) : State :=
  let b := s.memByte t a
  s.modCore (coreOf t) (fun x => { x with stale := x.stale.upd a [] (fun o => if o.contains b then o else o ++ [b]) })

/-- A byte as instruction fetch sees it: what memory holds, or any value it held since the core last executed FENCE.I; which is free (R381). DESIGN
CHOICE (log 134). -/
def State.fetchByte (s : State) (t a : Nat) : Byte :=
  match (s.core (coreOf t)).stale.getD a [] with
  | [] => s.memByte t a
  | o => (o ++ [s.memByte t a]).getD ((Config.freeByte (s.free * 512 + 510) a).toNat % (o.length + 1)) 0

/-- The 16 bits that instruction fetch sees at an address. -/
def State.fetch16 (s : State) (t a : Nat) : Nat := leNat [s.fetchByte t a, s.fetchByte t (a + 1)]

/-- FENCE.I, or a program loaded into the core: fetching sees what memory holds (R381, R383). -/
def State.fenceI (c : Nat) (s : State) : State := s.modCore c (fun x => { x with stale := [] })

/-- Stores one byte; the address is known to be writable. -/
def State.putByte (t a : Nat) (b : Byte) (s : State) : State :=
  let c := coreOf t
  match regionOf a with
  | none => s
  | some .scratch => (s.keepStale t a).modCore c (fun x => { x with scratch := Mem.put 0 x.scratch a b })
  | some .priv => (s.keepStale t a).modCore c (fun x => { x with mem := Tab.set a b x.mem })
  | some .shared =>
    if halfOfThread t = 0 then { s with off := { s.off with sharedW := Tab.set a b s.off.sharedW } }
    else { s with off := { s.off with sharedE := Tab.set a b s.off.sharedE } }
  | some .window => s.modThread t (fun th => { th with held := th.held.map (ThPkt.store (a - 0x40000400) b) })

/-- A store of `n` bytes may be made (R380, R404): in the window only to the frame area and only while a packet is held. -/
def State.mayStore (s : State) (t a n : Nat) : Bool :=
  match regionOf a with
  | none => false
  | some .window => (s.thread t).held.isSome && decide (0x40000400 ≤ a) && decide (a + n ≤ 0x4000297C)
  | some _ => true

/-- Two threads see the same memory at an address: their core's scratch and private memory, their half's shared memory. -/
def sameMemory (t u a : Nat) : Bool :=
  match regionOf a with
  | some .shared => halfOfThread t == halfOfThread u
  | some .window => t == u
  | _ => coreOf t == coreOf u

/-- Other threads' reservations on the bytes stored to end. DEDUCED (log 66). -/
def State.breakResv (t a n : Nat) (s : State) : State :=
  { s with off := { s.off with threads := s.off.threads.mapV (fun u th =>
    match th.resv with
    | none => th
    | some (b, m) => if u != t && sameMemory t u a && decide (a < b + m) && decide (b < a + n) then { th with resv := none } else th) } }

/-- The thread's own reservation on bytes that the device writes for it ends. -/
def State.ownResv (t a n : Nat) (s : State) : State :=
  s.modThread t (fun th => match th.resv with
    | none => th
    | some (b, m) => if decide (a < b + m) && decide (b < a + n) then { th with resv := none } else th)

/-- Stores bytes at an address that may be written. -/
def State.memWrite (t a : Nat) (bs : Bytes) (s : State) : State :=
  ((List.range bs.length).foldl (fun s i => s.putByte t (a + i) (bs.getD i 0)) s).breakResv t a bs.length

end Sys2Proof.Machine
end

