-- ==== Sys2Proof/Machine/Xlys.lean ====
section
/-! DEFINITION. The Xlys instructions (R396 to R416): each as one operation of the thread that executes it, the events that reach threads,
and the stall sentinel. -/

namespace Sys2Proof.Machine

open Sys2Proof

/-! ## Fault causes (R395) -/

def xlysPriv := 24
def xlysOperand := 25

/-- An operand fault (R401). -/
def State.badOperand (t : Nat) (s : State) : State := s.freeFault t xlysOperand

/-! ## Events (R397, R398) -/

/-- LYS.WAIT (R397). -/
def State.lysWait (t rd : Nat) (m : BitVec 64) (s : State) : State :=
  let b := s.pendingBits t &&& s.waitMask t m
  if b = 0 then s.modThread t (fun th => { th with state := .waiting, mask := m, waitRd := rd }) else s.takeEvents t rd b

/-- LYS.POLL (R397). -/
def State.lysPoll (t rd : Nat) (m : BitVec 64) (s : State) : State := s.takeEvents t rd (s.pendingBits t &&& s.waitMask t m)

/-- LYS.SIGNAL (R398): the bits are on their way to the target. -/
def State.lysSignal (t rd : Nat) (target bits : BitVec 64) (s : State) : State :=
  let u := target.toNat
  if 2047 < u then s.badOperand t
  else if s.apart && halfOfThread u != halfOfThread t then (s.bump 3 (halfOfThread t) 204).xfail t rd 14
  else (s.modThread u (fun th => { th with coming := th.coming ||| (bits &&& 0xFFFF) <<< 16 })).xdone t rd 0

/-- LYS.TIMER (R398). DEDUCED (log 67). -/
def State.lysTimer (t : Nat) (ns : BitVec 64) (s : State) : State :=
  if 0xFFFFFFFF < ns.toNat then s.badOperand t
  else (s.modThread t (fun th => { th with timer := if ns = 0 then none else some (s.clock.dev + ns.toNat) })).xdone t 0 0

/-- LYS.EVCLR (R396). -/
def State.lysEvclr (t : Nat) (bits : BitVec 64) (s : State) : State :=
  (s.modThread t (fun th => { th with events := th.events &&& ~~~bits })).xdone t 0 0

/-! ## Channels (R411 to R416) -/

/-- The channel is out of the thread's reach in split mode (R416). -/
def State.chanCut (s : State) (t : Nat) (c : Chan) : Bool := s.apart && c.home != halfOfThread t

/-- A word joins the holder's message; the eighth commits it and frees the lease (R412). -/
def State.addWord (ch t rd : Nat) (w : BitVec 64) (c : Chan) (s : State) : State :=
  if c.asm.length < 7 then (s.setChan ch { c with asm := c.asm ++ [w] }).xdone t rd 0
  else
    let m := (c.asm ++ [w]).flatMap (fun x => toLe 8 x.toNat)
    let s := s.setChan ch { c with msgs := c.msgs ++ [m], asm := [], holder := none }
    let s := (s.modThread t (fun th => { th with lease := none })).bump 3 c.home 199
    (s.xdone t rd 1).passLease ch 2048

/-- LYS.CHPUT (R412, R413, R416). DEDUCED (log 68). -/
def State.lysChput (t rd : Nat) (chan w : BitVec 64) (s : State) : State :=
  let ch := chan.toNat
  let th := s.thread t
  if 4095 < ch then s.badOperand t
  else
    match Tab.find ch th.flags with
    | some code => (s.modThread t (fun th => { th with flags := Tab.del ch th.flags })).xfail t rd code
    | none =>
      if th.lease.isSome && th.lease != some ch then s.xfail t rd 4
      else
        match s.chan ch with
        | none => s.xfail t rd 5
        | some c =>
          if c.orphan then s.xfail t rd 5
          else if s.chanCut t c then s.xfail t rd 6
          else
            match c.holder with
            | none => s.beginMsg ch t rd w c
            | some u =>
              if u = t then s.addWord ch t rd w c
              else (s.setChan ch { c with retry := c.retry ++ [t] }).modThread t (fun th => { th with retry := some (ch, w, rd) })

/-- A memory address that an Xlys instruction may write `n` bytes to: aligned, and within scratch, private or shared memory. -/
def xlysTarget (a n align : Nat) : Bool :=
  a % align == 0 && (match regionOf a with
    | none => false
    | some .window => false
    | some r => regionOf (a + n - 1) == some r)

/-- LYS.CHRECV (R414). `hw`: an uncorrectable error its write of the message meets; the access ends with its fault and the message stays
(R380). DEDUCED (log 127). -/
def State.lysChrecv (t rd : Nat) (chan addr : BitVec 64) (hw : Bool) (s : State) : State :=
  let ch := chan.toNat
  if 4095 < ch || !xlysTarget addr.toNat 64 64 then s.badOperand t
  else
    match s.chan ch with
    | none => s.xfail t rd 5
    | some c =>
      if c.orphan then s.xfail t rd 5
      else if s.chanCut t c then s.xfail t rd 6
      else if c.reader ≠ t then s.xfail t rd 8
      else
        match c.msgs with
        | [] => s.xfail t rd 7
        | m :: ms =>
          if hw then s.threadFault t 7 addr else
          let s := (s.setChan ch { c with msgs := ms, full := [] }).memWrite t addr.toNat m
          (s.each (fun u => State.raise u 8) c.full).xdone t rd (BitVec.ofNat 64 ms.length)

/-- The status word of a channel (R415). -/
def State.chanStatus (s : State) (c : Chan) : Nat :=
  c.msgs.length + (match c.holder with
    | none => 0
    | some u => 32 + u * 64 + (if (s.thread u).state == .halted then 131072 else 0)) +
  c.reader * 262144 + b2n c.orphan * 536870912 + 1073741824

/-- LYS.CHSTAT (R415). DEDUCED (log 68). -/
def State.lysChstat (t rd : Nat) (chan : BitVec 64) (s : State) : State :=
  if 4095 < chan.toNat then s.badOperand t
  else
    match s.chan chan.toNat with
    | none => s.xdone t rd 0
    | some c => if s.chanCut t c then s.xfail t rd 6 else s.xdone t rd (BitVec.ofNat 64 (s.chanStatus c))

/-! ## Lookups (R409, R410) -/

/-- LYS.LOOKUP (R409). `hw`: an uncorrectable error its read of the request meets (R380). DEDUCED (log 127). -/
def State.lysLookup (t rd : Nat) (req res : BitVec 64) (hw : Bool) (s : State) : State :=
  let a := req.toNat
  let h := halfOfThread t
  if a % 16 ≠ 0 || (regionOf a).isNone || regionOf (a + 47) != regionOf a || !xlysTarget res.toNat 40 8 then s.badOperand t
  else if hw then s.threadFault t 5 req
  else
    let b := toLe 48 ((s.memRead t a 48).getD 0)
    if le b 0 1 % 2 = 0 ∧ halfOfPipe (le b 1 1 % 16) ≠ h then s.badOperand t
    else if 4 ≤ (s.thread t).lookups.length then s.xfail t rd 13
    else
      ((s.modThread t (fun th => { th with lookups := th.lookups ++ [{ req := b, addr := res.toNat }] })).bump 3 h 203).xdone t rd 0

/-- A lookup of a thread ends (R409, R410): `reset` when a reset of the table ended it. DEDUCED (log 67). -/
def State.endLookup (t i : Nat) (reset : Bool) (s : State) : State :=
  match (s.thread t).lookups[i]? with
  | none => s
  | some l =>
    let r := if reset then toLe 1 8 ++ List.replicate 39 0
      else s.lookupBytes (le l.req 0 1 % 2) (le l.req 1 1 % 16) (halfOfThread t) (slice l.req 16 32)
    let r := putBytes r 4 (slice l.req 4 4)
    let s := s.modThread t (fun th => { th with lookups := th.lookups.eraseIdx i, events := th.events ||| 16 })
    ((s.memWrite t l.addr r).ownResv t l.addr 40).coreTidy (coreOf t)

/-! ## Packets (R403 to R407) -/

/-- LYS.PKTGET (R406). -/
def State.lysPktget (t rd : Nat) (s : State) : State :=
  let th := s.thread t
  if th.held.isSome then s.xfail t rd 10
  else
    match th.queue with
    | [] => s.xfail t rd 9
    | p :: ps =>
      let s := (s.modThread t (fun th => { th with queue := ps, held := some p })).bump 3 (halfOfThread t) 194
      let v := p.pkt.frame.length + p.origin * 16384 + p.srcId * 65536
      (s.xdone t rd (BitVec.ofNat 64 v)).feedThread t

/-- LYS.PKTNEW (R406). -/
def State.lysPktnew (t rd : Nat) (s : State) : State :=
  let h := halfOfThread t
  if (s.thread t).held.isSome then s.xfail t rd 10
  else if 6291456 < s.offloadUse h + 9600 then s.xfail t rd 12
  else
    let p : Pkt := { frame := [], hv := List.replicate 256 0, source := 2, half := h }
    ((s.modThread t (fun th => { th with held := some { pkt := p, origin := 2 } })).bump 3 h 197).xdone t rd 0

/-- The frame at its new length: bytes stored beyond FRAME_LEN, and free bytes where none was stored (R404, R407). -/
def ThPkt.resized (p : ThPkt) (n draw : Nat) : Bytes :=
  if n ≤ p.pkt.frame.length then p.pkt.frame.take n
  else p.pkt.frame ++ (List.range (n - p.pkt.frame.length)).map (fun i =>
    (Tab.find (p.pkt.frame.length + i) p.more).getD (Config.freeBytes draw (p.pkt.frame.length + i)))

/-- The operands of PKTPUT that raise XLYS_OPERAND (R407). DEDUCED (log 67). -/
def putBad (d n : Nat) : Bool :=
  d % 8 == 3 || d % 8 == 7 || bits d 49 15 != 0 || bits d 46 2 == 3 || (n != 0 && (decide (n < 14) || decide (9596 < n)))

/-- A verdict on a packet that carries a sequence number goes through reorder; any other takes effect at once (R263, R407). DEDUCED (log
54). -/
def State.verdict (p : Pkt) (v : Verdict) (s : State) : State :=
  match p.group, v with
  | some (g, n), v => s.toReorder g n v
  | none, .forward p d => s.forward p d
  | none, .discard => s

/-- LYS.PKTPUT (R407). DEDUCED (log 67). -/
def State.lysPktput (t rd : Nat) (dest len : BitVec 64) (s : State) : State :=
  let d := dest.toNat
  let n := len.toNat
  if putBad d n then s.badOperand t
  else
    match (s.thread t).held with
    | none => s.xfail t rd 11
    | some x =>
      if x.origin = 2 ∧ n = 0 ∧ vKind d ≠ 0 then s.badOperand t
      else
        let h := halfOfThread t
        let s := (s.modThread t (fun th => { th with held := none })).xdone t rd 0
        let s := s.feedThread t
        if vKind d = 0 then ((s.bump 3 h 196).verdict x.pkt .discard).dropPkt x.pkt
        else
          let s := s.bump 3 h 195
          let f := if n = 0 then x.pkt.frame else x.resized n s.free
          let s := { s with free := s.free + 1 }
          let k := x.pkt.ask
          let r := reparse (k.csumL3 && !k.inner) (k.csumL3 && k.inner) (if x.origin = 2 then Hv.put 3 1 2 x.pkt.hv else x.pkt.hv) f
          let cls := (vClass d).getD x.pkt.cls
          let p := { x.pkt with
            frame := f, hv := r.1, touched := true, cls := cls, colour := (vColour d).getD x.pkt.colour
            queue := if x.pkt.queue = x.pkt.cls then cls else x.pkt.queue }
          if r.2.malformed then (s.verdict p .discard).verdictDrop p else s.verdict p (.forward p d)

/-! ## The supervisor's instructions (R390, R408) -/

/-- LYS.TSTART (R390, R408). -/
def State.lysTstart (t rd : Nat) (thread pc : BitVec 64) (s : State) : State :=
  if t % 16 ≠ 0 then s.freeFault t xlysPriv
  else if 15 < thread.toNat ∨ thread = 0 ∨ pc.toNat % 2 = 1 ∨ regionOf pc.toNat = none then s.badOperand t
  else
    let u := t + thread.toNat
    let st := (s.thread u).state
    if st == .stopped || st == .faulted then (s.startThread u pc).xdone t rd 0 else s.xfail t rd 15

/-- LYS.TSTOP (R390, R408). -/
def State.lysTstop (t rd : Nat) (thread : BitVec 64) (s : State) : State :=
  if t % 16 ≠ 0 then s.freeFault t xlysPriv
  else if 15 < thread.toNat ∨ thread = 0 then s.badOperand t
  else
    let u := t + thread.toNat
    if (s.thread u).state == .lost then s.xfail t rd 15 else (s.quitThread u .stopped).xdone t rd 0

/-- The value of a thread state (R389). -/
def ThState.code : ThState → Nat
  | .stopped => 0 | .running => 1 | .waiting => 2 | .faulted => 3 | .halted => 4 | .lost => 5

/-- The mask of a core's threads in a state. -/
def State.stateMask (s : State) (c : Nat) (st : ThState) : Nat :=
  (threadsOf c).foldl (fun a t => a + (if (s.thread t).state == st then 2 ^ (t % 16) else 0)) 0

/-- LYS.TREAD (R408). -/
def State.lysTread (t rd : Nat) (thread sel : BitVec 64) (s : State) : State :=
  if t % 16 ≠ 0 then s.freeFault t xlysPriv
  else
    let u := t + thread.toNat
    let n := sel.toNat
    if 15 < thread.toNat ∨ 63 < n ∨ (5 < n ∧ n < 32) then s.badOperand t
    else
      let th := s.thread u
      match n with
      | 0 => s.xdone t rd (BitVec.ofNat 64 (th.state.code + s.slotsOf u * 256))
      | 1 => s.xdone t rd th.pc
      | 2 => s.xdone t rd th.mcause
      | 3 => s.xdone t rd th.mtval
      | 4 => s.xdone t rd (BitVec.ofNat 64 (s.stateMask (coreOf t) .faulted))
      | 5 => s.xdone t rd (BitVec.ofNat 64 (s.stateMask (coreOf t) .halted))
      | _ =>
        if th.state == .stopped || th.state == .faulted || th.state == .halted then s.xdone t rd (th.reg (n - 32)) else s.xfail t rd 15

/-- LYS.BYREBIND (R408). -/
def State.lysByrebind (t rd : Nat) (queue thread : BitVec 64) (s : State) : State :=
  let h := halfOfThread t
  let q := queue.toNat
  let off := thread == 0xFFFFFFFFFFFFFFFF
  if t % 16 ≠ 0 then s.freeFault t xlysPriv
  else if q < 4 || 31 < q || (!off && (2047 < thread.toNat || halfOfThread thread.toNat != h)) then s.badOperand t
  else
    let k := h * 32 + q
    let old := Tab.find k s.off.bind
    let s := { s with off := { s.off with bind := if off then Tab.del k s.off.bind else Tab.set k thread.toNat s.off.bind } }
    let s := s.xdone t rd (match old with
      | none => 0xFFFFFFFFFFFFFFFF
      | some u => BitVec.ofNat 64 u)
    let s := match old with
      | none => s
      | some u => s.coreTidy (coreOf u)
    (s.byrePump k 1024).coreTidy (if off then coreOf t else coreOf thread.toNat)

/-! ## Execution of an Xlys instruction as a row -/

/-- A thread that issues executes an operation (R384). -/
def State.onIssue (t : Nat) (f : State → State) (s : State) : State := if s.issues t then (f s).coreTidy (coreOf t) else s

/-- An uncorrectable error that ended a thread's access is charged to its core where it lies in its scratch or caches, and not where the access was to
shared memory or the packet window (R417, R519). -/
def State.chargeAccess (t : Nat) (s : State) : State :=
  match regionOf (s.thread t).mtval.toNat with
  | some .shared => s
  | some .window => s
  | _ => s.chargeCore (coreOf t) 4

/-- An instruction that meets a memory or register-file error (R380, R395, R417): a corrected error is charged and is invisible to the
thread; an uncorrectable one is charged and ends the access, which `f true` says; a register-file parity error is HW_ERROR. -/
def State.onIssueHw (t : Nat) (hw : HwError) (f : Bool → State → State) (s : State) : State :=
  let c := coreOf t
  match hw with
  | .none => s.onIssue t (f false)
  | .corrected => if s.issues t then ((s.bump 3 (halfOfThread t) 205).chargeCore c 1).onIssue t (f false) else s
  | .uncorrectable => s.onIssue t (fun s => (f true s).chargeAccess t)
  | .memory r bad => s.onIssue t (fun s => f bad (s.memFault r.toNat bad))
  | .parity => s.onIssue t (fun s => (s.threadFault t 27 0).chargeCore c 4)

/-- The value of a register operand of a thread. -/
def State.rv (s : State) (t : Nat) (r : RegNo) : BitVec 64 := (s.thread t).reg r.val

/-- LYS_WAIT (R397). -/
def execLysWait (t : ThreadId) (rd rs1 : RegNo) (s : State) : Outcome := done (s.onIssue t (State.lysWait t rd (s.rv t rs1)))
/-- LYS_POLL (R397). -/
def execLysPoll (t : ThreadId) (rd rs1 : RegNo) (s : State) : Outcome := done (s.onIssue t (State.lysPoll t rd (s.rv t rs1)))
/-- LYS_SIGNAL (R398). -/
def execLysSignal (t : ThreadId) (rd rs1 rs2 : RegNo) (s : State) : Outcome :=
  done (s.onIssue t (State.lysSignal t rd (s.rv t rs1) (s.rv t rs2)))
/-- LYS_TIMER (R398). -/
def execLysTimer (t : ThreadId) (rs1 : RegNo) (s : State) : Outcome := done (s.onIssue t (State.lysTimer t (s.rv t rs1)))
/-- LYS_EVCLR (R396). -/
def execLysEvclr (t : ThreadId) (rs1 : RegNo) (s : State) : Outcome := done (s.onIssue t (State.lysEvclr t (s.rv t rs1)))
/-- LYS_CHPUT (R412). -/
def execLysChput (t : ThreadId) (rd rs1 rs2 : RegNo) (s : State) : Outcome :=
  done (s.onIssue t (State.lysChput t rd (s.rv t rs1) (s.rv t rs2)))
/-- LYS_CHRECV (R414). -/
def execLysChrecv (t : ThreadId) (rd rs1 rs2 : RegNo) (s : State) (hw : HwError := .none) : Outcome :=
  done (s.onIssueHw t hw (State.lysChrecv t rd (s.rv t rs1) (s.rv t rs2)))
/-- LYS_CHSTAT (R415). -/
def execLysChstat (t : ThreadId) (rd rs1 : RegNo) (s : State) : Outcome := done (s.onIssue t (State.lysChstat t rd (s.rv t rs1)))
/-- LYS_LOOKUP (R409). -/
def execLysLookup (t : ThreadId) (rd rs1 rs2 : RegNo) (s : State) (hw : HwError := .none) : Outcome :=
  done (s.onIssueHw t hw (State.lysLookup t rd (s.rv t rs1) (s.rv t rs2)))
/-- LYS_PKTGET (R406). -/
def execLysPktget (t : ThreadId) (rd : RegNo) (s : State) : Outcome := done (s.onIssue t (State.lysPktget t rd))
/-- LYS_PKTPUT (R407). -/
def execLysPktput (t : ThreadId) (rd rs1 rs2 : RegNo) (s : State) : Outcome :=
  done (s.onIssue t (State.lysPktput t rd (s.rv t rs1) (s.rv t rs2)))
/-- LYS_PKTNEW (R406). -/
def execLysPktnew (t : ThreadId) (rd : RegNo) (s : State) : Outcome := done (s.onIssue t (State.lysPktnew t rd))
/-- LYS_TSTART (R408). -/
def execLysTstart (t : ThreadId) (rd rs1 rs2 : RegNo) (s : State) : Outcome :=
  done (s.onIssue t (State.lysTstart t rd (s.rv t rs1) (s.rv t rs2)))
/-- LYS_TSTOP (R408). -/
def execLysTstop (t : ThreadId) (rd rs1 : RegNo) (s : State) : Outcome := done (s.onIssue t (State.lysTstop t rd (s.rv t rs1)))
/-- LYS_TREAD (R408). -/
def execLysTread (t : ThreadId) (rd rs1 rs2 : RegNo) (s : State) : Outcome :=
  done (s.onIssue t (State.lysTread t rd (s.rv t rs1) (s.rv t rs2)))
/-- LYS_BYREBIND (R408). -/
def execLysByrebind (t : ThreadId) (rd rs1 rs2 : RegNo) (s : State) : Outcome :=
  done (s.onIssue t (State.lysByrebind t rd (s.rv t rs1) (s.rv t rs2)))

/-! ## Events that reach threads (R397 to R399, R410, R413) -/

/-- THREAD_WAKE (R397): a WAITING thread with a slot and a masked event pending completes its WAIT. -/
def State.wake (t : Nat) (s : State) : State :=
  let th := s.thread t
  let b := s.pendingBits t &&& s.waitMask t th.mask
  if th.state == .waiting && s.slotsOf t != 0 && b != 0 then
    ((s.modThread t (fun th => { th with state := .running })).takeEvents t th.waitRd b).coreTidy (coreOf t)
  else s

/-- THREAD_WAKE (R397). -/
def execThreadWake (thread : ThreadId) (s : State) : Outcome := done (s.wake thread)

/-- SIGNAL_DELIVERY (R398): the bits of signals on their way to a thread are set, in any thread state. -/
def execSignalDelivery (thread : ThreadId) (s : State) : Outcome :=
  done (s.modThread thread (fun th => { th with events := th.events ||| th.coming, coming := 0 }))

/-- EV_TIMER (R398): the timer of a thread has expired by device time. -/
def execEvTimer (thread : ThreadId) (dt : Nat) (s : State) : Outcome :=
  let s := s.advance dt
  match (s.thread thread).timer with
  | none => done s
  | some e =>
    if s.clock.dev < e then done s
    else done ((s.modThread thread (fun th => { th with timer := none, events := th.events ||| 1 })).coreTidy (coreOf thread))

/-- LOOKUP_DONE (R410): the lookup in place `slot` of a thread completes. -/
def execLookupDone (thread : ThreadId) (slot : Nat) (s : State) : Outcome := done (s.endLookup thread slot false)

/-- CH_BUSY_TIMEOUT (R413): a retry of 4,096 steps ends with CH_BUSY. -/
def execChBusyTimeout (thread : ThreadId) (s : State) : Outcome :=
  match (s.thread thread).retry with
  | none => done s
  | some (_, _, rd) =>
    done ((((s.dropRetry thread).bump 3 (halfOfThread thread) 200).xfail thread rd 1).coreTidy (coreOf thread))

/-- STALL_SENTINEL (R399): the count of a quiet core reaches 65,536. DEDUCED (log 70). -/
def State.sentinel (c : Nat) (s : State) : State :=
  if !s.coreQuiet c || (s.core c).fired || s.isRetired 7 c then s
  else
    let s := (s.modCore c (fun x => { x with fired := true })).bump 3 (halfOfCore c) 193
    let t := 16 * c
    let th := s.thread t
    if th.state.off || s.slotsOf t == 0 then
      s.postCore c 0x0602 (toLe 1 th.state.code ++ toLe 1 (s.core c).mode)
    else if (s.core c).mode = 2 then s.raise t 0x8000000000000000
    else s.freeFault t 26

/-- STALL_SENTINEL (R399). -/
def execStallSentinel (core : CoreId) (s : State) : Outcome := done (s.sentinel core)

end Sys2Proof.Machine
end

