-- ==== Sys2Proof/Machine/Riscv.lean ====
section
/-! DEFINITION. The instruction set of the offload threads (R378, R379, R400): RV64IMAC with Zicsr, Zifencei, Zicntr, Zba, Zbb, Zbc and
Zbs, and the encoding of Xlys. -/

namespace Sys2Proof.Machine

open Sys2Proof

/-- A 64-bit value. -/
abbrev X := BitVec 64

/-! ## Bit manipulation and arithmetic -/

/-- Leading zeros of the low `n` bits. -/
def clzN (n : Nat) (a : X) : Nat := ((List.range n).takeWhile (fun i => !a.getLsbD (n - 1 - i))).length
/-- Trailing zeros of the low `n` bits. -/
def ctzN (n : Nat) (a : X) : Nat := ((List.range n).takeWhile (fun i => !a.getLsbD i)).length
/-- Set bits among the low `n`. -/
def popN (n : Nat) (a : X) : Nat := (List.range n).countP (fun i => a.getLsbD i)
/-- Each byte all ones where it is not zero. -/
def orcB (a : X) : X := BitVec.ofNat 64 (leNat ((toLe 8 a.toNat).map (fun b => if b = 0 then 0 else 255)))
/-- The bytes reversed. -/
def rev8 (a : X) : X := BitVec.ofNat 64 (beNat (toLe 8 a.toNat))
/-- The carry-less product, 128 bits. -/
def clmulFull (a b : X) : BitVec 128 :=
  (List.range 64).foldl (fun x i => if b.getLsbD i then x ^^^ ((a.setWidth 128) <<< i) else x) 0
/-- A 32-bit result, sign-extended. -/
def sx32 (a : X) : X := (a.setWidth 32).signExtend 64
/-- The low 32 bits, zero-extended. -/
def zx32 (a : X) : X := (a.setWidth 32).setWidth 64
def sdiv64 (a b : X) : X := if b = 0 then 0xFFFFFFFFFFFFFFFF else a.sdiv b
def srem64 (a b : X) : X := if b = 0 then a else a.srem b
def udiv64 (a b : X) : X := if b = 0 then 0xFFFFFFFFFFFFFFFF else a / b
def urem64 (a b : X) : X := if b = 0 then a else a % b
def sdiv32 (a b : BitVec 32) : BitVec 32 := if b = 0 then 0xFFFFFFFF else a.sdiv b
def srem32 (a b : BitVec 32) : BitVec 32 := if b = 0 then a else a.srem b
def udiv32 (a b : BitVec 32) : BitVec 32 := if b = 0 then 0xFFFFFFFF else a / b
def urem32 (a b : BitVec 32) : BitVec 32 := if b = 0 then a else a % b
/-- High halves of products; `sa` and `sb` say which operands are signed. -/
def mulHigh (sa sb : Bool) (a b : X) : X :=
  let w := fun (s : Bool) (x : X) => if s then x.signExtend 128 else x.setWidth 128
  ((w sa a * w sb b) >>> 64).setWidth 64
def bool64 (b : Bool) : X := if b then 1 else 0

/-- OP: register with register. -/
def aluOp (f7 f3 : Nat) (a b : X) : Option X :=
  let sh := b.toNat % 64
  match f7, f3 with
  | 0x00, 0 => some (a + b)
  | 0x00, 1 => some (a <<< sh)
  | 0x00, 2 => some (bool64 (a.slt b))
  | 0x00, 3 => some (bool64 (a.ult b))
  | 0x00, 4 => some (a ^^^ b)
  | 0x00, 5 => some (a >>> sh)
  | 0x00, 6 => some (a ||| b)
  | 0x00, 7 => some (a &&& b)
  | 0x20, 0 => some (a - b)
  | 0x20, 4 => some (~~~(a ^^^ b))
  | 0x20, 5 => some (a.sshiftRight sh)
  | 0x20, 6 => some (a ||| ~~~b)
  | 0x20, 7 => some (a &&& ~~~b)
  | 0x01, 0 => some (a * b)
  | 0x01, 1 => some (mulHigh true true a b)
  | 0x01, 2 => some (mulHigh true false a b)
  | 0x01, 3 => some (mulHigh false false a b)
  | 0x01, 4 => some (sdiv64 a b)
  | 0x01, 5 => some (udiv64 a b)
  | 0x01, 6 => some (srem64 a b)
  | 0x01, 7 => some (urem64 a b)
  | 0x10, 2 => some (a <<< 1 + b)
  | 0x10, 4 => some (a <<< 2 + b)
  | 0x10, 6 => some (a <<< 3 + b)
  | 0x05, 1 => some ((clmulFull a b).setWidth 64)
  | 0x05, 2 => some (((clmulFull a b) >>> 63).setWidth 64)
  | 0x05, 3 => some (((clmulFull a b) >>> 64).setWidth 64)
  | 0x05, 4 => some (if a.slt b then a else b)
  | 0x05, 5 => some (if a.ult b then a else b)
  | 0x05, 6 => some (if a.slt b then b else a)
  | 0x05, 7 => some (if a.ult b then b else a)
  | 0x30, 1 => some (a.rotateLeft sh)
  | 0x30, 5 => some (a.rotateRight sh)
  | 0x24, 1 => some (a &&& ~~~((1 : X) <<< sh))
  | 0x24, 5 => some ((a >>> sh) &&& 1)
  | 0x34, 1 => some (a ^^^ ((1 : X) <<< sh))
  | 0x14, 1 => some (a ||| ((1 : X) <<< sh))
  | _, _ => none

/-- OP-32: the word forms. `rs2` is the register field. -/
def aluOp32 (f7 f3 rs2 : Nat) (a b : X) : Option X :=
  let sh := b.toNat % 32
  let x := a.setWidth 32
  let y := b.setWidth 32
  match f7, f3 with
  | 0x00, 0 => some (sx32 (a + b))
  | 0x00, 1 => some ((x <<< sh).signExtend 64)
  | 0x00, 5 => some ((x >>> sh).signExtend 64)
  | 0x20, 0 => some (sx32 (a - b))
  | 0x20, 5 => some ((x.sshiftRight sh).signExtend 64)
  | 0x01, 0 => some (sx32 (a * b))
  | 0x01, 4 => some ((sdiv32 x y).signExtend 64)
  | 0x01, 5 => some ((udiv32 x y).signExtend 64)
  | 0x01, 6 => some ((srem32 x y).signExtend 64)
  | 0x01, 7 => some ((urem32 x y).signExtend 64)
  | 0x04, 0 => some (zx32 a + b)
  | 0x04, 4 => if rs2 = 0 then some ((a.setWidth 16).setWidth 64) else none
  | 0x10, 2 => some (zx32 a <<< 1 + b)
  | 0x10, 4 => some (zx32 a <<< 2 + b)
  | 0x10, 6 => some (zx32 a <<< 3 + b)
  | 0x30, 1 => some ((x.rotateLeft sh).signExtend 64)
  | 0x30, 5 => some ((x.rotateRight sh).signExtend 64)
  | _, _ => none

/-- OP-IMM; `i` is the 12-bit immediate, `b` its sign extension. -/
def aluImm (f3 i : Nat) (a b : X) : Option X :=
  let sh := i % 64
  match f3 with
  | 0 => some (a + b)
  | 2 => some (bool64 (a.slt b))
  | 3 => some (bool64 (a.ult b))
  | 4 => some (a ^^^ b)
  | 6 => some (a ||| b)
  | 7 => some (a &&& b)
  | 1 =>
    match i / 64 with
    | 0x00 => some (a <<< sh)
    | 0x0A => some (a ||| ((1 : X) <<< sh))
    | 0x12 => some (a &&& ~~~((1 : X) <<< sh))
    | 0x1A => some (a ^^^ ((1 : X) <<< sh))
    | 0x18 =>
      match sh with
      | 0 => some (BitVec.ofNat 64 (clzN 64 a))
      | 1 => some (BitVec.ofNat 64 (ctzN 64 a))
      | 2 => some (BitVec.ofNat 64 (popN 64 a))
      | 4 => some ((a.setWidth 8).signExtend 64)
      | 5 => some ((a.setWidth 16).signExtend 64)
      | _ => none
    | _ => none
  | _ =>
    match i / 64 with
    | 0x00 => some (a >>> sh)
    | 0x10 => some (a.sshiftRight sh)
    | 0x18 => some (a.rotateRight sh)
    | 0x12 => some ((a >>> sh) &&& 1)
    | 0x0A => if sh = 7 then some (orcB a) else none
    | 0x1A => if sh = 56 then some (rev8 a) else none
    | _ => none

/-- OP-IMM-32. -/
def aluImm32 (f3 i : Nat) (a b : X) : Option X :=
  let sh := i % 32
  let x := a.setWidth 32
  match f3, i / 32 with
  | 0, _ => some (sx32 (a + b))
  | 1, 0x00 => some ((x <<< sh).signExtend 64)
  | 1, 0x04 => some (zx32 a <<< sh)
  | 1, 0x05 => some (zx32 a <<< (sh + 32))
  | 1, 0x30 =>
    match sh with
    | 0 => some (BitVec.ofNat 64 (clzN 32 a))
    | 1 => some (BitVec.ofNat 64 (ctzN 32 a))
    | 2 => some (BitVec.ofNat 64 (popN 32 a))
    | _ => none
  | 5, 0x00 => some ((x >>> sh).signExtend 64)
  | 5, 0x20 => some ((x.sshiftRight sh).signExtend 64)
  | 5, 0x30 => some ((x.rotateRight sh).signExtend 64)
  | _, _ => none

/-- Whether a branch is taken. -/
def branchTaken (f3 : Nat) (a b : X) : Option Bool :=
  match f3 with
  | 0 => some (a == b)
  | 1 => some (a != b)
  | 4 => some (a.slt b)
  | 5 => some (!a.slt b)
  | 6 => some (a.ult b)
  | 7 => some (!a.ult b)
  | _ => none

/-- The value an atomic operation stores. -/
def amoOp (f5 : Nat) (n : Nat) (old src : X) : Option X :=
  let o := if n = 4 then sx32 old else old
  let v := if n = 4 then sx32 src else src
  match f5 with
  | 0x00 => some (o + v)
  | 0x01 => some v
  | 0x04 => some (o ^^^ v)
  | 0x08 => some (o ||| v)
  | 0x0C => some (o &&& v)
  | 0x10 => some (if o.slt v then o else v)
  | 0x14 => some (if o.slt v then v else o)
  | 0x18 => some (if n = 4 then (if (o.setWidth 32).ult (v.setWidth 32) then o else v) else if o.ult v then o else v)
  | 0x1C => some (if n = 4 then (if (o.setWidth 32).ult (v.setWidth 32) then v else o) else if o.ult v then v else o)
  | _ => none

/-! ## Compressed instructions -/

def encR (op f3 f7 rd rs1 rs2 : Nat) : Nat := op + rd * 128 + f3 * 4096 + rs1 * 32768 + rs2 * 1048576 + f7 * 33554432
def encI (op f3 rd rs1 imm : Nat) : Nat := op + rd * 128 + f3 * 4096 + rs1 * 32768 + imm % 4096 * 1048576
def encS (op f3 rs1 rs2 imm : Nat) : Nat :=
  op + imm % 32 * 128 + f3 * 4096 + rs1 * 32768 + rs2 * 1048576 + imm / 32 % 128 * 33554432
def encB (f3 rs1 rs2 imm : Nat) : Nat :=
  0x63 + bits imm 11 1 * 128 + bits imm 1 4 * 256 + f3 * 4096 + rs1 * 32768 + rs2 * 1048576 + bits imm 5 6 * 33554432 +
  bits imm 12 1 * 2147483648
def encJ (rd imm : Nat) : Nat :=
  0x6F + rd * 128 + bits imm 12 8 * 4096 + bits imm 11 1 * 1048576 + bits imm 1 10 * 2097152 + bits imm 20 1 * 2147483648

/-- A field of `n` bits sign-extended to `m` bits. -/
def sxN (n m v : Nat) : Nat := if bit v (n - 1) then v + (2 ^ m - 2 ^ n) else v

/-- Quadrant 0. -/
def expand0 (h : Nat) : Option Nat :=
  let rd := 8 + bits h 2 3
  let rs := 8 + bits h 7 3
  let uw := bits h 10 3 * 8 + bits h 6 1 * 4 + bits h 5 1 * 64
  let ud := bits h 10 3 * 8 + bits h 5 2 * 64
  match bits h 13 3 with
  | 0 =>
    let i := bits h 11 2 * 16 + bits h 7 4 * 64 + bits h 6 1 * 4 + bits h 5 1 * 8
    if i = 0 then none else some (encI 0x13 0 rd 2 i)
  | 2 => some (encI 0x03 2 rd rs uw)
  | 3 => some (encI 0x03 3 rd rs ud)
  | 6 => some (encS 0x23 2 rs rd uw)
  | 7 => some (encS 0x23 3 rs rd ud)
  | _ => none

/-- Quadrant 1. -/
def expand1 (h : Nat) : Option Nat :=
  let r := bits h 7 5
  let i6 := bits h 12 1 * 32 + bits h 2 5
  let imm := sxN 6 12 i6
  let r1 := 8 + bits h 7 3
  let r2 := 8 + bits h 2 3
  let jmp := sxN 12 21 (bits h 12 1 * 2048 + bits h 11 1 * 16 + bits h 9 2 * 256 + bits h 8 1 * 1024 + bits h 7 1 * 64 + bits h 6 1 * 128 +
    bits h 3 3 * 2 + bits h 2 1 * 32)
  let br := sxN 9 13 (bits h 12 1 * 256 + bits h 10 2 * 8 + bits h 5 2 * 64 + bits h 3 2 * 2 + bits h 2 1 * 32)
  match bits h 13 3 with
  | 0 => some (encI 0x13 0 r r imm)
  | 1 => if r = 0 then none else some (encI 0x1B 0 r r imm)
  | 2 => some (encI 0x13 0 r 0 imm)
  | 3 =>
    if r = 2 then
      let i := bits h 12 1 * 512 + bits h 6 1 * 16 + bits h 5 1 * 64 + bits h 3 2 * 128 + bits h 2 1 * 32
      if i = 0 then none else some (encI 0x13 0 2 2 (sxN 10 12 i))
    else if i6 = 0 then none
    else some (0x37 + r * 128 + sxN 6 20 i6 * 4096)
  | 4 =>
    match bits h 10 2 with
    | 0 => some (encI 0x13 5 r1 r1 i6)
    | 1 => some (encI 0x13 5 r1 r1 (i6 + 1024))
    | 2 => some (encI 0x13 7 r1 r1 imm)
    | _ =>
      match bits h 12 1, bits h 5 2 with
      | 0, 0 => some (encR 0x33 0 0x20 r1 r1 r2)
      | 0, 1 => some (encR 0x33 4 0 r1 r1 r2)
      | 0, 2 => some (encR 0x33 6 0 r1 r1 r2)
      | 0, _ => some (encR 0x33 7 0 r1 r1 r2)
      | _, 0 => some (encR 0x3B 0 0x20 r1 r1 r2)
      | _, 1 => some (encR 0x3B 0 0 r1 r1 r2)
      | _, _ => none
  | 5 => some (encJ 0 jmp)
  | 6 => some (encB 0 r1 0 br)
  | _ => some (encB 1 r1 0 br)

/-- Quadrant 2. -/
def expand2 (h : Nat) : Option Nat :=
  let r := bits h 7 5
  let r2 := bits h 2 5
  match bits h 13 3 with
  | 0 => some (encI 0x13 1 r r (bits h 12 1 * 32 + r2))
  | 2 => if r = 0 then none else some (encI 0x03 2 r 2 (bits h 12 1 * 32 + bits h 4 3 * 4 + bits h 2 2 * 64))
  | 3 => if r = 0 then none else some (encI 0x03 3 r 2 (bits h 12 1 * 32 + bits h 5 2 * 8 + bits h 2 3 * 64))
  | 4 =>
    if bits h 12 1 = 0 then
      if r2 = 0 then (if r = 0 then none else some (encI 0x67 0 0 r 0)) else some (encR 0x33 0 0 r 0 r2)
    else if r2 = 0 then (if r = 0 then some 0x00100073 else some (encI 0x67 0 1 r 0))
    else some (encR 0x33 0 0 r r r2)
  | 6 => some (encS 0x23 2 2 r2 (bits h 9 4 * 4 + bits h 7 2 * 64))
  | 7 => some (encS 0x23 3 2 r2 (bits h 10 3 * 8 + bits h 7 3 * 64))
  | _ => none

/-- The 32-bit instruction a compressed one stands for; none for a reserved encoding. -/
def expandC (h : Nat) : Option Nat :=
  match h % 4 with
  | 0 => expand0 h
  | 1 => expand1 h
  | 2 => expand2 h
  | _ => none

/-! ## CSRs (R379) -/


/-- A CSR as the thread reads it; none for one that is not listed. DEDUCED (log 66). -/
def State.csrRead (s : State) (t n : Nat) : Option X :=
  let th := s.thread t
  match n with
  | 0x301 => some 0x8000000000001105
  | 0xF14 => some (BitVec.ofNat 64 t)
  | 0x300 => some 0x1800
  | 0x304 => some 0
  | 0x344 => some 0
  | 0x305 => some th.mtvec
  | 0x340 => some th.mscratch
  | 0x341 => some th.mepc
  | 0x342 => some th.mcause
  | 0x343 => some th.mtval
  | 0xC00 => some (s.stepsOf (halfOfThread t))
  | 0xC01 => some s.devNow
  | 0xC02 => some th.instret
  | _ => none

/-- A write to a CSR; misa, mstatus, mie and mip ignore writes, mtvec and mepc keep their low bits 0. -/
def Thread.csrWrite (n : Nat) (v : X) (t : Thread) : Thread :=
  match n with
  | 0x305 => { t with mtvec := v &&& 0xFFFFFFFFFFFFFFFC }
  | 0x340 => { t with mscratch := v }
  | 0x341 => { t with mepc := v &&& 0xFFFFFFFFFFFFFFFE }
  | 0x342 => { t with mcause := v }
  | 0x343 => { t with mtval := v }
  | _ => t

/-! ## Execution -/

/-- An illegal-instruction exception (R400); mtval is zero or the instruction's bits. -/
def State.illegal (t w : Nat) (s : State) : State := s.choiceFault t 2 (BitVec.ofNat 64 w)

/-- Completes with a computed value, or faults where the encoding has none. -/
def State.alu (t rd n w : Nat) (v : Option X) (s : State) : State :=
  match v with
  | some v => s.complete t rd v n
  | none => s.illegal t w

/-- Completes with the PC at a target; rd takes a value. -/
def State.jump (t rd : Nat) (link target : X) (s : State) : State :=
  s.modThread t (fun th => { th.setReg rd link with pc := target, instret := th.instret + 1 })

/-- What loads, stores and atomics check (R380): `bad` is a misaligned or faulting access's cause, if any. `hw`: the access meets an
uncorrectable error. -/
def State.accessFault (s : State) (t a n : Nat) (store hw : Bool) : Option Nat :=
  if a % n ≠ 0 then some (if store then 6 else 4)
  else if hw || (regionOf a).isNone || (store && !s.mayStore t a n) then some (if store then 7 else 5)
  else none

/-- A load's value from its bytes. -/
def loadValue (f3 v : Nat) : X :=
  match f3 with
  | 0 => (BitVec.ofNat 8 v).signExtend 64
  | 1 => (BitVec.ofNat 16 v).signExtend 64
  | 2 => (BitVec.ofNat 32 v).signExtend 64
  | _ => BitVec.ofNat 64 v

/-- A load (R380, R404). Reading draws a free value's place for bytes the manual leaves open. -/
def State.load (t rd f3 : Nat) (a : X) (n : Nat) (hw : Bool) (s : State) : State :=
  let w := 2 ^ (f3 % 4)
  match s.accessFault t a.toNat w false hw with
  | some c => s.threadFault t c a
  | none =>
    let v := (s.memRead t a.toNat w).getD 0
    ({ s with free := s.free + 1 }).complete t rd (loadValue f3 v) n

/-- A store (R380, R404). -/
def State.store (t f3 : Nat) (a v : X) (n : Nat) (hw : Bool) (s : State) : State :=
  let w := 2 ^ f3
  match s.accessFault t a.toNat w true hw with
  | some c => s.threadFault t c a
  | none => (s.memWrite t a.toNat (toLe w v.toNat)).complete t 0 0 n

/-- LR, SC and the AMOs, of `w` bytes (R378, R381). DEDUCED (log 66). -/
def State.atomic (t rd f5 w : Nat) (a v : X) (rs2 ins n : Nat) (hw : Bool) (s : State) : State :=
  let lr := f5 == 2
  if (lr && rs2 != 0) || (f5 != 2 && f5 != 3 && (amoOp f5 w 0 0).isNone) then s.illegal t ins
  else
    match s.accessFault t a.toNat w (!lr) hw with
    | some c => s.threadFault t c a
    | none =>
      let old := loadValue (if w = 4 then 2 else 3) ((s.memRead t a.toNat w).getD 0)
      if lr then
        (({ s with free := s.free + 1 }).modThread t (fun th => { th with resv := some (a.toNat, w) })).complete t rd old n
      else if f5 = 3 then
        let ok := (s.thread t).resv == some (a.toNat, w)
        let s := s.modThread t (fun th => { th with resv := none })
        if ok then (s.memWrite t a.toNat (toLe w v.toNat)).complete t rd 0 n else s.complete t rd 1 n
      else
        (({ s with free := s.free + 1 }).memWrite t a.toNat (toLe w ((amoOp f5 w old v).getD 0).toNat)).complete t rd old n

/-- The CSR instructions (Zicsr). -/
def State.csrOp (t rd f3 rs1 csr ins n : Nat) (src : X) (s : State) : State :=
  let s := if csr = 0xC00 then s.tickSteps (halfOfThread t) else s
  match s.csrRead t csr with
  | none => s.illegal t ins
  | some old =>
    let writes := f3 % 4 == 1 || rs1 != 0
    if writes && decide (0xC00 ≤ csr) then s.illegal t ins
    else
      let v := if f3 % 4 = 1 then src else if f3 % 4 = 2 then old ||| src else old &&& ~~~src
      let s := if writes then s.modThread t (fun th => th.csrWrite csr v) else s
      s.complete t rd old n

/-- Xlys (R400, R401): a pair that is not listed, or a register field in use where the instruction has none, is illegal. -/
def State.xlys (t w : Nat) (hw : Bool) (s : State) : State :=
  let rd := bits w 7 5
  let r1 := bits w 15 5
  let r2 := bits w 20 5
  let a := (s.thread t).reg r1
  let b := (s.thread t).reg r2
  let no2 := fun (f : State → State) => if r2 = 0 then f s else s.illegal t w
  let noD := fun (f : State → State) => if r2 = 0 ∧ rd = 0 then f s else s.illegal t w
  let only := fun (f : State → State) => if r2 = 0 ∧ r1 = 0 then f s else s.illegal t w
  match bits w 12 3, bits w 25 7 with
  | 0, 0 => no2 (State.lysWait t rd a)
  | 0, 1 => no2 (State.lysPoll t rd a)
  | 0, 2 => s.lysSignal t rd a b
  | 0, 3 => noD (State.lysTimer t a)
  | 0, 4 => noD (State.lysEvclr t a)
  | 1, 0 => s.lysChput t rd a b
  | 1, 1 => s.lysChrecv t rd a b hw
  | 1, 2 => no2 (State.lysChstat t rd a)
  | 2, 0 => s.lysLookup t rd a b hw
  | 3, 0 => only (State.lysPktget t rd)
  | 3, 1 => s.lysPktput t rd a b
  | 3, 2 => only (State.lysPktnew t rd)
  | 4, 0 => s.lysTstart t rd a b
  | 4, 1 => no2 (State.lysTstop t rd a)
  | 4, 2 => s.lysTread t rd a b
  | 4, 3 => s.lysByrebind t rd a b
  | _, _ => s.illegal t w

/-- SYSTEM instructions that are no CSR access. -/
def State.system (t w n : Nat) (s : State) : State :=
  let th := s.thread t
  if w = 0x00000073 then s.threadFault t 11 0
  else if w = 0x00100073 then s.choiceFault t 3 th.pc
  else if w = 0x30200073 then s.jump t 0 0 th.mepc
  else if w = 0x10500073 then s.complete t 0 0 n
  else s.illegal t w

/-- Executes a 32-bit instruction `w` that took `n` bytes; `ins` is what was fetched, `hw` an uncorrectable error its data access meets.
DEDUCED (log 66). -/
def State.rvExec (t w n ins : Nat) (hw : Bool) (s : State) : State :=
  let th := s.thread t
  let rd := bits w 7 5
  let f3 := bits w 12 3
  let r1 := bits w 15 5
  let r2 := bits w 20 5
  let f7 := bits w 25 7
  let a := th.reg r1
  let b := th.reg r2
  let immI : X := (BitVec.ofNat 12 (bits w 20 12)).signExtend 64
  let immS : X := (BitVec.ofNat 12 (f7 * 32 + rd)).signExtend 64
  let immB : X := (BitVec.ofNat 13 (bits w 8 4 * 2 + bits w 25 6 * 32 + bits w 7 1 * 2048 + bits w 31 1 * 4096)).signExtend 64
  let immU : X := (BitVec.ofNat 32 (bits w 12 20 * 4096)).signExtend 64
  let immJ : X := (BitVec.ofNat 21 (bits w 21 10 * 2 + bits w 20 1 * 2048 + bits w 12 8 * 4096 + bits w 31 1 * 1048576)).signExtend 64
  let next := th.pc + BitVec.ofNat 64 n
  match w % 128 with
  | 0x37 => s.complete t rd immU n
  | 0x17 => s.complete t rd (th.pc + immU) n
  | 0x6F => s.jump t rd next (th.pc + immJ)
  | 0x67 => if f3 = 0 then s.jump t rd next ((a + immI) &&& 0xFFFFFFFFFFFFFFFE) else s.illegal t ins
  | 0x63 =>
    match branchTaken f3 a b with
    | none => s.illegal t ins
    | some x => s.jump t 0 0 (if x then th.pc + immB else next)
  | 0x03 => if f3 = 7 then s.illegal t ins else s.load t rd f3 (a + immI) n hw
  | 0x23 => if 3 < f3 then s.illegal t ins else s.store t f3 (a + immS) b n hw
  | 0x13 => s.alu t rd n ins (aluImm f3 (bits w 20 12) a immI)
  | 0x1B => s.alu t rd n ins (aluImm32 f3 (bits w 20 12) a immI)
  | 0x33 => s.alu t rd n ins (aluOp f7 f3 a b)
  | 0x3B => s.alu t rd n ins (aluOp32 f7 f3 r2 a b)
  | 0x0F => if f3 = 0 then s.complete t 0 0 n else if f3 = 1 then (s.fenceI (coreOf t)).complete t 0 0 n else s.illegal t ins
  | 0x2F => if f3 = 2 ∨ f3 = 3 then s.atomic t rd (f7 / 4) (2 ^ f3) a b r2 ins n hw else s.illegal t ins
  | 0x73 =>
    if f3 = 0 then s.system t w n
    else if f3 = 4 then s.illegal t ins
    else s.csrOp t rd f3 r1 (bits w 20 12) ins n (if 4 < f3 then BitVec.ofNat 64 r1 else a)
  | 0x0B => s.xlys t w hw
  | _ => s.illegal t ins

/-- The instruction accesses data in memory: loads, stores, atomics, LYS.CHRECV and LYS.LOOKUP. -/
def isAccess (w : Nat) : Bool :=
  w % 128 == 0x03 || w % 128 == 0x23 || w % 128 == 0x2F ||
  (w % 128 == 0x0B && ((bits w 12 3 == 1 && bits w 25 7 == 1) || (bits w 12 3 == 2 && bits w 25 7 == 0)))

/-- Code may be fetched from scratch and private memory alone (R380). -/
def fetchable (a : Nat) : Bool := regionOf a == some .scratch || regionOf a == some .priv

/-- Fetches and executes the instruction at the PC (R378, R380, R381, R395); a PC that START made odd is a misaligned one. DEDUCED (log 66).
-/
def State.instr (t : Nat) (hw : Bool) (s : State) : State :=
  let pc := (s.thread t).pc
  let a := pc.toNat
  if a % 2 = 1 then s.threadFault t 0 pc
  else if !fetchable a then s.threadFault t 1 pc
  else
    let lo := s.fetch16 t a
    let s := { s with free := s.free + 1 }
    if lo % 4 ≠ 3 then
      match expandC lo with
      | none => if hw then s.threadFault t 1 pc else s.illegal t lo
      | some w => if hw && !isAccess w then s.threadFault t 1 pc else s.rvExec t w 2 lo hw
    else if !fetchable (a + 2) then s.threadFault t 1 (pc + 2)
    else
      let w := lo + 65536 * s.fetch16 t (a + 2)
      if hw && !isAccess w then s.threadFault t 1 pc else s.rvExec t w 4 w hw

/-- INSTRUCTION (R378, R384, R395, R417): a thread that issues executes the instruction at its PC. A corrected error is charged and is
invisible to it; an uncorrectable one ends its access, or its fetch, with the access fault; a register-file parity error is HW_ERROR. -/
def execInstruction (thread : ThreadId) (hw : HwError) (s : State) : Outcome :=
  done (s.onIssueHw thread.val hw (State.instr thread.val))

end Sys2Proof.Machine
end

