-- ==== Sys2Proof/Machine/Resets.lean ====
section
/-! DEFINITION. The abort sequencer's passes (R56 to R60), and the DATAPATH reset of pipelines (R542). -/

namespace Sys2Proof.Machine

open Sys2Proof

/-! ## What a function holds (R56) -/

/-- A received packet is for an endpoint of the function. -/
def State.pktOf (s : State) (fid : Nat) (p : Pkt) : Bool :=
  match s.ep (lrdDstEp (lrdBytes p)) with
  | none => false
  | some e => e.fid == fid

/-- Microcoded engines that hold work for a function: DMA engines with reads or descriptors of its rings, transport sequencers with contexts of its
messages or packets for its endpoints; in split mode those of its own half (R56, R60). -/
def State.engineHolds (s : State) (e fid : Nat) : Bool :=
  (match engKind e with
    | 0 =>
      s.lrd.msgs.anyV (fun _ m => m.fid == fid && m.seq == engNum e) ||
      (s.net.seqIn.getD (engNum e) [] ++ s.lrd.keyWait.getD (engNum e) [] ++ (s.net.opened.getD (engNum e) []).map (·.1)).any (s.pktOf fid)
    | 1 =>
      s.rings.any (fun r => r.2.fid == fid && kindOfKey r.1 == 0 && engineOfSq (numOfKey r.1) == engNum e &&
        (r.2.readOut || (s.workOf r.1).reading != 0 || !(s.workOf r.1).fetched.isEmpty)) ||
      (s.readsOf (engNum e)).any (fun r => r.2.2.fid == fid)
    | _ => false) &&
  (!s.apart || engHalf e == halfOfFid fid)

/-- A key slot is zeroed and its generation advances (R56, R112, R342). -/
def State.zeroSlot (n : Nat) (s : State) : State :=
  let s := s.modSlot n (fun x => { gen := nextGen x.gen, info := none, last := x.info.map (·.fid) |>.or x.last })
  let h := halfOfSlot n
  let s := s.setKeyCache h ((s.keyCache h).filter (· != n))
  s.modCry (fun c => { c with unwrapping := c.unwrapping.filter (· != n) })

/-- An endpoint is gone: its number keeps its last owner, and packets that wait for its context go back to their sequencers (R59, R325).
DEDUCED (log 57). -/
def State.removeEp (n : Nat) (s : State) : State :=
  match s.ep n with
  | none => s
  | some e =>
    let h := halfOfFid e.fid
    let mine := fun (p : Pkt) => lrdDstEp (lrdBytes p) == n
    let q := s.missQ h
    let s := (s.setMissQ h (q.filter (fun p => !mine p))).missOut h (q.filter mine)
    s.modLrd (fun l => { l with
      eps := Tab.del n l.eps, epLast := Tab.set n e.fid l.epLast, epFreed := Tab.set n s.clock.now l.epFreed })

/-- A TLP of a function. -/
def Out.ofFn (fid : Nat) : Out → Bool
  | .write f _ _ => f == fid
  | .msi f _ => f == fid
  | .read f _ _ => f == fid
  | .ecrc o => o.ofFn fid
  | _ => false

/-- A list without the first `n` TLPs of a function. -/
def dropTlps (fid : Nat) : Nat → List Out → List Out
  | 0, os => os
  | _, [] => []
  | n + 1, o :: os => if o.ofFn fid then dropTlps fid n os else o :: dropTlps fid (n + 1) os

/-- TLPs queued for a function and not yet sent are discarded: its last `n` (R56). -/
def State.unsend (fid n : Nat) (s : State) : State := { s with out := (dropTlps fid n s.out.reverse).reverse }

/-- A function's outstanding reads are orphaned, and those that wait for a tag are not sent (R56). -/
def State.orphanReads (fid : Nat) (s : State) : State :=
  { s with links := s.links.mapV (fun _ l => { l with
      reads := l.reads.mapV (fun _ r => if r.fid = fid then { r with orphan := true } else r), readQ := l.readQ.filter (fun r => r.fid != fid) }) }

/-- A function's rings are retired, with its held completions and events and its packet-buffer share; learn records that wait for its CQs are lost
(R56, R251). -/
def State.retireRings (fid : Nat) (s : State) : State :=
  let ks := s.rings.keysWhere (fun _ r => r.fid == fid)
  let ps := ks.flatMap (fun k => (s.workOf k).rxWait)
  let s := s.each (fun k s => s.loseRecordsOf (numOfKey k)) (ks.filter (fun k => kindOfKey k == 1))
  let s := { s with rings := s.rings.filter (fun e => e.2.fid != fid), work := s.work.filter (fun e => !ks.contains e.1) }
  (s.each (fun p s => (s.bump 0 fid 2).dropPkt p) ps).modRes fid (fun _ => {})

/-- A function's cached path state and derived keys of a half are dropped (R56). DEDUCED (log 59). -/
def State.releasePaths (fid h : Nat) (s : State) : State :=
  s.modLrd (fun l => { l with
    paths := l.paths.filter (fun e => e.2.fid != fid || e.1 / 4294967296 != h)
    keysW := if h = 0 then l.keysW.filter (fun k => k.fid != fid) else l.keysW
    keysE := if h = 0 then l.keysE else l.keysE.filter (fun k => k.fid != fid) })

/-- The endpoint that a packet on its way to a cipher core comes from (R282). -/
def SealJob.srcEp (j : SealJob) : Nat := be j.hdr 16 4 % 1048576

/-- Packets of endpoints that satisfy `p`, built and not yet encrypted, are discarded (R56). -/
def State.unsendLrd (p : Nat → Bool) (s : State) : State :=
  { s with net := { s.net with
      lrdOut := s.net.lrdOut.mapV (fun _ js => js.filter (fun j => !p j.srcEp))
      inl := s.net.inl.mapV (fun _ js => js.filter (fun j => match j with
        | .enc x => !p x.srcEp
        | _ => true)) } }

/-- A function's transport state is dropped: endpoints, messages, windows, packets not yet encrypted, path state and derived keys, of its own half
alone while the halves are apart (R56, R59, R60). DEDUCED (log 59). -/
def State.releaseLrd (fid : Nat) (s : State) : State :=
  let s := s.unsendLrd (fun n => (s.ep n).any (fun e => e.fid == fid))
  let s := s.each State.unpace (s.lrd.msgs.keysWhere (fun _ m => m.fid == fid))
  let s := s.modLrd (fun l => { l with
    msgs := l.msgs.filter (fun e => e.2.fid != fid)
    wins := l.wins.mapV (fun _ w => if w.fid = fid ∧ w.live then
      { w with live := false, gen := nextGen w.gen, freed := some s.clock.now } else w) })
  let s := s.each (State.releasePaths fid) (if s.apart then [halfOfFid fid] else [0, 1])
  s.each State.removeEp (s.lrd.eps.keysWhere (fun _ e => e.fid == fid))

/-- A function's keys are zeroed, its cipher jobs discarded and its security associations removed (R56). -/
def State.releaseCry (fid : Nat) (s : State) : State :=
  let s := s.each State.zeroSlot (s.cry.slots.keysWhere (fun _ x => match x.info with
    | none => false
    | some k => k.fid == fid))
  s.modCry (fun c => { c with
    bulk := c.bulk.mapV (fun _ js => js.filter (fun j => j.fid != fid))
    cores := c.cores.filter (fun e => e.2.fid != fid)
    sas := c.sas.filter (fun e => e.2.fid != fid) })

/-- A function's rules stop matching; in split mode only on its own half, the others going at rejoin (R56, R60). DEDUCED (log 75). -/
def State.releaseRules (fid : Nat) (s : State) : State :=
  let keep := fun (r : Rule) => r.fid != fid
  let east := s.rel.rulesE.isSome
  let s := if east && halfOfFid fid == 1 then s else { s with net := { s.net with rules := s.net.rules.filter keep } }
  if halfOfFid fid == 1 then { s with rel := { s.rel with rulesE := s.rel.rulesE.map (·.filter keep) } } else s

/-- The work of a pass on one function: discard, retire and release; what it holds on the other half waits for rejoin while the halves are apart
(R56, R60). DEDUCED (log 75). -/
def State.releaseFn (fid : Nat) (s : State) : State :=
  (((((s.orphanReads fid).retireRings fid).releaseLrd fid).releaseCry fid).releaseRules fid).when s.apart
    (State.modFn fid (fun f => { f with across := true }))

/-- What a function aborted in split mode holds on the other half is released, and nothing more keeps it from ACTIVE (R60). DEDUCED (log
75). -/
def State.releaseFar (fid : Nat) (s : State) : State :=
  ((s.releasePaths fid (1 - halfOfFid fid)).modFn fid (fun f => { f with across := false }))

/-! ## Passes (R56, R57) -/

def State.passOf (s : State) (h : Nat) : Option (List Nat) := if h = 0 then s.hif.passW else s.hif.passE
def State.setPass (h : Nat) (p : Option (List Nat)) (s : State) : State :=
  { s with hif := if h = 0 then { s.hif with passW := p } else { s.hif with passE := p } }

/-- Engines that hold work for one of a set of functions. -/
def State.enginesFor (s : State) (fids : List Nat) : List Nat :=
  (List.range 48).filter (fun e => fids.any (s.engineHolds e))

/-- The FENCE request of an engine is pending. -/
def State.fenced (s : State) (e : Nat) : Bool := (s.engine e).reqs.getLsbD 0

/-- ABORT_PASS (R56): a pass begins over the functions of the half in ABORTING; every engine that holds work for them gets the fence
request. -/
def State.abortPass (h : Nat) (s : State) : State :=
  let fids := s.fns.keysWhere (fun fid f => halfOfFid fid == h && f.state == .aborting)
  if (s.passOf h).isSome || fids.isEmpty then s
  else (s.setPass h (some fids)).each (fun e s => s.engRequest e 0) (s.enginesFor fids)

/-- ABORT_PASS (R56). -/
def execAbortPass (half : Half) (s : State) : Outcome := done (s.abortPass half)

/-- The functions of passes that run. -/
def State.inPass (s : State) : List Nat := s.hif.passW.getD [] ++ s.hif.passE.getD []

/-- FENCE_TIMEOUT (R56): an engine that has not sampled the fence request within 300 µs is reset; ENGINE_RESET is set for each function of the pass with
work on it. -/
def State.fenceTimeout (e : Nat) (s : State) : State :=
  let fids := s.inPass.filter (s.engineHolds e)
  if !s.fenced e || fids.isEmpty || decide (s.clock.now < (s.engine e).fenceAt + 300000) then s
  else (s.each (fun fid => State.modFn fid (fun f => { f with abEngReset := true })) fids).recoverEngine e

/-- FENCE_TIMEOUT (R56). -/
def execFenceTimeout (engine : EngineId) (s : State) (dt : Nat := 300000) : Outcome := done ((s.advance dt).fenceTimeout engine)

/-- The function's abort is reported: DONE with its elapsed time, the state its cause leads to, EV_FN_ABORTED and the Ledger record (R47,
R52, R57). DEDUCED (log 48). -/
def State.reportAbort (fid : Nat) (silent : Bool) (s : State) : State :=
  let f := s.fn fid
  let us := (s.clock.now - f.leftAt.getD s.clock.now) / 1000
  let s := s.modFn fid (fun f => { f with abInProgress := false, abDone := true, abHostSilent := silent, abElapsed := min us 0xFFFF })
  let s := match f.goal with
    | .active => s.quarantine fid .active
    | .idle => s.quarantine fid .idle
    | .disabled => s.reachGoal fid .disabled
    | _ => s.settleFn fid .aborted
  let pf := s.pfOf fid
  let data := toLe 1 f.gen.toNat ++ toLe 1 f.reason ++ toLe 1 (s.fn fid).state.code
  let s := if pf != fid && (s.fn pf).state == .active then s.postBit pf .fn 0x0105 fid data else s
  s.ledgerAdd 0x0030 fid (toLe 1 f.gen.toNat ++ toLe 1 f.reason)

/-- ABORT_PASS_DONE (R56, R57): `dt` ns after the last event of the pass every fence has been met; `unsent` gives the TLPs queued for functions that
the host never let out, which are discarded. DEDUCED (log 75). -/
def State.abortPassDone (h : Nat) (unsent : List (Nat × Nat)) (s : State) : State :=
  match s.passOf h with
  | none => s
  | some fids =>
    if (s.enginesFor fids).any s.fenced then s
    else
      let run := fids.filter (fun fid => (s.fn fid).state == .aborting)
      let s := s.each (fun u s => s.when (run.contains u.1) (State.unsend u.1 u.2)) unsent
      let s := s.each State.releaseFn run
      (s.each (fun fid s => s.reportAbort fid (unsent.any (fun u => u.1 == fid && u.2 != 0))) run).setPass h none

/-- ABORT_PASS_DONE (R57). -/
def execAbortPassDone (half : Half) (unsent : List (Nat × Nat)) (dt : Nat) (s : State) : Outcome :=
  done ((s.advance dt).abortPassDone half unsent)

/-! ## DATAPATH reset (R542) -/

/-- A pipeline's hash seed is drawn anew, as whenever its table is cleared (R243). DESIGN CHOICE (log 1). -/
def State.freshSeed (n : Nat) (s : State) : State :=
  let k := Config.freeWord s.free ++ Config.freeWord (s.free + 1)
  ({ s with free := s.free + 2 }).modPipe n (fun q => { q with seed := k })

/-- Packets in the parser's stages are discarded and counted, and learn requests with them; the tables are cleared, and the records of
commands' entries with them (R544). DEDUCED (log 53, 76). -/
def State.clearPipe (n : Nat) (s : State) : State :=
  let q := s.pipe n
  let ps := q.deepRun.map (·.pkt) ++ q.second
  let s := s.bumpBy 3 (halfOfPipe n) 9228 (q.hdrs.length + ps.length + q.learnQ.length)
  let s := s.each State.dropPkt ps
  s.modPipe n (fun q => { q with hdrs := [], deepRun := [], second := [], learnQ := [], ways := [], stash := [], shadow := none })
    |> fun s => ({ s with net := { s.net with emRecs := Tab.del n s.net.emRecs, flips := s.net.flips.filter (fun e => e.1 != n) } }).freshSeed n

/-- Lookups of threads in a pipeline's exact-match table end with RESET (R409, R542). -/
def State.resetLookups (n : Nat) (s : State) : State :=
  let hits := fun (l : Lookup) => le l.req 0 1 % 2 == 0 && le l.req 1 1 % 16 == n
  s.each (fun t s =>
    ((List.range 4).reverse).foldl (fun s i => match (s.thread t).lookups[i]? with
      | some l => if hits l then s.endLookup t i true else s
      | none => s) s) (s.off.threads.map (·.1))

/-- A pipeline's LPs go DOWN with cause RESET, their queues emptied (R176, R542). -/
def State.resetPorts (n : Nat) (s : State) : State :=
  s.each (fun lp s => ((s.leaveUp lp 5).modLp lp (fun l => { l with state := .down })).flushLp lp 9) (lpsOf n (s.np n).breakout)

/-- A DATAPATH reset of the pipelines of a mask with a cause (R542, R545, R546): what they hold is discarded, their tables are cleared,
EV_DATAPATH_RESET is posted and the Ledger record written. -/
def State.datapathClear (mask cause : Nat) (s : State) : State :=
  let s := s.each (fun n s => ((s.clearPipe n).resetLookups n).resetPorts n) (maskBits 16 mask)
  (s.postInfra 0x0723 mask (toLe 1 cause)).ledgerAdd 0x0105 mask (toLe 1 2 ++ toLe 1 cause)

/-- A pipeline is released: its LPs train as their settings direct (R175, R462). -/
def State.releasePipe (n : Nat) (s : State) : State := (s.modPipe n (fun q => { q with released := true })).portStart n

/-- The offload cores of a half as a reset leaves them (R419): START with every thread STOPPED, default slot tables, memories undefined
anew, no channel read there, no binding, no owner; a retired core stays LOST. DEDUCED (log 76). DESIGN CHOICE (log 2). -/
def State.resetCores (h : Nat) (s : State) : State :=
  let seed := s.free + 1
  let cs := (List.range 64).map (fun i => 64 * h + i)
  let s := { s with
    free := seed
    off := { s.off with
      cores := (s.off.cores.filter (fun e => halfOfCore e.1 != h))
      threads := s.off.threads.filter (fun e => halfOfThread e.1 != h)
      chans := s.off.chans.filter (fun e => halfOfThread e.2.reader != h)
      bind := s.off.bind.filter (fun e => e.1 / 32 != h && halfOfThread e.2 != h)
      sharedW := if h = 0 then [] else s.off.sharedW
      sharedE := if h = 0 then s.off.sharedE else []
      seedW := if h = 0 then seed else s.off.seedW
      seedE := if h = 0 then s.off.seedE else seed } }
  let s := s.each (fun c => State.modCore c (fun x => { x with seed := seed })) cs
  s.each (fun c s => if s.isRetired 7 c then s.each (fun t => State.modThread t (fun th => { th with state := .lost })) (threadsOf c) else s) cs

/-- The half's threads stop and its channels are gone (R391, R416, R419). -/
def State.endCores (h : Nat) (s : State) : State :=
  let ts := (s.off.threads.filter (fun e => halfOfThread e.1 == h && e.2.state != .stopped && e.2.state != .lost)).map (·.1)
  let s := s.each (fun t => State.quitThread t .stopped) ts
  let s := s.each State.orphanChan (s.off.chans.keysWhere (fun _ c => c.home == h))
  s.resetCores h

/-- A write to PPL_RELEASE (R387, R462): pipelines whose bit is cleared take a DATAPATH reset and stay held, those whose bit is set are
released; CORES releases the half's offload cores. DEDUCED (log 76). -/
def State.pplWrite (h : Nat) (v : BitVec 32) (s : State) : State :=
  let pipes := (List.range 8).map (· + 8 * h)
  let off := pipes.filter (fun n => (s.pipe n).released && !bit v.toNat (n % 8))
  let on := pipes.filter (fun n => !(s.pipe n).released && bit v.toNat (n % 8))
  let s := if off.isEmpty then s else s.datapathClear (off.foldl (fun a n => a + 2 ^ n) 0) 2
  let s := s.each (fun n => State.modPipe n (fun q => { q with released := false })) off
  let s := s.each State.releasePipe on
  let s := if (if h = 0 then s.boot.coresW else s.boot.coresE) && !bit v.toNat 8 then s.endCores h else s
  { s with boot := if h = 0 then { s.boot with coresW := bit v.toNat 8 } else { s.boot with coresE := bit v.toNat 8 } }

/-- PPL_RELEASE (R462). -/
def execPplRelease (half : Half) (value : BitVec 32) (s : State) : Outcome := done (s.pplWrite half value)

/-- The DATAPATH reset of a RESET_REQUEST whose time has come, on the pipelines it names (R89, R542). -/
def execDatapathReset (mask : BitVec 16) (s : State) : Outcome :=
  match s.hif.resetReq with
  | none => done s
  | some r =>
    if r.domain != 2 || r.pipeMask != mask.toNat || decide (s.clock.now < r.at_) then done s
    else
      let s := { s with hif := { s.hif with resetReq := none } }
      let s := s.datapathClear mask.toNat 1
      done (s.each (fun n s => if (s.pipe n).released then s.portStart n else s) (maskBits 16 mask.toNat))

end Sys2Proof.Machine
end

