-- ==== Sys2Proof/Machine/Update.lean ====
section
/-! DEFINITION. The firmware update (R473 to R486, R489, R494). -/

namespace Sys2Proof.Machine

open Sys2Proof

/-- TOTAL_LEN of the update (R487). -/
def State.updTotal (s : State) : Nat := match s.lastRec with
  | none => 0
  | some r => r.total

/-! ## The update state (R474, R475, R494) -/

/-- EV_UPDATE_STATE (R494). -/
def State.postUpdate (s : State) : State :=
  s.postInfra 0x0710 0 s.updData

/-- A PF that comes to own an EQ is told the state of the start, once (R163, R494). DEDUCED (log 142). -/
def State.tellUpdate (fid : Nat) (s : State) : State :=
  let f := s.fn fid
  if s.upd.decided && s.isPf fid && f.state == .active && f.priv == .infra && (s.fnEq fid).isSome && !s.upd.told.contains fid then
    ({ s with upd := { s.upd with told := s.upd.told ++ [fid] } }).postBit fid .fn 0x0710 0 s.updData
  else s

/-- The update state changes. -/
def State.updTo (st reason : Nat) (s : State) : State := ({ s with upd := { s.upd with state := st, reason := reason } }).postUpdate

/-! ## Refusals (R473, R476) -/

/-- The PFs that hold critical service (R94). -/
def State.serviceHolders (s : State) : List Nat := s.fns.keysWhere (fun fid f => f.state == .active && f.svcHold && s.isPf fid)
def State.serviceHeld (s : State) : Bool := !s.serviceHolders.isEmpty
/-- The thermal emergency: level 3 or above (R511). -/
def State.emergency (s : State) : Bool := decide (3 ≤ s.power.level)

/-- The checks of R476 in their order, the state's own check given. -/
def State.updRefusal (s : State) (stateOk lock hold : Bool) : Option (Nat × Nat) :=
  firstFail [
    (!stateOk, stUpdateState, s.upd.state), (s.boot.lc == 0, stLifeCycle, s.boot.lc), (lock && s.sets.ownerLock, stOwnerLock, 0),
    (!s.boot.holdupN, stHoldup, 0), (s.emergency, stThermal, 0), (hold && s.serviceHeld, stServiceHold, (s.serviceHolders.head?).getD 0)]

/-- The agent of the current image. -/
def State.agentIs (s : State) (agent : Nat) : Bool := match s.lastRec with
  | none => false
  | some r => r.agent == agent

/-! ## UPDATE_BEGIN (R124, R479) -/

/-- The update resumes: RECEIVING with the same image and agent. -/
def State.updResumes (s : State) (total : Nat) (tag : BitVec 64) (agent : Nat) : Bool :=
  s.upd.state == 1 && s.agentIs agent && match s.lastRec with
    | none => false
    | some r => r.total == total && r.tag == tag

def State.beginRefusal (s : State) (total : Nat) (tag : BitVec 64) (agent : Nat) : Option (Nat × Nat) :=
  s.updRefusal (s.upd.state == 0 || s.upd.state == 5 || s.upd.state == 6 || s.updResumes total tag agent) true true

/-- UPDATE_BEGIN's effect: a new image erases the inactive slot's record, clears its bit in the boot failure mask and appends BEGIN. -/
def State.updBegin (total : Nat) (tag : BitVec 64) (agent : Nat) (s : State) : State :=
  if s.updResumes total tag agent then s
  else
    let slot := s.inactive
    let s := s.eraseRecord slot
    let s := { s with boot := { s.boot with failMask := if bit s.boot.failMask slot then s.boot.failMask - 2 ^ slot else s.boot.failMask } }
    let s := s.jAppend { type := 1, slot := slot, agent := agent, tag := tag, total := total, oldSeq := s.runningSeq }
    ({ s with upd := { s.upd with next := 0, durable := 0, page := [] } }).updTo 1 0

/-! ## UPDATE_STAGE (R125, R480) -/

def State.stageRefusal (s : State) (agent : Nat) : Option (Nat × Nat) :=
  s.updRefusal (s.upd.state == 1 && s.agentIs agent) false false

/-- Programs `n` pages of a slot from slot offset `off` on, page by page: a sector is erased before its first byte, and each multiple of
65,536 that is reached appends PROGRESS. The page that `bad` counts down to fails its read-back twice: it is left undefined and nothing
follows it. DESIGN CHOICE (log 3). -/
def State.stagePages (slot : Nat) : Nat → Nat → Option Nat → Bytes → State → State × Bool
  | 0, _, _, _, s => (s, true)
  | n + 1, off, bad, bs, s =>
    let at_ := slotBase slot + off
    let s := if off % 4096 = 0 then s.flashErase at_ 4096 else s
    if bad = some 0 then
      (({ s with free := s.free + 1 }).flashWrite at_ ((List.range 256).map (fun i => Config.freeBytes s.free i)), false)
    else
      let s := s.flashWrite at_ (bs.take 256)
      let done := off + 256
      let s := if done % 65536 = 0 then (s.jNote 2 done 0) |> fun s => { s with upd := { s.upd with durable := done } } else s
      s.stagePages slot n done (bad.map (· - 1)) (bs.drop 256)

/-- UPDATE_STAGE's effect on a piece at NEXT_OFFSET: whole pages are programmed, a page left incomplete is held, and the last piece fills
its page with 0xFF and appends STAGED. Answers false where its page `badPage` has failed read-back twice (`readBack` false): NEXT_OFFSET
stays, and so does what was held. DEDUCED (log 77). DESIGN CHOICE (log 3). -/
def State.updStage (data : Bytes) (readBack : Bool) (badPage : Nat) (s : State) : State × Bool :=
  let u := s.upd
  let all := u.page ++ data
  let last := decide (s.updTotal ≤ u.next + data.length)
  let n := if last then (all.length + 255) / 256 else all.length / 256
  let r := s.stagePages s.updSlot n (u.next - u.page.length) (if readBack then none else some (min badPage (n - 1)))
    (all ++ List.replicate 256 0xFF)
  if !r.2 then r
  else
    let s := { r.1 with upd := { r.1.upd with next := u.next + data.length, page := if last then [] else all.drop (256 * n) } }
    (if last then (s.jNote 3 0 0).updTo 2 0 else s, true)

/-! ## UPDATE_ARM, UPDATE_COMMIT, UPDATE_CANCEL (R126, R127, R482, R484) -/

def State.armRefusal (s : State) (agent : Nat) : Option (Nat × Nat) :=
  s.updRefusal (s.upd.state == 2 && s.agentIs agent) true true

/-- UPDATE_ARM's effect. -/
def State.updArm (seq : Nat) (s : State) : State :=
  let tag := match s.lastRec with
    | none => 0
    | some r => r.tag
  ((s.writeArm s.updSlot seq tag).jNote 4 seq 0).updTo 3 0

/-- The checks of UPDATE_COMMIT: the trial runs, which the reset that ends it has not come to (R475, R483). -/
def State.commitRefusal (s : State) : Option (Nat × Nat) := s.updRefusal (s.upd.state == 4 && s.boot.trial) false false

/-- UPDATE_COMMIT's effect: the running slot is committed and a device on trial is READY. DEDUCED (log 81). -/
def State.updCommit (s : State) : State :=
  let s := s.setCommit s.boot.slot
  let s := s.jNote 6 s.runningSeq 0
  let s := { s with hif := { s.hif with devState := if s.hif.devState = 3 then 1 else s.hif.devState } }
  s.updTo 5 0

def State.cancelRefusal (s : State) : Option (Nat × Nat) :=
  firstFail [(!(s.upd.state == 1 || s.upd.state == 2 || s.upd.state == 3), stUpdateState, s.upd.state)]

/-- UPDATE_CANCEL's effect. -/
def State.updCancel (s : State) : State :=
  let s := if s.upd.state = 3 then s.eraseRecord s.updSlot else s
  let s := s.jNote 8 0 0
  ({ s with upd := { s.upd with next := 0, durable := 0, page := [] } }).updTo 0 0

/-! ## Starts (R481, R489) -/

/-- NEXT_OFFSET goes back to the last PROGRESS record (R481). -/
def State.updBack (s : State) : State := { s with upd := { s.upd with next := if s.upd.state = 1 then s.upd.durable else s.upd.next, page := [] } }

/-- The update state as Hearth decides it at a start (R489): the table's first row that applies. Each INFRA PF is told of it (R494). -/
def State.updDecide (s : State) : State :=
  let s := { s with upd := { s.upd with decided := true, told := [] } }
  let slotOf := fun (r : JRec) => r.slot
  match s.lastRec with
  | none => s.updTo 0 0
  | some r =>
    if s.boot.trial && slotOf r == s.boot.slot then (if r.type = 5 then s else s.jNote 5 s.runningSeq 0).updTo 4 0
    else if r.type = 7 then s.updTo 6 r.reason
    else if r.type = 5 ∧ s.boot.slot = r.slot ∧ s.commitMark r.slot = true then (s.jNote 6 s.runningSeq 0).updTo 5 0
    else if r.type = 4 ∧ s.armed r.slot = false then (s.jNote 8 0 0).updTo 0 0
    else if r.type = 1 ∨ r.type = 2 then
      let off := if r.type = 2 then r.value else 0
      ({ s with upd := { s.upd with next := off, durable := off, page := [] } }).updTo 1 0
    else if r.type = 3 then ({ s with upd := { s.upd with next := r.total } }).updTo 2 0
    else if r.type = 6 then s.updTo 5 0
    else s.updTo 0 0

end Sys2Proof.Machine
end

