-- ==== Sys2Proof/Machine/Power.lean ====
section
/-! DEFINITION. Hearth's power modes, set points, capping and thermal levels (R505 to R513, R557), the writes of the Ledger (R516), and the
holdup pin (R510). -/

namespace Sys2Proof.Machine

open Sys2Proof

def State.modPower (f : Power → Power) (s : State) : State := { s with power := f s.power }

/-! ## The Ledger's writes (R516) -/

/-- LEDGER_WRITE (R516): a record that fails its read-back waits to be written again with the same INDEX;
without standby power nothing is written (R566). -/
def execLedgerWrite (readBack : Bool) (s : State) : Outcome := if s.boot.stbyGood then done (s.ledgerStep readBack) else done s

/-! ## Modes and slews (R507, R508) -/

/-- The nominal and the highest set point of a mode in mV, and its floor in M steps/s (R507). -/
def nominalMv (m : Nat) : Nat := if m = 0 then 780 else if m = 1 then 720 else 620
def highestMv (m : Nat) : Nat := nominalMv m + 60
def floorRate (m : Nat) : Nat := if m = 0 then 3000 else if m = 1 then 2500 else 1800
/-- PMODE: during a slew the slower of the two modes (R508). -/
def Power.pmode (p : Power) : Nat := match p.slew with
  | none => p.mode
  | some x => max x.old x.new

/-- A slew to mode `m` begins: both dies' set points go to its nominal. -/
def Power.toMode (m cause : Nat) (p : Power) : Power :=
  { p with mode := m, slew := some ⟨p.mode, m, cause⟩, setW := nominalMv m, setE := nominalMv m, fromW := p.setW, fromE := p.setE
           avsTries := [], slowW := none, slowE := none, fastW := none, fastE := none, limited := [], under := 0 }

/-- Decides for a mode: one mode at a time, after any slew that runs (R508). -/
def Power.want (target cause : Nat) (p : Power) : Power :=
  if p.slew.isSome then { p with waiting := some (target, cause) }
  else if target = p.mode then { p with waiting := none }
  else
    let m := if p.mode < target then p.mode + 1 else p.mode - 1
    { p.toMode m cause with waiting := if m = target then none else some (target, cause) }

/-- The work of POWER_CAP_SET ends after three windows, with the slews they cause (R509). -/
def State.capDone (s : State) : State :=
  match s.power.capWait with
  | none => s
  | some n =>
    if 3 ≤ n ∧ s.power.slew.isNone = true ∧ s.power.waiting.isNone = true then
      (s.modPower (fun p => { p with capWait := none })).finishWork (fun w => w == .powerCap) stOk 0 []
    else s

/-- SLEW_DONE (R508, R515, R517): a mode change posts EV_POWER_MODE and writes its record; a decision that waited begins. DEDUCED (log 82).
-/
def State.slewDone (s : State) : State :=
  match s.power.slew with
  | none => s
  | some x =>
    let s := s.modPower (fun p => { p with slew := none, fromW := p.setW, fromE := p.setE })
    let s := if x.old = x.new then s else
      (s.postPfs 0x0701 0 (toLe 1 x.new ++ toLe 1 x.old ++ toLe 1 x.cause ++ [0, 0, 0, 0, 0] ++ toLe 8 s.devNow.toNat)).ledgerAdd 0x0010 0
        (toLe 1 x.new ++ toLe 1 x.old ++ toLe 1 x.cause)
    let s := match s.power.waiting with
      | none => s
      | some (t, c) => s.modPower (fun p => ({ p with waiting := none }).want t c)
    s.capDone

/-- SLEW_DONE (R508). DESIGN CHOICE (log 11). -/
def execSlewDone (s : State) : Outcome := done s.slewDone

/-! ## Capping (R509) -/

/-- The slowest mode a thermal level forces (R511). -/
def forcedMode (level : Nat) : Nat := if level < 2 then 0 else if level = 2 then 1 else 2

/-- EV_CAP_EXCESS and its record, with the measured average of the last three windows. -/
def State.capExcess (s : State) : State :=
  let p := s.power
  let avg := p.recent.foldl (· + ·) 0 / (max 1 p.recent.length)
  let s := s.modPower (fun p => { p with excessAt := some p.windows })
  (s.postInfra 0x0703 0 (toLe 2 p.capW ++ toLe 2 avg ++ toLe 1 p.mode)).ledgerAdd 0x0011 0 (toLe 2 p.capW ++ toLe 2 avg)

/-- Package input power of the window that ends, in W: the sum over rails of the average of voltage × current, as far as rails have been sampled in
it; without a sample it is `w` (R506). DESIGN CHOICE (log 145). -/
def Power.package (p : Power) (w : Nat) : Nat :=
  if p.railSum.isEmpty then w else (p.railSum.foldl (fun a e => a + e.2.1 / max 1 e.2.2) 0) / 1000000

/-- POWER_WINDOW (R464, R506, R509): a 1 ms window ends with its average power. The cap moves no mode until step 10; once it is removed, a
window counts towards a faster mode up to the cap that was. A cap that forbids the mode in force moves no mode by itself: only windows do.
DEDUCED (log 82). DESIGN CHOICE (log 145, 147). -/
def State.powerWindow (w : Nat) (s : State) : State :=
  let p := s.power
  let w := p.package w
  let above := p.capW != 0 && decide (p.capW < w)
  let below := if p.capW = 0 then p.capWas == 0 || decide (w ≤ p.capWas) else decide (w * 100 ≤ p.capW * 85)
  let p := { p with
    railSum := []
    windows := p.windows + 1, overN := if above then p.overN + 1 else 0, under := if below && p.mode != 0 then p.under + 1 else 0
    recent := (p.recent ++ [w]).drop (p.recent.length - 2), excessAt := if above then p.excessAt else none
    capWait := p.capWait.map (· + 1) }
  let s := { s with power := p }
  let s :=
    if s.boot.stage != .ready then s
    else if 3 ≤ p.overN then
      if p.mode < p.limit then
        if p.slew.isSome && p.waiting.isSome then s
        else
          let hold := match p.upAt with
            | some u => decide (p.windows ≤ u + 1000)
            | none => false
          s.modPower (fun p => ({ p with overN := 0, holdTo := if hold then p.windows + 10000 else p.holdTo, upAt := none }).want (p.mode + 1) 1)
      else
        let again := match p.excessAt with
          | none => true
          | some e => decide (e + 1000 ≤ p.windows)
        if again then s.capExcess else s
    else if 100 ≤ p.under ∧ p.mode ≠ 0 ∧ forcedMode p.level ≤ p.mode - 1 ∧ p.holdTo ≤ p.windows ∧ (p.slew.isNone || p.waiting.isNone) = true then
      s.modPower (fun p => ({ p with upAt := some p.windows, under := 0 }).want (p.mode - 1) 3)
    else s
  s.capDone

/-- POWER_WINDOW (R509). -/
def execPowerWindow (watts : Nat) (s : State) : Outcome := done (s.powerWindow watts)

/-! ## Thermal levels (R511, R512) -/

/-- Enter and leave temperatures of a level, in m°C. -/
def enterAt (level : Nat) : Int := if level = 1 then 95000 else if level = 2 then 105000 else if level = 3 then 115000 else 120000
def leaveBelow (level : Nat) : Int := if level = 1 then 90000 else if level = 2 then 100000 else if level = 3 then 105000 else 95000

/-- The thermal sites sampled so far. -/
def State.sites (s : State) : List (Nat × Int) := (s.power.samples.filter (fun e => decide (e.1 < 64))).map (fun e => (e.1, e.2.1))
/-- The hottest site and its temperature; the lowest-numbered of equals. -/
def State.hottest (s : State) : Nat × Int :=
  match s.sites with
  | [] => (0, 0)
  | e :: es => es.foldl (fun a x => if a.2 < x.2 then x else a) e

/-- Goes to the mode `f` where the present mode is faster, keeping the one before (R511, R512); a decision that waits for a faster mode than
`f` goes no further than `f`. DEDUCED (log 83). -/
def Power.force (f : Nat) (p : Power) : Power :=
  if p.mode < f then ({ p with before := p.before.or (some p.mode) }).want f 2
  else
    match p.waiting with
    | none => p
    | some (t, c) =>
      if t < f then { p with before := p.before.or (some t), waiting := if p.mode = f then none else some (f, c) } else p

/-- The mode that the present level forces (R511). Until step 10 the core supply stays as the boot holds it (R464). DEDUCED (log 83). -/
def State.forceMode (s : State) : State :=
  if s.boot.stage == .ready then s.modPower (Power.force (forcedMode s.power.level)) else s

/-- The level changes: EV_THERMAL, the record, and the modes it forces or releases (R511, R512). DEDUCED (log 83). -/
def State.levelTo (n : Nat) (s : State) : State :=
  let old := s.power.level
  let h := s.hottest
  let s := s.modPower (fun p => { p with level := n })
  let t := toLe 4 (unsigned 32 h.2)
  let s := (s.postPfs 0x0702 h.1 (toLe 1 n ++ toLe 1 old ++ [1, 0] ++ t)).ledgerAdd 0x0012 h.1 (toLe 1 n ++ toLe 1 old ++ [0, 0] ++ t)
  let f := forcedMode n
  if old < n then s.forceMode
  else
    match s.power.before with
    | none => s
    | some b => s.modPower (fun p => ({ p with before := if f ≤ b then none else p.before }).want (max f b) 3)

/-- Rises to the highest level whose condition two consecutive samples of a site meet. DEDUCED (log 83). -/
def State.heat (t : Int) (s : State) : State :=
  let n := if enterAt 4 ≤ t then 4 else if enterAt 3 ≤ t then 3 else if enterAt 2 ≤ t then 2 else if enterAt 1 ≤ t then 1 else 0
  if s.power.level < n then s.levelTo n else s

/-- Falls one level whose leave condition has held for 1 s. -/
def State.cool (s : State) : State :=
  let l := s.power.level
  match Tab.find l s.power.cool with
  | none => s
  | some t => if l ≠ 0 ∧ t + 1000000000 ≤ s.clock.now then s.levelTo (l - 1) else s

/-- Since when every site has been below each level's leave value. -/
def State.coolMarks (s : State) : State :=
  let hot := s.hottest.2
  s.modPower (fun p => { p with cool := (List.range 4).filterMap (fun i =>
    if hot < leaveBelow (i + 1) then some (i + 1, p.cool.getD (i + 1) s.clock.now) else none) })

/-! ## Set points (R507, R557) -/

def Power.setOf (p : Power) (d : Nat) : Nat := if d = 0 then p.setW else p.setE
def Power.toSet (d mv : Nat) (p : Power) : Power := if d = 0 then { p with setW := mv } else { p with setE := mv }
/-- The slowest sampled monitor of a die. -/
def State.slowest (s : State) (d : Nat) : Option Int :=
  let xs := (s.power.samples.filter (fun e => decide (64 + 48 * d ≤ e.1) && decide (e.1 < 112 + 48 * d))).map (fun e => e.2.1)
  match xs with
  | [] => none
  | x :: xs => some (xs.foldl min x)

/-- A new set point of a die: a slew within the mode, with a target for its regulator. -/
def Power.moveSet (d mv : Nat) (p : Power) : Power :=
  if p.avsTries.getD d 0 = 3 then p
  else { (p.toSet d mv) with fromW := p.setW, fromE := p.setE, slew := some ⟨p.mode, p.mode, 0⟩, avsTries := Tab.set d 0 p.avsTries }

/-- Judges a die's slowest monitor against the floor in effect, in a slew the slower mode's (R6): raises, lowers or reports its set point
(R507). DEDUCED (log 82, 83). -/
def State.judgeDie (d : Nat) (s : State) : State :=
  match s.slowest d with
  | none => s
  | some x =>
    let p := s.power
    let f : Int := floorRate p.pmode
    let now := s.clock.now
    let slow := if x * 100 < f * 104 then some ((if d = 0 then p.slowW else p.slowE).getD now) else none
    let fast := if f * 110 < x * 100 then some ((if d = 0 then p.fastW else p.fastE).getD now) else none
    let due := fun (t : Option Nat) (ns : Nat) => match t with
      | some t => decide (t + ns ≤ now)
      | none => false
    let put := fun (slow fast : Option Nat) (p : Power) =>
      if d = 0 then { p with slowW := slow, fastW := fast } else { p with slowE := slow, fastE := fast }
    let top := decide (highestMv p.mode ≤ p.setOf d)
    let limit := top && decide (x * 100 < f * 102)
    let s := if limit && !p.limited.contains d then
        let m := toLe 4 (unsigned 32 x)
        (s.postPfs 0x0702 d ([1] ++ toLe 1 p.level ++ [2, 0] ++ m)).ledgerAdd 0x0013 d (m ++ toLe 2 (p.setOf d))
      else s
    let s := s.modPower (fun p => { p with limited := if limit then (p.limited.filter (· != d)) ++ [d] else p.limited.filter (· != d) })
    if p.slew.isSome || s.boot.stage != .ready then s.modPower (put slow fast)
    else if due slow 100000 && !top then s.modPower (fun p => put none fast (p.moveSet d (min (highestMv p.mode) (p.setOf d + 5))))
    else if due fast 10000000 && decide (nominalMv p.mode < p.setOf d) then s.modPower (fun p => put slow none (p.moveSet d (max (nominalMv p.mode) (p.setOf d - 5))))
    else s.modPower (put slow fast)

/-- AVS_TARGET_RETRY (R557): a regulator has not reported its target; it is sent twice more, then the set point stays as reported until the
next mode decision. -/
def execAvsTargetRetry (half : Half) (reported : Option Nat) (s : State) : Outcome :=
  let n := s.power.avsTries.getD half 0
  if s.power.slew.isNone || n == 3 then done s
  else if n < 2 then done (s.modPower (fun p => { p with avsTries := Tab.set half (n + 1) p.avsTries }))
  else
    done (s.modPower (fun p =>
      let p := { p with avsTries := Tab.set half 3 p.avsTries }
      match reported with
      | none => p
      | some mv => p.toSet half mv))

/-! ## Holdup and Hearth's restart (R510, R513, R517) -/

/-- PWR_HOLDUP_N is asserted; Hearth acts on it while it has standby power (R510, R566). DEDUCED (log 84). -/
def State.holdup (s : State) : State :=
  if !s.boot.holdupN then s
  else
    let s := { s with boot := { s.boot with holdupN := false } }
    if s.boot.stbyGood then ((s.ledgerAdd 0x0014 0 [1]).ledgerFlush).postPfs 0x0704 0 [1] else s

/-- PWR_HOLDUP_N (R510). -/
def execPwrHoldupN (s : State) : Outcome := done s.holdup

/-- HOLDUP_DEASSERT (R517). -/
def execHoldupDeassert (s : State) : Outcome :=
  if s.boot.holdupN then done s else done (({ s with boot := { s.boot with holdupN := true } }).postPfs 0x0704 0 [0])

/-- HEARTH_RESTART (R481, R513): buffered Ledger records are lost and counted, NEXT_OFFSET goes back to the last PROGRESS record, and what
Hearth's software held is gone. DEDUCED (log 84). -/
def execHearthRestart (watchdog : Bool) (s : State) : Outcome :=
  if s.boot.stage == .off then done s
  else
    let s := { s with
      ledger := { s.ledger with lost := s.ledger.lost + s.ledger.buf.length, buf := [] }
      boot := { s.boot with challenge := none }
      mgmt := { s.mgmt with spdmOk := [], spdm12 := [], large := [] } }
    done (s.updBack.ledgerAdd 0x0002 0 (toLe 1 (if watchdog then 1 else 2)))

end Sys2Proof.Machine
end

