-- ==== Sys2Proof/Machine/Image.lean ====
section
/-! DEFINITION. Images: the manifest and its verification (R455 to R459), and the microcode image with its checks (R444, R445). -/

namespace Sys2Proof.Machine

open Sys2Proof

/-! ## The manifest (R455 to R457) -/

/-- A slot's manifest header. -/
structure Manifest where
  tag     : BitVec 64
  len     : Nat
  blocks  : Nat
  setsFormat : Nat
  stepMask : Nat
  ownerSigned : Bool
  ok      : Bool
  deriving DecidableEq, Repr

/-- Reads the manifest header of a slot; `ok` says that MAGIC, FORMAT, PART_COUNT, BLOCK_COUNT and IMAGE_LEN are right (R456). -/
def State.manifest (s : State) (slot : Nat) : Manifest :=
  let h := s.flashRead (slotBase slot) 64
  let n := le h 20 2
  { tag := BitVec.ofNat 64 (le h 8 8), len := le h 16 4, blocks := n, setsFormat := le h 22 2, stepMask := le h 24 4
    ownerSigned := bit (le h 28 1) 0
    ok := le h 0 4 == 0x54464E4D && le h 4 2 == 1 && le h 6 2 == 6 && decide (1 ≤ n) && decide (n ≤ 191) && le h 16 4 == 0x4000 + 65536 * n }

/-- A part of the image (R457). -/
structure Part where
  kind   : Nat
  first  : Nat
  blocks : Nat
  len    : Nat
  version : Nat
  deriving DecidableEq, Repr

/-- The six entries of a slot's part directory. -/
def State.parts (s : State) (slot : Nat) : List Part :=
  let d := s.flashRead (slotBase slot + 0x40) 192
  (List.range 6).map (fun i =>
    { kind := le d (32 * i) 1, first := le d (32 * i + 2) 2, blocks := le d (32 * i + 4) 2, len := le d (32 * i + 8) 4,
      version := le d (32 * i + 12) 4 })

def State.partOf (s : State) (slot kind : Nat) : Option Part := (s.parts slot).find? (fun p => p.kind == kind)

/-- The directory holds one entry for each kind, every body block belongs to exactly one part, and the parts keep their sizes (R457).
DEDUCED (log 80). -/
def State.directoryOk (s : State) (slot : Nat) : Bool :=
  let ps := s.parts slot
  let n := (s.manifest slot).blocks
  [1, 2, 3, 4, 5, 6].all (fun k => ps.countP (fun p => p.kind == k) == 1) &&
  allZero (s.flashRead (slotBase slot + 0x100) 832) &&
  ps.all (fun p => decide (1 ≤ p.blocks) && decide (p.first + p.blocks ≤ n) && decide (p.len ≤ 65536 * p.blocks)) &&
  (List.range n).all (fun b => ps.countP (fun p => decide (p.first ≤ b) && decide (b < p.first + p.blocks)) == 1) &&
  ps.all (fun p => (p.kind != 1 || decide (p.blocks ≤ 4)) && (p.kind != 2 || decide (p.blocks ≤ 16)))

/-! ## Signatures and hashes (R458, R459) -/

/-- A signature block is accepted against a fused digest, over a message. -/
def sigOk (block digest msg : Bytes) : Bool :=
  sha384 (slice block 4 96) == digest && ecdsaVerify (slice block 4 96) msg (slice block 100 96)

/-- The Molgori block names a root key slot whose digest is fused and not revoked, and verifies (R458). -/
def State.rootSigOk (s : State) (block msg : Bytes) : Bool :=
  let k := le block 0 4
  decide (k < 4) && !bit s.boot.revoked k && match Tab.find k s.boot.roots with
    | none => false
    | some d => sigOk block d msg

/-- A block signed with the owner key (R458). -/
def State.ownerSigOk (s : State) (block msg : Bytes) : Bool :=
  le block 0 4 == 0 && match s.boot.owner with
    | none => false
    | some d => sigOk block d msg

/-- The signature blocks of a slot are accepted: Molgori's always, the owner's whenever an owner digest is installed (R458). -/
def State.signaturesOk (s : State) (slot : Nat) : Bool :=
  let signed := s.flashRead (slotBase slot) 0x3C00
  s.rootSigOk (s.flashRead (slotBase slot + 0x3C00) 256) signed &&
  (s.boot.owner.isNone || ((s.manifest slot).ownerSigned && s.ownerSigOk (s.flashRead (slotBase slot + 0x3D00) 256) signed))

/-- A body block matches the hash table. -/
def State.blockOk (s : State) (slot i : Nat) : Bool :=
  sha384 (s.flashRead (slotBase slot + 0x4000 + 65536 * i) 65536) == s.flashRead (slotBase slot + 0x500 + 48 * i) 48

/-- The first block of a part that does not match (R459). -/
def State.badBlock (s : State) (slot kind : Nat) : Option Nat :=
  match s.partOf slot kind with
  | none => some 0
  | some p => ((List.range p.blocks).map (· + p.first)).find? (fun i => !s.blockOk slot i)

/-- What the first stage checks of a slot (R459): the manifest, the directory, the stepping, the signatures and BOOT2. Answers the failing
part and block, part 0 for the manifest. DEDUCED (log 80). -/
def State.firstCheck (s : State) (slot : Nat) : Option (Nat × Nat) :=
  let m := s.manifest slot
  if !m.ok || !s.directoryOk slot || !bit m.stepMask s.boot.stepping || !s.signaturesOk slot then some (0, 0)
  else (s.badBlock slot 1).map (fun b => (1, b))

/-- The whole image verifies (R459, R467). -/
def State.imageOk (s : State) (slot : Nat) : Bool :=
  (s.firstCheck slot).isNone && [2, 3, 4, 5, 6].all (fun k => (s.badBlock slot k).isNone)

/-- The bytes of a part. -/
def State.partBytes (s : State) (slot kind : Nat) : Bytes :=
  match s.partOf slot kind with
  | none => []
  | some p => s.flashRead (slotBase slot + 0x4000 + 65536 * p.first) p.len

/-- VERSION of a part of the running image. -/
def State.partVersion (s : State) (kind : Nat) : Nat := match s.partOf s.boot.slot kind with
  | none => 0
  | some p => p.version

/-! ## The microcode image (R444) -/

/-- The microcode key kind of the life-cycle state: manufacturing, production or analysis (R470). DEDUCED (log 80). -/
def mcKeyKind (lc : Nat) : Nat := if lc = 0 then 0 else if lc = 4 then 2 else 1

/-- A segment entry, 48 bytes. -/
def mcEntry (img : Bytes) (i : Nat) : Bytes := slice img (64 + 48 * i) 48
/-- A segment's plaintext, or none where its tag fails (R444). -/
def mcPlain (img key e : Bytes) : Option Bytes :=
  let aad := slice img 0 64 ++ putBytes e 28 (List.replicate 16 0)
  let r := aeadOpen 1 key (slice e 16 12) aad (slice img (le e 4 4) (le e 8 4)) (slice e 28 16)
  if r.2 then some r.1 else none

/-- Words of 20 bytes at `addr` on, put into a store; zero words are not listed. -/
def putWords (addr n : Nat) (bs : Bytes) (st : Tab (BitVec 160)) : Tab (BitVec 160) :=
  (List.range n).foldl (fun st i =>
    let w := BitVec.ofNat 160 (le bs (20 * i) 20)
    if w = 0 then Tab.del (addr + i) st else Tab.set (addr + i) w st) st

/-- Applies a patch's records in order; none where one is torn, has a reserved bit, or runs past the store (R444, R445). -/
def applyPatch (size : Nat) : Nat → Bytes → Tab (BitVec 160) → Option (Tab (BitVec 160))
  | 0, _, _ => none
  | _, [], st => some st
  | fuel + 1, bs, st =>
    let h := le bs 0 4
    let a := h % 8192
    let n := h / 65536
    if bs.length < 4 + 20 * n ∨ bits h 13 3 ≠ 0 ∨ size < a + n then none
    else applyPatch size fuel (bs.drop (4 + 20 * n)) (putWords a n (bs.drop 4) st)

/-- The checks of R445 on the word at an address: what of R426 to R432 it may hold, and that every address it names lies within the store
(R427, R439). -/
def wordOk (kind addr : Nat) (w : BitVec 160) : Bool :=
  let f := mwField w
  let cond := fun (c : Nat) => !(decide (14 ≤ c) && decide (c ≤ 16)) && !(decide (40 ≤ c) && decide (c ≤ 47))
  let port := fun (lo : Nat) => spaceOk kind (f (lo + 2) 4) && (f lo 2 == 0 || f lo 2 == 3 || decide (f (lo + 16) 3 ≤ 3))
  let bsel := f 13 4
  decide (f 152 8 = 0) && decide (bsel ≤ 8) && f 46 4 != 15 && decide (f 50 6 < 40) && decide (f 56 6 < 40) && cond (f 17 6) && cond (f 23 6) &&
  port 99 && port 118 && decide (f 0 13 < storeSize kind) && (!(([1, 2, 3, 6] : List Nat).contains bsel) || decide (addr + 1 < storeSize kind)) &&
  (bsel != 4 || f 0 13 % 16 == 0) && (bsel != 5 || (f 0 13 % 64 == 0 && f 141 4 != 0)) && decide (f 42 3 ≤ 5) &&
  !(f 46 4 != 0 && f 141 4 != 0 && f 62 5 == f 145 5) && !(f 23 6 == 0 && f 29 1 == 1 && f 67 16 == 0)

/-- The store of a kind that a microcode image gives, or none where the image is refused (R445, R446). -/
def mcStore (img key : Bytes) (kind stepping : Nat) : Option (Tab (BitVec 160)) :=
  let es := (List.range (le img 6 2)).map (mcEntry img)
  let size := storeSize kind
  match es.filter (fun e => le e 0 1 == kind) with
  | [b] =>
    match mcPlain img key b with
    | none => none
    | some p =>
      if size < le b 12 4 ∨ p.length ≠ 20 * le b 12 4 then none
      else
        let base := putWords 0 (le b 12 4) p []
        let st := (es.filter (fun e => le e 0 1 == 16 + kind)).foldl (fun st e =>
          match st, mcPlain img key e with
          | some st, some p =>
            match applyPatch size (p.length + 1) p st with
            | none => none
            | some st' => some (if le e 1 1 = 0xFF ∨ le e 1 1 = stepping then st' else st)
          | _, _ => none) (some base)
        match st with
        | none => none
        | some st => if st.all (fun e => wordOk kind e.1 e.2) then some st else none
  | _ => none

/-- The header and entries of a microcode image are right (R444, R445). -/
def mcHeaderOk (img : Bytes) (stepping : Nat) : Bool :=
  let n := le img 6 2
  le img 0 4 == 0x4D43594C && le img 4 2 == 1 && decide (3 ≤ n) && decide (n ≤ 255) && bit (le img 12 4) stepping && allZero (slice img 18 46) &&
  ((List.range n).map (mcEntry img)).all (fun e =>
    [0, 1, 2, 16, 17, 18].contains (le e 0 1) && allZero (slice e 2 2) && allZero (slice e 44 4) &&
    (decide (16 ≤ le e 0 1) || le e 1 1 == 0xFF) && (decide (le e 0 1 < 16) || le e 12 4 == 0))

/-- The three control stores of the running slot's microcode, or none where it is refused (R444 to R446). -/
def State.microcode (s : State) (slot : Nat) : Option (List (Tab (BitVec 160))) :=
  let img := s.partBytes slot 4
  match Tab.find (mcKeyKind s.boot.lc * 65536 + le img 16 2) s.boot.mcKeys with
  | none => none
  | some key =>
    if !mcHeaderOk img s.boot.stepping then none
    else [0, 1, 2].mapM (fun k => mcStore img key k s.boot.stepping)

end Sys2Proof.Machine
end

