-- ==== Sys2Proof/Machine/Boot.lean ====
section
/-! DEFINITION. Starts of the device (R449 to R467, R561 to R567), the settings copies (R490 to R492), and the resets POR and DEVICE_WARM
(R539, R543). -/

namespace Sys2Proof.Machine

open Sys2Proof

/-! ## The settings copy in use (R490 to R492) -/

/-- The copy in use: factory settings before a start has chosen one. -/
def State.setCopy (s : State) : SetCopy := match s.sets.inUse with
  | none => {}
  | some i => s.sets.copies.getD i {}
/-- The valid copy, of those that `keep` admits, whose IMAGE_SEQ is newest (R490, R491). -/
def State.newestOf (keep : SetCopy → Bool) (s : State) : Option (Nat × SetCopy) :=
  (s.sets.copies.filter (fun e => e.2.valid && keep e.2)).foldl (fun a e => match a with
    | none => some e
    | some b => if seqNewer e.2.seq b.2.seq then some e else a) none
/-- The valid copy whose IMAGE_SEQ is newest. DEDUCED (log 87). -/
def State.newestCopy (s : State) : Option (Nat × SetCopy) := s.newestOf (fun _ => true)
/-- The copy belongs to a slot that is revoked, or that a rollback revokes: its settings are discarded (R452, R492). -/
def State.copyGone (s : State) (c : SetCopy) : Bool :=
  [0, 1].any (fun slot => s.armed slot && s.slotSeq slot == c.seq && (s.revokeMark slot || (s.trialMark slot && !s.commitMark slot)))
/-- The copy in force where no start has chosen one: the newest that no rollback discards (R39, R492). DEDUCED (log 87). -/
def State.porCopy (s : State) : Option (Nat × SetCopy) := s.newestOf (fun c => !s.copyGone c)

/-- A settings write that is not lost to a loss of power (R490, R493). -/
def State.modCopy (i : Nat) (f : SetCopy → SetCopy) (s : State) : State :=
  s.flashOp (fun s => { s with sets := { s.sets with copies := s.sets.copies.upd i {} f } })

/-- A write of a settings entry by Hearth: to the copy in use; before the start has chosen one, to the copy in force, except that a trial's start
keeps it for the copy it is to get, as does a device without a valid copy (R46, R492). DEDUCED (log 97). -/
def State.putSetting (w : SetWrite) (s : State) : State :=
  match s.sets.inUse, s.porCopy with
  | some i, _ => s.modCopy i (SetCopy.put w)
  | none, some e => if s.boot.trial then { s with sets := { s.sets with later := s.sets.later ++ [w] } } else s.modCopy e.1 (SetCopy.put w)
  | none, none => { s with sets := { s.sets with later := s.sets.later ++ [w] } }

/-- A cap applies: from step 8 of a start on (R464, R509). -/
def State.capOn (s : State) : Bool := s.boot.stage == .ready || decide (8 ≤ s.boot.step)

/-- A power cap is set: the settings store keeps it, and it is judged from the next window on where a cap applies already. CAP_W 0 removes the one
before. DEDUCED (log 82). -/
def State.setCap (watts limit : Nat) (s : State) : State :=
  let s := s.putSetting (.cap watts limit)
  if !s.capOn then s
  else s.modPower (fun p => { p with
    capWas := if watts ≠ 0 then 0 else if p.capW = 0 then p.capWas else p.capW
    capW := watts, limit := limit, overN := 0, under := 0, excessAt := none })

/-- A start's copy is chosen: writes that waited for it are made (R492). -/
def State.useCopy (i : Nat) (s : State) : State :=
  let ws := s.sets.later
  s.each (fun w => State.modCopy i (SetCopy.put w)) ws |> fun s => { s with sets := { s.sets with inUse := some i, later := [] } }

/-- Chooses the copy a start uses (R491), for an image's SEQ and SETTINGS_FORMAT; none where the source is of a newer format. A new copy is erased,
its entries are written, and its header last (R490). DEDUCED (log 87). DESIGN CHOICE (log 1): LENGTH is a free value. -/
def State.chooseCopy (seq format : Nat) (s : State) : Option State :=
  match s.sets.copies.find? (fun e => e.2.valid && e.2.seq == seq) with
  | some e => some (s.useCopy e.1)
  | none =>
    let src := s.newestCopy
    let i := match src with
      | none => 0
      | some e => 1 - e.1
    let c := match src with
      | none => ({} : SetCopy)
      | some e => e.2
    if src.isSome && decide (format < c.format) then none
    else
      let d := s.draw
      let h := setHeader format seq (d.1.toNat % 65537)
      let s := d.2.flashOp (fun s => { s with sets := { s.sets with copies := Tab.del i s.sets.copies } })
      some (((s.modCopy i (fun _ => { c with hdr := [] })).modCopy i (fun c => { c with hdr := h })).useCopy i)

/-- A settings write goes to the copy in use (R492). -/
def State.writeSet (f : SetCopy → SetCopy) (s : State) : State :=
  match s.sets.inUse with
  | none => s
  | some i => s.modCopy i f

/-- Puts the settings into force (R39, R92, R93, R171, R509): link grants, infrastructure list, port settings, the power cap. -/
def State.applySettings (s : State) : State :=
  let c := s.setCopy
  let nps := (List.range 16).foldl (fun t n =>
    let p := c.ports.getD n (0, false)
    let np : Np := { breakout := p.1, enable := p.2, media := c.media.getD n 0 }
    Tab.set n np t) ([] : Tab Np)
  { s with
    hif := { s.hif with grants := c.grants, infra := c.infra }
    net := { s.net with nps := nps }
    power := { s.power with capW := c.capW, limit := c.limit } }

/-! ## Host links (R39, R463) -/

/-- The PHY of a link is held in reset: the dies are held or without power, its half is held, or its clock is missing (R465, R467, R535, R540,
R561). -/
def State.phyHeld (s : State) (l : Nat) : Bool :=
  !s.boot.mainGood || (s.boot.stage != .first && s.boot.stage != .second && s.boot.stage != .released && s.boot.stage != .ready) ||
    (decide (8 ≤ l) && s.rel.heldE) || (decide (l < 8) && s.rel.heldW) || s.hostClkLost l

/-- The links of a half that are left as a reset of their PHYs leaves them: those whose PERST# is deasserted train (R463). -/
def State.trainLinks (h : Nat) (s : State) : State :=
  { s with links := s.links.mapV (fun l k => if l / 8 = h then { k with training := !k.perst && !k.up && !s.phyHeld l } else k) }

/-- Every link is as the reset of its PHY leaves it. -/
def State.linksOff (s : State) : State := { s with links := s.links.mapV (fun _ l => { perst := l.perst }) }

/-- Bifurcation as the settings store holds it, which a POR reads (R39): in the copy of the image that starts, or in the one in force.
DEDUCED (log 87). -/
def State.storedBifs (s : State) : List Nat :=
  let own := if s.boot.stage = .second then s.sets.copies.find? (fun e => e.2.valid && e.2.seq == s.runningSeq) else none
  let c := match own.or s.porCopy with
    | none => ({} : SetCopy)
    | some e => e.2
  (s.sets.later.foldl (fun c w => if s.boot.trial then c else SetCopy.put w c) c).bifs

/-! ## POR and DEVICE_WARM (R539, R543) -/

/-- Retirements are applied to what a start brings up (R521): lanes, threads of retired cores. -/
def State.applyMap (s : State) : State :=
  let lanes := (s.rel.retired.filter (fun r => resKind r == 1)).foldl (fun t r => Tab.set (resIdx r) ({ retired := true } : Lane) t) ([] : Tab Lane)
  let s := { s with net := { s.net with lanes := lanes } }
  s.each (fun r s => if resKind r = 7 then
    s.each (fun t => State.modThread t (fun th => { th with state := .lost })) (threadsOf (resIdx r)) else s) s.rel.retired

/-- What a POR, a DEVICE_WARM or a start that fails leaves (R465, R543): everything at its start value but Hearth's standby domain, the flash and
the fuses; the compute dies stay in reset until the start releases them. A POR alone samples bifurcation (R39) and ends an alarm (R373). DEDUCED
(log 85). -/
def State.dieReset (por : Bool) (stage : BootStage) (s : State) : State :=
  let r := State.reset
  let seed := s.free + 1
  let bifs := if por then s.storedBifs else s.hif.bifurcated
  let s' : State := { r with
    clock := { now := s.clock.now, missing := s.clock.missing }
    hif := { bifurcated := bifs }
    links := s.linksOff.links
    rel := { retired := s.rel.retired, buckets := s.rel.buckets, degraded := s.rel.degraded, spared := s.rel.spared
             d2d := s.rel.d2d.mapV (fun _ x => { x with since := s.clock.now }) }
    ledger := s.ledger
    sets := { s.sets with inUse := none, later := if s.boot.trial then [] else s.sets.later }
    cry := { kiks := s.cry.kiks, state := if por then .ready else s.cry.state, alarmAt := s.cry.alarmAt }
    boot := { s.boot with
      stage := stage, isPor := por, trial := false, fallback := false, serialOk := false, parts := 0, release := 0, cpStatus := 0, step := 0
      badCores := [], badEngines := [], progs := [], coresW := false, coresE := false, hwMeas := [], fwMeas := []
      debugLc := if por then none else s.boot.debugLc }
    upd := { s.upd with decided := false, told := [] }
    power := { s.power with
      mode := 0, slew := none, waiting := none, setW := 780, setE := 780, fromW := 780, fromE := 780, avsTries := [], capW := 0
      capWas := 0, railSum := [], limit := 2, overN := 0, under := 0
      recent := [], upAt := none, holdTo := 0, excessAt := none, capWait := none, before := none, slowW := none, slowE := none
      fastW := none, fastE := none, limited := [] }
    mgmt := s.mgmt
    out := s.out
    free := seed
    pending := s.pending
    off := { seedW := seed, seedE := seed, cores := (List.range 128).map (fun c => (c, ({ seed := seed } : Core)))
             stepsW := if por then 0 else s.off.stepsW, stepsE := if por then 0 else s.off.stepsE } }
  (s'.applyMap.updBack.trainLinks 0).trainLinks 1

/-- A start begins: POR or DEVICE_WARM; a RETIRED device runs only its first stage, and without standby power nothing runs (R468, R566). -/
def State.restart (por : Bool) (s : State) : State :=
  match s.boot.stage with
  | .off => s
  | .retired => s.dieReset por .retired
  | _ => s.dieReset por .first

/-- The compute dies are held in reset (R465, R466, R511, R566): hosts see every link go down. DEDUCED (log 85). -/
def State.holdDies (s : State) : State :=
  match s.boot.stage with
  | .off | .retired | .first | .recovery | .held => s.linksOff
  | _ => s.dieReset false .held

/-- STBY_PWRGD_FALL (R454, R521, R566, R567): everything resets and what standby power kept is lost, the boot failure mask and the
retirement map included. DEDUCED (log 85). -/
def State.standbyLost (s : State) : State :=
  let s := s.dieReset true .off
  { s with
    boot := { s.boot with stbyGood := false, failMask := 0, sessions := 0, challenge := none }
    rel := {}
    net := {}
    off := { seedW := s.free, seedE := s.free, cores := (List.range 128).map (fun c => (c, ({ seed := s.free } : Core))) }
    ledger := { s.ledger with buf := [], lost := 0 }
    power := {}
    mgmt := {} }

/-! ## Rows that are cut off (R466, R472, R493) -/

/-- DEVICE_WARM is due: the reset of a RESET_REQUEST whose time has come (R89). -/
def State.warmDue (s : State) : Bool := match s.hif.resetReq with
  | none => false
  | some r => r.domain == 0 && decide (r.at_ ≤ s.clock.now)
/-- The DEVICE_WARM of a RESET_REQUEST (R89, R539). -/
def State.deviceWarm (s : State) : State := (s.ledgerAdd 0x0105 0 [0, 1]).restart false

/-- What may cut a row off now. DEDUCED (log 143). DESIGN CHOICE (log 11). -/
def State.canCut (s : State) : Cut → Bool
  | .power => s.boot.stbyGood
  | .por => s.boot.mainGood
  | .warm => s.warmDue
/-- A cut takes place. -/
def State.cutBy (c : Cut) (s : State) : State := match c with
  | .power => s.standbyLost
  | .por => s.restart true
  | .warm => s.deviceWarm

/-- The flash, the fuses and the settings store as `t` has them, everything else as before: what a row that was cut off leaves. The next
record's JSEQ follows the latest valid one (R488). DEDUCED (log 143). -/
def State.keepFlash (t s : State) : State :=
  let s := { s with
    boot := { s.boot with
      flash := t.boot.flash, lcNew := t.boot.lcNew, lcSteps := t.boot.lcSteps, owner := t.boot.owner, mcKeys := t.boot.mcKeys
      recoverWp := t.boot.recoverWp, revoked := t.boot.revoked }
    sets := { t.sets with inUse := s.sets.inUse, later := s.sets.later }
    cry := { s.cry with kiks := t.cry.kiks }
    ledger := { s.ledger with ring := t.ledger.ring, pos := t.ledger.pos, next := t.ledger.next }
    upd := { s.upd with journal := t.upd.journal, jpos := t.upd.jpos } }
  match s.lastRec with
  | none => s
  | some r => { s with upd := { s.upd with jseq := if r.jseq = 0xFFFFFFFE then 0 else r.jseq + 1 } }

/-- The effect `f` of a row, or where `cut` cuts it off after so many flash and fuse operations, what of it they have done, and the cut itself (R466,
R472, R493). DEDUCED (log 143). -/
def State.orCut (cut : Option (Nat × Cut)) (f : State → State) (s : State) : State :=
  match cut with
  | none => f s
  | some (n, c) =>
    if s.canCut c then ((f { s with boot := { s.boot with flashLeft := some n } }).keepFlash s).cutBy c else f s

/-- The compute dies may run (R511, R561, R563, R566): main power and the west clock are good, no emergency holds them before step 10, and no
site is below 0 °C at a start. -/
def State.diesMayRun (s : State) : Bool :=
  s.boot.mainGood && !s.clock.missing.contains .sysWest && decide (s.power.level < 3) && s.sites.all (fun e => decide (0 ≤ e.2))

/-- A held device whose dies may run again starts at the first stage (R466, R511), as the POR that came meanwhile where one did (R563). -/
def State.unhold (s : State) : State := if s.boot.stage == .held && s.diesMayRun then s.restart s.boot.isPor else s

/-! ## Failing a slot (R454, R485) -/

/-- The slot is revoked: where the journal's latest BEGIN names it, REJECTED is appended with its reason and the update is REJECTED (R475,
R485). -/
def State.revoke (slot reason : Nat) (s : State) : State :=
  let s := s.setRevoke slot
  match s.beginRec with
  | none => s
  | some r => if r.slot = slot ∧ r.type ≠ 7 then (s.jAppend { r with type := 7, value := 0, reason := reason }).updTo 6 reason else s

/-- `fail_slot` (R454): the mask, REVOKE unless committed, and the Ledger record. DESIGN CHOICE (log 78). -/
def State.failSlot (slot part block reason : Nat) (s : State) : State :=
  let m := s.boot.failMask
  let s := { s with boot := { s.boot with failMask := if bit m slot then m else m + 2 ^ slot } }
  let s := if s.commitMark slot then s else s.revoke slot reason
  s.ledgerAdd 0x0021 slot (toLe 4 (s.slotSeq slot) ++ toLe 1 part ++ toLe 1 reason ++ toLe 2 block)

/-- A start fails after release (R465): the dies are held, the slot fails, and the first stage runs again. -/
def State.failStart (part reason : Nat) (s : State) : State :=
  let slot := s.boot.slot
  (s.dieReset false .first).failSlot slot part 0 reason

/-! ## The first stage (R452, R453, R459, R467) -/

/-- A slot on trial when the reset came is revoked (R452). -/
def State.rollback (s : State) : State :=
  s.each (fun slot s => if s.armed slot && s.trialMark slot && !s.commitMark slot && !s.revokeMark slot then s.revoke slot 7 else s) [0, 1]

def State.candidate (s : State) (slot : Nat) : Bool := s.armed slot && !s.revokeMark slot && !bit s.boot.failMask slot

/-- Slot B is preferred to slot A (R452). -/
def State.preferB (s : State) : Bool :=
  if seqNewer (s.slotSeq 1) (s.slotSeq 0) then true
  else if seqNewer (s.slotSeq 0) (s.slotSeq 1) then false
  else s.commitMark 1 && !s.commitMark 0

/-- What the debug port reaches in a life-cycle state, in the row order of R469. DEDUCED (log 99). -/
def reachMask (lc : Nat) : Nat := if lc = 0 ∨ lc = 4 then 15 else if lc = 3 then 7 else 1

/-- Measurement 9 (R502), with the update state it reports. -/
def State.hwConfig (upd : Nat) (s : State) : Bytes :=
  toLe 1 s.boot.lc ++ toLe 1 (reachMask s.boot.lc) ++ toLe 1 (b2n s.sets.ownerLock) ++ toLe 1 upd ++ toLe 1 s.boot.revoked ++ [0, 0, 0]
/-- Measurement 10 (R502). -/
def State.fwConfig (s : State) : Bytes :=
  toLe 4 s.runningSeq ++ toLe 8 (s.manifest s.boot.slot).tag.toNat ++ toLe 1 s.boot.slot ++ toLe 1 (b2n s.boot.trial) ++
  toLe 1 (b2n s.boot.fallback) ++ List.replicate 5 0
/-- The measurements of a start are taken (R502). -/
def State.takeMeas (s : State) : State :=
  { s with boot := { s.boot with hwMeas := s.hwConfig s.upd.state, fwMeas := s.fwConfig } }

/-- The recovery loader starts: a session is counted and entry recorded (R467). DEDUCED (log 79). -/
def State.enterRecovery (s : State) : State :=
  let n := s.boot.sessions
  ({ s with boot := { s.boot with stage := .recovery, sessions := n + 1, hwMeas := s.hwConfig 0xFF } }).linksOff.ledgerAdd 0x0022 (n % 2) [1]

/-- BOOT2 of a slot runs: the second stage begins. DESIGN CHOICE (log 78). -/
def State.bootSlot (slot : Nat) (s : State) : State :=
  { s with
    boot := { s.boot with
      stage := .second, slot := slot, trial := !s.trialMark slot && !s.commitMark slot, fallback := bit s.boot.failMask (1 - slot), parts := 2 } }

/-- The owner's material is erased: KIKs, digest and OWNER_LOCK (R471, R477). -/
def State.eraseOwner (s : State) : State :=
  s.flashOp (fun s =>
    { s with boot := { s.boot with owner := none }, cry := { s.cry with kiks := [] }, sets := { s.sets with ownerLock := false } })

/-- What is erased at a transition, which the first stage repeats where a loss of power has left it undone (R470, R471, R472). DESIGN CHOICE (log
96). -/
def State.lcErase (old new : Nat) (s : State) : State :=
  if (old = 2 ∨ old = 3) ∧ new = 1 ∨ new = 4 then s.eraseOwner
  else if new = 5 then
    let s := s.eraseOwner.flashOp (fun s => { s with boot := { s.boot with mcKeys := [] }, sets := {} })
    (s.flashErase (slotBase 0) 12582912).flashErase (slotBase 1) 12582912
  else s

/-- The first stage reads the fuses: a life-cycle state burnt since the last one takes effect, its erasures are completed, and the reach of
the debug port is fixed (R459, R469, R472). DEDUCED (log 143). -/
def State.takeLc (s : State) : State :=
  let s := match s.boot.lcNew with
    | none => s
    | some n => let old := s.boot.lc; ({ s with boot := { s.boot with lc := n, lcNew := none } }).lcErase old n
  { s with boot := { s.boot with debugLc := some s.boot.lc } }

/-- The first of two failing parts and blocks. -/
def earlier (a b : Option (Nat × Nat)) : Option (Nat × Nat) := match a, b with
  | some x, some y => if x.1 < y.1 ∨ x.1 = y.1 ∧ x.2 ≤ y.2 then some x else some y
  | a, b => a.or b

/-- What the first stage finds of a slot: the checks of R459, and a read of the flash that cannot be corrected, which fails the part and block it
meets (R459, R486). -/
def State.slotCheck (s : State) (bad : List (Fin 2 × Nat × Nat)) (slot : Nat) : Option (Nat × Nat) :=
  earlier (s.firstCheck slot) ((bad.find? (fun e => e.1.val == slot)).map (·.2))

/-- FIRST_STAGE (R452, R453, R459, R467, R468): `recoveryReqN` is RECOVERY_REQ_N as sampled, `bad` the reads of the flash that cannot be corrected, by
slot, part and block. Each candidate that fails is failed (R454, R459). -/
def State.firstStage (recoveryReqN : Bool) (bad : List (Fin 2 × Nat × Nat)) (s : State) : State :=
  if s.boot.stage != .first || !s.boot.stbyGood || s.clock.missing.contains .stby then s
  else
  let s := s.takeLc
  if s.boot.lc = 5 then ({ s with boot := { s.boot with stage := .retired } }).linksOff
  else if !recoveryReqN then s.enterRecovery
  else
    let s := s.rollback
    let a := s.candidate 0
    let b := s.candidate 1
    if !a && !b then s.enterRecovery
    else
      let pick := if a && b then (if s.preferB then 1 else 0) else if a then 0 else 1
      match s.slotCheck bad pick with
      | none => s.bootSlot pick
      | some (part, block) =>
        let s := s.failSlot pick part block 1
        if !(a && b) then s.enterRecovery
        else
          match s.slotCheck bad (1 - pick) with
          | none => s.bootSlot (1 - pick)
          | some (part, block) => (s.failSlot (1 - pick) part block 1).enterRecovery

/-- FIRST_STAGE (R452). -/
def execFirstStage (recoveryReqN : Bool) (s : State) (badReads : List (Fin 2 × Nat × Nat) := []) (cut : Option (Nat × Cut) := none) : Outcome :=
  done (s.orCut cut (State.firstStage recoveryReqN badReads))

/-! ## The release (R446, R460 to R463, R491, R535) -/

/-- West alone starts: no die-to-die link trained, or east's clock is missing (R535, R561). -/
def State.westAlone (s : State) : Bool := s.boot.d2dUp == 0 || s.clock.missing.contains .sysEast
def State.halvesUp (s : State) : List Nat := if s.westAlone then [0] else [0, 1]

/-- HRT_BOOT_INFO (R461). -/
def State.bootInfo (s : State) : Nat :=
  if s.boot.release = 0 then 0
  else s.boot.slot + 2 * b2n s.boot.trial + 4 * b2n s.boot.fallback + 8 * b2n s.boot.serialOk + 16 * s.boot.lc + 256 * (s.boot.stepping % 256)

/-- Writes a half's control stores from its golden copies, every engine STOPPED with its CRC computed; those of `bad` disagree (R446, R447). -/
def State.loadStores (bad : List EngineId) (h : Nat) (s : State) : State :=
  let s := s.each (fun e s => (s.modEngine e (fun x => { x.cleared with run := .stopped, csWe := false, bcast := false })).reloadStore e)
    ((List.range 50).filter (fun e => engHalf e == h))
  s.each (fun (e : EngineId) => State.storeFail e) (bad.filter (fun e => engHalf e == h))
/-- Sets RUN on the engines of a kind in a half. -/
def State.runKind (kind h : Nat) (s : State) : State := s.each State.runEngine (enginesOf kind h)

/-- Steps 1 to 4 of R462 on one half: stores, cipher schedulers and the cores' first tests, DMA engines, transport sequencers. -/
def State.startEngines (h : Nat) (s : State) : State :=
  let s := ((s.loadStores s.boot.badEngines h).runKind 2 h)
  let s := s.each State.katFail ((s.boot.badCores.filter (fun c => c / 20 == h && (s.cipherCores h).contains c)))
  let s := s.runKind 1 h
  if s.boot.serialOk then
    (s.runKind 0 h).modLrd (fun l => if h = 0 then { l with saltW := some (BitVec.ofNat 32 s.sets.bootSerial) }
      else { l with saltE := some (BitVec.ofNat 32 s.sets.bootSerial) })
  else s

/-- Steps 6 and 7 on one half: pipelines and offload cores are released. -/
def State.releaseHalf (h : Nat) (s : State) : State :=
  let s := s.each (fun n s => (s.modPipe n (fun q => { q with released := true })).freshSeed n) ((List.range 8).map (· + 8 * h))
  { s with boot := if h = 0 then { s.boot with coresW := true } else { s.boot with coresE := true } }

/-- Starts training on the enabled ports of a half (R171, R462 step 8). -/
def State.trainHalf (h : Nat) (s : State) : State := s.each State.portStart ((List.range 8).map (· + 8 * h))

def State.toStep (n : Nat) (s : State) : State := { s with boot := { s.boot with step := n, cpStatus := BitVec.ofNat 32 n } }

/-- The control processor goes on through the steps of R462 as the parts they wait for become valid. DEDUCED (log 81). DESIGN CHOICE (log
34). -/
def State.cpAdvance : Nat → State → State
  | 0, s => s
  | fuel + 1, s =>
    let has := fun (k : Nat) => bit s.boot.parts k
    let hs := s.halvesUp
    if s.boot.release % 2 = 0 then s
    else
      match s.boot.step with
      | 0 =>
        if !has 4 then s
        else
          match s.microcode s.boot.slot with
          | none => s.failStart 4 2
          | some cs =>
            let golden := [0, 1].foldl (fun t h => (List.range 3).foldl (fun t k => Tab.set (goldenKey h k) (cs.getD k []) t) t) ([] : Tab (Tab (BitVec 160)))
            let s := { s with micro := { s.micro with golden := golden } }
            let s := if s.cry.state == .ready then s.drawKwks else s
            cpAdvance fuel ((s.each State.startEngines hs).toStep 4)
      | 4 => if !has 6 then s else cpAdvance fuel (s.toStep 5)
      | 5 => if !has 5 then s else cpAdvance fuel ((s.each State.releaseHalf hs).toStep 7)
      | 7 =>
        match s.chooseCopy s.runningSeq (s.manifest s.boot.slot).setsFormat with
        | none => s.failStart 0 4
        | some s => cpAdvance fuel ((s.applySettings.each State.trainHalf hs).toStep 8)
      | 8 => if !has 2 then s else s.toStep 9
      | _ => s

/-- HRT_RELEASE (R288, R460, R462): with CONTROL_FW in place, TRIAL is marked, BOOT_SERIAL advances, HRT_BOOT_INFO stands, the control
processor is released and goes as far as the verified parts allow; Hearth decides the update state (R489). DEDUCED (log 81). -/
def State.hrtRelease (env : BootEnv) (s : State) : State :=
  if s.boot.stage != .second || !bit s.boot.parts 3 || !s.diesMayRun then s
  else
    let s := if s.boot.trial then s.setTrial s.boot.slot else s
    let ok := env.serialOk && decide (s.sets.bootSerial < 0xFFFFFFFF)
    let s := if ok then s.flashOp (fun s => { s with sets := { s.sets with bootSerial := s.sets.bootSerial + 1 } }) else s
    let s := { s with
      sets := { s.sets with lrdPrefix := s.sets.prefixNext }
      boot := { s.boot with
        stage := .released, release := 1, serialOk := ok, releasedAt := s.clock.now, badCores := env.badCores, badEngines := env.badEngines, d2dUp := env.links
        progs := env.progs.foldl (fun (t : Tab DeepProg) (e : Nat × DeepProg) => Tab.set e.1 e.2 t) [] } }
    let s := s.ledgerAdd 0x0020 s.boot.slot (toLe 4 s.bootInfo ++ toLe 4 s.runningSeq)
    let up := (List.range 5).filter (fun i => !s.isRetired 3 i)
    let s := { s with rel := { s.rel with
      d2d := (List.range 5).map (fun i => (i, { s.rel.d2d.getD i {} with down := !(up.take env.links).contains i, since := s.clock.now })) } }
    let s := if s.westAlone then { s with
        rel := { s.rel with split := true, cut := true, cause := 2, heldE := true, lostAt := s.clock.now }
        links := s.links.mapV (fun l k => if 8 ≤ l then { perst := k.perst } else k) } else s
    s.updDecide.takeMeas.cpAdvance 16

/-- HRT_RELEASE (R462). -/
def execHrtRelease (env : BootEnv) (s : State) : Outcome := done (s.orCut env.cut (State.hrtRelease env))

/-- The first block of a part that fails: one that does not match, or one whose read cannot be corrected (R459, R486). -/
def State.partBad (s : State) (slot kind : Nat) (read : Option Nat) : Option Nat :=
  let read := read.filter (fun b => match s.partOf slot kind with
    | none => false
    | some p => decide (p.first ≤ b) && decide (b < p.first + p.blocks))
  (earlier ((s.badBlock slot kind).map (fun b => (0, b))) (read.map (fun b => (0, b)))).map (·.2)

/-- PART_VERIFIED (R459): the second stage has read the next part in its order; a block that does not match, or that cannot be read, fails the
slot. -/
def State.partVerified (kind : Nat) (read : Option Nat) (s : State) : State :=
  let order := [3, 4, 6, 5, 2]
  if (s.boot.stage != .second && s.boot.stage != .released) || !s.diesMayRun ||
      order.find? (fun k => !bit s.boot.parts k) != some kind then s
  else
    match s.partBad s.boot.slot kind read with
    | some b =>
      let slot := s.boot.slot
      (s.dieReset false .first).failSlot slot kind b 1
    | none => ({ s with boot := { s.boot with parts := s.boot.parts + 2 ^ kind } }).cpAdvance 16

/-- PART_VERIFIED (R459). -/
def execPartVerified (kind : Fin 7) (s : State) (badRead : Option Nat := none) (cut : Option (Nat × Cut) := none) : Outcome :=
  done (s.orCut cut (State.partVerified kind badRead))

/-- The image is on a trial that has not been committed (R453, R484). -/
def State.onTrial (s : State) : Bool := s.boot.trial && !s.commitMark s.boot.slot

/-- Step 10 (R51, R460, R462, R535): the device is READY, or on TRIAL, and PFs whose links are up start; where west starts alone it is SPLIT from
then on. Heartbeats begin, and the shadow pair goes to standby. DEDUCED (log 144). -/
def State.ready (s : State) : State :=
  let s := { s with
    boot := { s.boot with stage := .ready, step := 10, release := 3 }
    hif := { s.hif with devState := if s.onTrial then 3 else 1 }
    cpW := { unavailable := false, running := true, lastBeat := s.clock.now } }
  let s := s.each State.pfStart (s.links.map (·.1))
  let s := if s.rel.split then
      (({ s with hif := { s.hif with devState := 2 } }).postPfs 0x0720 0 ([2, 0, 0, 0, 0, 0, 0, 0] ++ toLe 8 s.devNow.toNat)).ledgerAdd 0x0103 0
        (toLe 1 2 ++ List.replicate 7 0)
    else s
  s.forceMode

/-- HRT_CP_STATUS (R70, R461, R465): progress, READY once step 9 is done, or FAIL with its cause, which fails the slot until READY is set, and the
control processor alone from then on. DEDUCED (log 81). -/
def State.cpStatusWrite (v : BitVec 32) (s : State) : State :=
  if s.boot.release % 2 = 0 then s
  else
    let n := v.toNat
    let s := { s with boot := { s.boot with cpStatus := BitVec.ofNat 32 (n % 1024 + bits n 12 4 * 4096) } }
    if s.boot.stage == .ready && bit n 9 then (if s.cpW.running then s.cpFail 0 else s)
    else if s.boot.stage != .released then s
    else if bit n 9 then
      let c := bits n 12 4
      s.failStart (if c = 1 then 4 else 0) (if 1 ≤ c ∧ c ≤ 4 then c + 1 else 5)
    else if bit n 8 && s.boot.step == 9 then s.ready
    else s

/-- READY_TIMEOUT (R465): 250 ms after HRT_RELEASE.CP. DESIGN CHOICE (log 16). -/
def execReadyTimeout (dt : Nat) (s : State) : Outcome :=
  let s := s.advance dt
  if s.boot.stage == .released && decide (s.boot.releasedAt + 250000000 ≤ s.clock.now) then done (s.failStart 0 6) else done s

/-- SECOND_STAGE_WATCHDOG (R465): until every part is verified the second stage runs. -/
def execSecondStageWatchdog (s : State) : Outcome :=
  if s.boot.stage == .second || (s.boot.stage == .released && s.boot.parts != 0x7E) then done (s.failStart 0 6) else done s

/-! ## The recovery loader (R467) -/

/-- SEQ of an image that the recovery loader stores: one above the newer of the SEQs that the records hold, or 1 (R467). -/
def State.recoverSeq (s : State) : Nat :=
  let next := fun (n : Nat) => (n + 1) % 4294967296
  match s.armed 0, s.armed 1 with
  | true, true => next (if seqNewer (s.slotSeq 1) (s.slotSeq 0) then s.slotSeq 1 else s.slotSeq 0)
  | true, false => next (s.slotSeq 0)
  | false, true => next (s.slotSeq 1)
  | false, false => 1

/-- RECOVERY_LOADER (R467): a transfer over I3C is complete; `image` is what was transferred. Its end and what the check finds are reported
to the update agent as R501 has them: TransferComplete, VerifyComplete with its result, ApplyComplete. DEDUCED (log 79). PRESUMED (log 62).
-/
def State.recover (image : Bytes) (s : State) : State :=
  if s.boot.stage != .recovery then s
  else
    let slot := (s.boot.sessions + 1) % 2
    let seq := s.recoverSeq
    let s := s.mgmtSend .i3c [5, 0x16, 0]
    let s := s.eraseRecord slot
    let s := { s with boot := { s.boot with failMask := if bit s.boot.failMask slot then s.boot.failMask - 2 ^ slot else s.boot.failMask } }
    let bs := image.take 12582912
    let s := (s.flashErase (slotBase slot) 12582912).flashWrite (slotBase slot) bs
    if 12582912 < image.length || !s.imageOk slot then (s.ledgerAdd 0x0022 slot [2]).mgmtSend .i3c [5, 0x17, 1]
    else
      let s := (s.mgmtSend .i3c [5, 0x17, 0]).mgmtSend .i3c [5, 0x18, 0, 0, 0]
      let m := s.manifest slot
      let s := ((s.writeArm slot seq m.tag).setCommit slot).jAppend { type := 8, slot := slot, agent := 1, tag := m.tag, total := m.len, oldSeq := 0 }
      let s := ({ s with upd := { s.upd with next := 0, durable := 0, page := [] } }).updTo 0 0
      (s.ledgerAdd 0x0022 slot [3]).dieReset false .first

/-- RECOVERY_LOADER (R467). -/
def execRecoveryLoader (image : Bytes) (s : State) (cut : Option (Nat × Cut) := none) : Outcome := done (s.orCut cut (State.recover image))

/-! ## Power and clocks (R561 to R567) -/

/-- A resource fails its built-in self-test (R521): a FAULT_PERMANENT record, and it is retired; a row is spared, a lane between the dies is
lost, and what the device does not retire is reported DEGRADED (R522 to R525). DEDUCED (log 85). -/
def State.selfTestFail (r : Nat) (s : State) : State :=
  let s := s.permanent r 0
  match resKind r with
  | 2 =>
    let i := resIdx r / 208
    let s := (s.retireRes r).modD2d i (fun x => { x with lost := x.lost ++ [resIdx r % 208] })
    if (s.d2dLink i).lost.countP (fun l => l / 104 == resIdx r % 208 / 104) ≤ 8 then s else s.retireRes (resId 3 i)
  | 4 => if 6 ≤ s.hbmRetired (resHalf r) then s.degrade r 2 else s.retireRes r
  | 5 => s.spareRow r
  | 7 => (s.retireRes r).ledgerAdd 0x0034 (resIdx r) (toLe 2 0)
  | 9 => s.degrade r 1
  | 10 => s.degrade r 1
  | 12 => s.degrade r 1
  | _ => s.retireRes r

/-- Hearth's first stage is to run; without STBY_REFCLK nothing does (R561, R562). -/
def State.hearthStart (s : State) : State :=
  if s.boot.stage == .off && !s.clkLost .stby then { s with boot := { s.boot with stage := .first, isPor := true } } else s

/-- STBY_PWRGD_RISE (R488, R521, R561, R562, R565): the strap is sampled and Hearth's first stage is to run; wall-clock time counts from here (R7).
Resources that fail their built-in self-test are retired; `worn` are the positions of the journal that do not read back. -/
def execStbyPwrgdRise (mgmtAddr : Fin 8) (failed : List (BitVec 32)) (s : State) (worn : List (Fin 32768) := []) : Outcome :=
  if s.boot.stbyGood then done s
  else
    let s : State := { s with
      boot := { s.boot with stbyGood := true, mgmtAddr := mgmtAddr }
      upd := { s.upd with worn := worn.map (·.val) }
      clock := { s.clock with now := 0 } }
    let s := s.hearthStart
    if failed.isEmpty then done s else done ((s.each (fun (r : BitVec 32) => State.selfTestFail r.toNat) failed).applyMap)

/-- STBY_PWRGD_FALL (R566). -/
def execStbyPwrgdFall (s : State) : Outcome := if s.boot.stbyGood then done s.standbyLost else done s

/-- MAIN_PWRGD_FALL (R466, R566): the compute dies are held in reset; the slot is not failed. The first stage and the recovery loader run
from standby power. -/
def execMainPwrgdFall (s : State) : Outcome :=
  if !s.boot.mainGood then done s
  else
    let s := { s with boot := { s.boot with mainGood := false } }
    done s.holdDies

/-- MAIN_PWRGD_RISE (R39, R463, R539, R563): main power good rising is a POR, which samples bifurcation; the stage that runs on standby power stands.
While something else holds the dies, their start is that of the POR. DEDUCED (log 85). -/
def execMainPwrgdRise (s : State) : Outcome :=
  if s.boot.mainGood then done s
  else
    let s := { s with boot := { s.boot with mainGood := true } }
    match s.boot.stage with
    | .held => done (if s.diesMayRun then s.restart true else { s with boot := { s.boot with isPor := true } })
    | .first => done (s.dieReset true .first)
    | .recovery => done (s.dieReset true .recovery)
    | .retired => done (s.dieReset true .retired)
    | .second => done ((({ s with boot := { s.boot with isPor := true }, hif := { s.hif with bifurcated := s.storedBifs } }).trainLinks 0).trainLinks 1)
    | _ => done s

/-- POR_N_PULSE (R563, R567): a low pulse of `ns`; between 1 and 10 µs it is a complete POR or nothing, as `taken` says. While something else
holds the dies, the POR runs and the dies stay held. -/
def execPorNPulse (ns : Nat) (taken : Bool) (s : State) : Outcome :=
  if !s.boot.mainGood || !(decide (10000 ≤ ns) || (decide (1000 ≤ ns) && taken)) then done s
  else if s.boot.stage == .held && !s.diesMayRun then done (s.dieReset true .held)
  else done (s.restart true)

/-- DEVICE_WARM (R89, R539): the reset of a RESET_REQUEST whose time has come. -/
def execDeviceWarm (s : State) : Outcome := if s.warmDue then done s.deviceWarm else done s

/-- PERST_DEASSERT (R463): the link trains whatever the boot has reached, unless its PHY is held. -/
def State.perstOff (l : Nat) (s : State) : State := s.modLink l (fun k => { k with perst := false, training := !s.phyHeld l && !k.up })

/-- PERST_DEASSERT (R463). -/
def execPerstDeassert (link : LinkId) (s : State) : Outcome := if (s.link link).perst then done (s.perstOff link) else done s

/-- LINK_RETRAIN (R63): a link down or hot reset has ended, and the link trains. DESIGN CHOICE (log 11). -/
def execLinkRetrain (link : LinkId) (s : State) : Outcome :=
  if (s.link link).perst || (s.link link).up then done s else done (s.perstOff link)

/-! ## Samples (R506, R507, R511) -/

/-- SENSOR_SAMPLE (R506): a reading is kept with its time; thermal sites move the level, monitors the set points, and each current
sample of a rail adds its power to the window. The TRIP level holds the dies
in reset, as EMERGENCY does before step 10; leaving them starts the device as a DEVICE_WARM. -/
def State.sensorSample (n : Nat) (v : Int) (s : State) : State :=
  let prev := (Tab.find n s.power.samples).map (·.1)
  let s := s.modPower (fun p => { p with samples := Tab.set n (v, s.devNow) p.samples })
  if n < 64 then
    let before := s.power.level
    let s := s.coolMarks
    let s := match prev with
      | none => s
      | some p => s.heat (min v p)
    let s := if s.power.level = before then s.cool else s
    if before < 4 ∧ s.power.level = 4 then s.holdDies
    else if 3 ≤ s.power.level ∧ (s.boot.stage = .second ∨ s.boot.stage = .released) then s.holdDies
    else s.unhold
  else if n < 160 then s.judgeDie ((n - 64) / 48)
  else if n % 2 = 1 then
    let r := (n - 161) / 2
    let volts := (s.power.samples.getD (n - 1) (0, 0)).1
    s.modPower (fun p => { p with railSum := p.railSum.upd r (0, 0) (fun x => (x.1 + (volts * v).toNat, x.2 + 1)) })
  else s

/-- SENSOR_SAMPLE (R506). -/
def execSensorSample (sensor : Fin 190) (value : Int) (s : State) : Outcome := done (s.sensorSample sensor value)

end Sys2Proof.Machine
end

