-- ==== Sys2Proof/Machine/CmdDevice.lean ====
section
/-! DEFINITION. Mailbox commands of the device group: queries, the Ledger, resets and the power cap (R84 to R89, R128), ports, statistics and
time (R115 to R118), and the update commands (R124 to R127). -/

namespace Sys2Proof.Machine

open Sys2Proof

/-! ## Shared checks -/

/-- In split mode an object on the half that is not the issuer's is refused (R82); a number that names an object of no half is not. -/
def State.otherHalf (s : State) (fid half : Nat) : Bool × Nat × Nat :=
  (s.rel.split && decide (half < 2) && halfOfFid fid != half, stSplitMode, 0)
/-- The check of R79. -/
def State.busy (s : State) (o : Obj) : Bool × Nat × Nat := (s.objBusy o, stBusy, 0)

/-! ## Queries (R84 to R88) -/

/-- The payload of DEV_QUERY (R84). -/
def State.devInfo (s : State) : Bytes :=
  toLe 4 (s.partVersion 3) ++ toLe 4 (s.partVersion 2) ++ toLe 4 s.runningSeq ++ toLe 1 Config.iface.toNat ++ toLe 1 s.boot.stepping ++
  toLe 1 s.boot.lc ++ toLe 1 s.power.pmode ++ toLe 1 s.hif.devState ++ toLe 1 s.boot.slot ++ [0, 0] ++ toLe 4 s.lrd.nodeId ++ List.replicate 8 0

/-- DEV_QUERY (R84). -/
def execDevQuery (fid : Fid) (s : State) : Outcome := done (s.runCmd { op := 0x0001 } fid noScope (fun s _ => .ok s stOk s.devInfo))

/-- TICKET_QUERY (R85). -/
def State.cmdTicketQuery (fid : Nat) (s : State) (p : Bytes) : CmdRes :=
  let n := le p 0 4
  checked (bad (le p 4 1 / 2 != 0) 4 :: reserved p 5 3) fun _ =>
    match Tab.find (ticketKey fid n) s.tickets with
    | none => .fail stNotFound 0 []
    | some t =>
      let head := toLe 1 (b2n t.done) ++ [0] ++ toLe 2 t.opcode ++ toLe 2 t.status ++ toLe 2 t.detail ++ toLe 8 t.cookie.toNat
      let s := if t.done ∧ bit (le p 4 1) 0 = true then { s with tickets := Tab.del (ticketKey fid n) s.tickets } else s
      .ok s stOk (head ++ if t.done then t.result else [])

/-- TICKET_QUERY (R85). -/
def execTicketQuery (fid : Fid) (s : State) : Outcome :=
  done (s.runCmd { op := 0x0002, lenMin := 8, lenMax := 8 } fid noScope (State.cmdTicketQuery fid))

/-- The mask of a list of bit numbers. -/
def maskOf (ns : List Nat) : Nat := ns.foldl (fun a n => a ||| 2 ^ n) 0
/-- The retired resources of a kind, by index. -/
def State.retiredIdx (s : State) (kind : Nat) : List Nat := (s.rel.retired.filter (fun r => resKind r == kind)).map resIdx
/-- SRAM banks of a half, or of both, that use a spare row. -/
def State.banksSpared (s : State) : Nat := ((s.rel.spared.map (· / 16)).eraseDups).length

/-- The payload of FAULT_QUERY (R86). -/
def State.faultInfo (s : State) : Bytes :=
  toLe 16 (maskOf (s.retiredIdx 1)) ++ toLe 16 (maskOf (s.retiredIdx 7)) ++ toLe 5 (maskOf (s.retiredIdx 6)) ++ toLe 1 (maskOf (s.retiredIdx 3)) ++
  toLe 2 (maskOf (s.retiredIdx 8)) ++ toLe 2 (s.retiredIdx 4).length ++ toLe 2 s.banksSpared ++ List.replicate 4 0

/-- FAULT_QUERY (R86). -/
def execFaultQuery (fid : Fid) (s : State) : Outcome :=
  done (s.runCmd { op := 0x0003, issuer := 1 } fid noScope (fun s _ => .ok s stOk s.faultInfo))

/-- UNIT of a sensor (R87, R505). -/
def sensorUnit (n : Nat) : Nat := if n < 64 then 0 else if n < 160 then 1 else 2 + n % 2

/-- SENSOR_READ (R87). -/
def State.cmdSensorRead (s : State) (p : Bytes) : CmdRes :=
  let n := le p 0 2
  checked (bad (decide (189 < n)) 0 :: reserved p 2 2) fun _ =>
    let v := s.power.samples.getD n (0, 0)
    .ok s stOk (toLe 4 (unsigned 32 v.1) ++ toLe 1 (sensorUnit n) ++ [0, 0, 0] ++ toLe 8 v.2.toNat)

/-- SENSOR_READ (R87). -/
def execSensorRead (fid : Fid) (s : State) : Outcome :=
  done (s.runCmd { op := 0x0004, issuer := 1, lenMin := 4, lenMax := 4 } fid noScope State.cmdSensorRead)

/-- The records from INDEX on, at most `n`, with the index after the last (R88, R11). -/
def Ledger.from_ (l : Ledger) (index n : Nat) : List Bytes × Nat :=
  let rs := (l.recs.dropWhile (fun r => seqNewer index (le r 0 4))).take n
  match rs.getLast? with
  | none => (rs, index)
  | some r => (rs, if (le r 0 4 + 1) % 4294967296 = 0xFFFFFFFF then 0 else (le r 0 4 + 1) % 4294967296)

/-- LEDGER_READ (R88). -/
def State.cmdLedgerRead (s : State) (p : Bytes) : CmdRes :=
  let n := le p 4 1
  checked (bad (n == 0 || decide (63 < n)) 4 :: reserved p 5 3) fun _ =>
    let x := s.ledger.from_ (le p 0 4) n
    .ok s stOk (toLe 4 x.2 ++ [0, 0, 0, 0] ++ x.1.flatten)

/-- LEDGER_READ (R88). -/
def execLedgerRead (fid : Fid) (s : State) : Outcome :=
  done (s.runCmd { op := 0x0005, issuer := 2, east := false, lenMin := 8, lenMax := 8 } fid noScope State.cmdLedgerRead)

/-! ## Resets and the power cap (R89, R128) -/

/-- RESET_REQUEST (R89): the reset begins 1 ms after the response. In split mode the pipelines of east, and the half itself, are refused.
DEDUCED (log 112). DESIGN CHOICE (log 124): DETAIL where another reset is scheduled is its DOMAIN. -/
def State.cmdResetRequest (s : State) (p : Bytes) : CmdRes :=
  let d := le p 0 1
  let h := le p 1 1
  let m := le p 2 2
  let east := d = 1 ∧ h = 1 ∨ d = 2 ∧ m ≠ 0 ∧ m % 256 = 0
  checked ([(s.rel.split && decide east, stSplitMode, 0), bad (decide (2 < d)) 0, bad (decide (1 < h)) 1, bad (d == 2 && m == 0) 2] ++
      reserved p 4 4 ++ [(s.hif.resetReq.isSome, stBadState, (s.hif.resetReq.map (·.domain)).getD 0)]) fun _ =>
    let part := s.rel.split && d == 2 && decide (256 ≤ m)
    .ok { s with hif := { s.hif with resetReq := some ⟨d, h, if part then m % 256 else m, s.clock.now + 1000000⟩ } }
      (if part then stSplitPartial else stOk) []

/-- RESET_REQUEST (R89). -/
def execResetRequest (fid : Fid) (s : State) : Outcome :=
  done (s.runCmd { op := 0x0006, issuer := 2, east := false, lenMin := 8, lenMax := 8 } fid noScope State.cmdResetRequest)

/-- POWER_CAP_SET (R128, R509): the cap is set; its work ends after three windows. -/
def State.cmdPowerCap (s : State) (p : Bytes) : CmdRes :=
  let w := le p 0 2
  let m := le p 2 1
  checked [bad (w != 0 && (decide (w < 400) || decide (850 < w))) 0, bad (m != 1 && m != 2) 2, bad (le p 3 1 != 0) 3] fun _ =>
    .pend ((s.setCap w m).modPower (fun p => { p with capWait := some 0 })) .powerCap

/-- POWER_CAP_SET (R128). -/
def execPowerCapSet (fid : Fid) (s : State) : Outcome :=
  done (s.runCmd { op := 0x0007, cls := 1, issuer := 2, east := false, lenMin := 4, lenMax := 4 } fid noScope State.cmdPowerCap)

/-! ## Ports (R115, R116, R171, R172) -/

/-- PORT_CONFIG (R115, R171): an unchanged request changes nothing; otherwise the port's LPs go DOWN until the work ends. -/
def State.cmdPortConfig (fid : Nat) (s : State) (p : Bytes) : CmdRes :=
  let np := le p 0 1
  let b := le p 1 1
  let en := le p 3 1
  checked ([s.otherHalf fid (np / 8), bad (decide (15 < np)) 0, bad (decide (3 < b)) 1, bad (le p 2 1 != 1) 2, bad (decide (1 < en)) 3] ++
      reserved p 4 4 ++ [s.busy (.port np)]) fun _ =>
    let w := Work.portConfig np b 1 (en == 1)
    if (s.np np).breakout = b ∧ (s.np np).enable = (en == 1) then .pend s w
    else .pend ((s.portDown np).modNp np (fun n => { n with pend := some ⟨b, en == 1⟩ })) w

/-- PORT_CONFIG (R115). -/
def execPortConfig (fid : Fid) (s : State) : Outcome :=
  done (s.runCmd { op := 0x0601, cls := 2, issuer := 2, east := false, lenMin := 8, lenMax := 8 } fid noScope (State.cmdPortConfig fid))

/-- The work of PORT_CONFIG ends: the configuration is in place, stored, and training has started (R115, R171). -/
def State.portCommit (np : Nat) (s : State) : State :=
  match (s.np np).pend with
  | none => s
  | some c => (s.portApply np c.breakout c.enable).writeSet (fun x => { x with ports := Tab.set np (c.breakout, c.enable) x.ports })

/-- The payload of PORT_QUERY (R116). DESIGN CHOICE (log 131). -/
def State.portInfo (s : State) (lp : Nat) : Bytes :=
  let l := s.lp lp
  let np := lp / 8
  toLe 1 np ++ toLe 1 l.state.code ++ toLe 1 (speedCode l.lanes.length) ++ [1] ++ toLe 1 (laneMask l.lanes) ++
  toLe 1 (laneMask ((List.range 8).filter (s.laneRetired np))) ++ [0, 0] ++ toLe 8 l.linkUps

/-- PORT_QUERY (R116, R170). -/
def State.cmdPortQuery (fid : Nat) (s : State) (p : Bytes) : CmdRes :=
  let lp := le p 0 1
  checked ([s.otherHalf fid (lp / 64), bad (decide (127 < lp)) 0] ++ reserved p 1 3 ++ [(!s.lpExists lp, stNotFound, 0), s.busy (.port (lp / 8))]) fun _ =>
    .ok s stOk (s.portInfo lp)

/-- PORT_QUERY (R116). -/
def execPortQuery (fid : Fid) (s : State) : Outcome :=
  done (s.runCmd { op := 0x0602, lenMin := 4, lenMax := 4 } fid noScope (State.cmdPortQuery fid))

/-! ## Statistics and time (R117, R118) -/

/-- Spare die-to-die lanes in use. -/
def State.lanesSpared (s : State) : Nat := s.rel.d2d.foldl (fun a e => a + e.2.lost.length) 0

/-- A counter of a spread group that half `i` is not home to (R275). -/
def State.awayGroup (s : State) (i n : Nat) : Bool :=
  let g := (n - 1024) / 8
  decide (1024 ≤ n) && decide (n < 9216) && (s.spread g).defined && (s.spread g).home != i

/-- A counter or gauge as STATS_READ reads it (R117, R272, R275, R329, R375, R421, R547); a number past 65,535 names none and reads as zero. DESIGN
CHOICE (log 107). -/
def State.counter (s : State) (g i n : Nat) : Nat :=
  if 65536 ≤ n then 0
  else if g = 3 ∧ s.awayGroup i n = true then 0
  else if g = 2 ∧ n = 146 then (s.pipe i).stash.length
  else if g = 3 ∧ n = 77 then (s.recs i).length
  else if g = 3 ∧ n = 149 then (s.cipherCores i).length
  else if g = 3 ∧ n = 206 then 64 - (s.rel.retired.countP (fun r => resKind r == 7 && resHalf r == i))
  else if g = 3 ∧ n = 9218 then s.lanesSpared
  else if g = 3 ∧ n = 9221 then s.rel.spared.countP (fun x => x / 4194304 == i)
  else if g = 3 ∧ n = 9224 then s.rel.retired.countP (fun r => resKind r == 4 && resHalf r == i)
  else s.stat g i n

/-- The highest INDEX of a group (R117). -/
def statMax (g : Nat) : Nat := match g with
  | 0 => 8191 | 1 => 127 | 2 => 15 | 3 => 1 | _ => 1023

/-- STATS_READ's own refusals at step 3 of R73. -/
def State.statScope (fid : Nat) (s : State) (p : Bytes) : Option (Nat × Nat) :=
  if (s.fn fid).priv == .infra then none
  else firstFail [(le p 0 1 != 0, stDenied, 0), (le p 2 2 != fid, stDenied, 2)]

/-- The half of an object whose counters a group gives (R17, R117). -/
def statHalfOf (g i : Nat) : Nat := match g with
  | 0 => i / 4096 | 1 => i / 64 | 2 => i / 8 | 3 => i | 4 => i / 512 | _ => 2

/-- STATS_READ (R79, R82, R117). -/
def State.cmdStatsRead (fid : Nat) (s : State) (p : Bytes) : CmdRes :=
  let g := le p 0 1
  let i := le p 2 2
  let n := le p 6 2
  checked [s.otherHalf fid (statHalfOf g i), bad (decide (4 < g)) 0, bad (le p 1 1 != 0) 1, bad (decide (statMax g < i)) 2,
      bad (n == 0 || decide (504 < n)) 6, ((g == 0 && s.objBusy (.function i)) || (g == 1 && s.objBusy (.port (i / 8))), stBusy, 0)] fun _ =>
    .ok s stOk (toLe 8 s.devNow.toNat ++ ((List.range n).map (fun k => toLe 8 (s.counter g i (le p 4 2 + k)))).flatten)

/-- STATS_READ (R117). -/
def execStatsRead (fid : Fid) (s : State) : Outcome :=
  done (s.runCmd { op := 0x0603, lenMin := 8, lenMax := 8 } fid (State.statScope fid) (State.cmdStatsRead fid))

/-- TIME_ADJUST (R118, R188). -/
def State.cmdTimeAdjust (s : State) (p : Bytes) : CmdRes :=
  let off := signed 64 (le p 0 8)
  let freq := signed 32 (le p 8 4)
  let step := bit (le p 12 1) 0
  checked ([bad (!step && (decide (100000000 < off) || decide (off < -100000000))) 0,
      bad (decide (freq < -500000) || decide (500000 < freq)) 8, bad (le p 12 1 / 2 != 0) 12] ++ reserved p 13 3) fun _ =>
    .ok (s.timeAdjust off freq step) stOk []

/-- TIME_ADJUST (R118). -/
def execTimeAdjust (fid : Fid) (s : State) : Outcome :=
  done (s.runCmd { op := 0x0604, issuer := 2, east := false, lenMin := 16, lenMax := 16 } fid noScope State.cmdTimeAdjust)

/-! ## Updates (R124 to R127) -/

/-- A command of the update path after its field checks: the refusal of R476, or its effect. -/
def updCheck (r : Option (Nat × Nat)) (k : Unit → CmdRes) : CmdRes :=
  match r with
  | some (st, d) => .fail st d []
  | none => k ()

/-- UPDATE_BEGIN (R124). The agent of a mailbox update is 0 (R487). -/
def State.cmdUpdateBegin (s : State) (p : Bytes) : CmdRes :=
  let n := le p 0 4
  let tag := BitVec.ofNat 64 (le p 8 8)
  checked (bad (n == 0 || decide (12582912 < n)) 0 :: reserved p 4 4) fun _ =>
    updCheck (s.beginRefusal n tag 0) fun _ =>
      let s := s.updBegin n tag 0
      .ok s stOk (toLe 4 s.upd.next ++ toLe 1 s.upd.state ++ [0, 0, 0])

/-- UPDATE_BEGIN (R124). -/
def execUpdateBegin (fid : Fid) (s : State) (cut : Option (Nat × Cut) := none) : Outcome :=
  done (s.orCut cut (State.runCmd { op := 0x0801, issuer := 2, east := false, lenMin := 16, lenMax := 16 } fid noScope State.cmdUpdateBegin))

/-- UPDATE_STAGE (R125, R480). The fault code of ST_INTERNAL (R74) has no stated values: it is a free one. DEDUCED (log 77). -/
def State.cmdUpdateStage (readBack : Bool) (badPage : Nat) (s : State) (p : Bytes) : CmdRes :=
  let n := le p 4 2
  checked (bad (n == 0 || decide (4032 < n)) 4 :: reserved p 6 10) fun _ =>
    updCheck (s.stageRefusal 0) fun _ =>
      if le p 0 4 ≠ s.upd.next then .fail stBadOffset 0 (toLe 4 s.upd.next)
      else if s.updTotal < s.upd.next + n then .fail stBadField 4 []
      else
        let r := s.updStage (slice p 16 n) readBack badPage
        if r.2 then .ok r.1 stOk (toLe 4 r.1.upd.next)
        else let d := r.1.draw; .stop d.2 stInternal (d.1.toNat % 65536)

/-- UPDATE_STAGE (R125). -/
def execUpdateStage (fid : Fid) (readBack : Bool) (s : State) (badPage : Nat := 0) (cut : Option (Nat × Cut) := none) : Outcome :=
  done (s.orCut cut (State.runCmd { op := 0x0802, cls := 1, issuer := 2, east := false, lenMin := 16, lenMax := 4064, piece := true } fid noScope
    (State.cmdUpdateStage readBack badPage)))

/-- UPDATE_ARM (R126, R482). -/
def State.cmdUpdateArm (s : State) (p : Bytes) : CmdRes :=
  checked [bad (!seqNewer (le p 0 4) s.runningSeq) 0] fun _ =>
    updCheck (s.armRefusal 0) fun _ => .ok (s.updArm (le p 0 4)) stOk []

/-- UPDATE_ARM (R126). -/
def execUpdateArm (fid : Fid) (s : State) (cut : Option (Nat × Cut) := none) : Outcome :=
  done (s.orCut cut (State.runCmd { op := 0x0803, cls := 1, issuer := 2, east := false, lenMin := 4, lenMax := 4 } fid noScope State.cmdUpdateArm))

/-- UPDATE_COMMIT (R127, R484). -/
def State.cmdUpdateCommit (s : State) : CmdRes := updCheck s.commitRefusal fun _ => .ok s.updCommit stOk []

/-- UPDATE_COMMIT (R127). -/
def execUpdateCommit (fid : Fid) (s : State) (cut : Option (Nat × Cut) := none) : Outcome :=
  done (s.orCut cut (State.runCmd { op := 0x0804, cls := 1, issuer := 2, east := false } fid noScope (fun s _ => s.cmdUpdateCommit)))

/-- UPDATE_CANCEL (R127). -/
def State.cmdUpdateCancel (s : State) : CmdRes := updCheck s.cancelRefusal fun _ => .ok s.updCancel stOk []

/-- UPDATE_CANCEL (R127). -/
def execUpdateCancel (fid : Fid) (s : State) (cut : Option (Nat × Cut) := none) : Outcome :=
  done (s.orCut cut (State.runCmd { op := 0x0805, cls := 1, issuer := 2, east := false } fid noScope (fun s _ => s.cmdUpdateCancel)))

/-- The payload of UPDATE_QUERY (R127). -/
def State.updInfo (s : State) : Bytes :=
  toLe 1 s.upd.state ++ toLe 1 (if s.upd.state = 6 then s.upd.reason else 0) ++ [0, 0] ++ toLe 4 (if s.upd.state = 1 then s.upd.next else 0) ++
  toLe 4 s.updTotal ++ toLe 4 s.runningSeq ++ toLe 4 s.armedSeq

/-- UPDATE_QUERY (R127). -/
def execUpdateQuery (fid : Fid) (s : State) : Outcome :=
  done (s.runCmd { op := 0x0806, issuer := 1 } fid noScope (fun s _ => .ok s stOk s.updInfo))

end Sys2Proof.Machine
end

