-- ==== Sys2Proof/Machine/CmdFn.lean ====
section
/-! DEFINITION. Mailbox commands of the function group (R90 to R94) and of rings (R95 to R97, R130, R140). -/

namespace Sys2Proof.Machine

open Sys2Proof

/-! ## Grants (R90, R92) -/

/-- The grant at bytes 2 to 35 of a payload. -/
def reqGrant (p : Bytes) : Grant :=
  { maxClass := le p 2 1, sq := le p 4 4, cq := le p 8 4, eq := le p 12 2, rule := le p 14 2, ep := le p 16 4, key := le p 20 4, mr := le p 24 4
    msg := le p 28 4, bufKib := le p 32 4 }

/-- The range checks of the grant layout. DEDUCED (log 50). -/
def grantBad (p : Bytes) : List (Bool × Nat × Nat) :=
  [bad (decide (7 < le p 2 1)) 2, bad (le p 3 1 != 0) 3, bad (decide (32768 < le p 4 4)) 4, bad (decide (32768 < le p 8 4)) 8,
   bad (decide (2048 < le p 12 2)) 12, bad (decide (1048576 < le p 16 4)) 16, bad (decide (262144 < le p 20 4)) 20,
   bad (decide (16777216 < le p 24 4)) 24, bad (decide (1048576 < le p 28 4)) 28, bad (le p 32 4 % 64 != 0) 32]

/-- Bytes 2 to 35 of a grant. -/
def Grant.bytes (g : Grant) : Bytes :=
  toLe 1 g.maxClass ++ [0] ++ toLe 4 g.sq ++ toLe 4 g.cq ++ toLe 2 g.eq ++ toLe 2 g.rule ++ toLe 4 g.ep ++ toLe 4 g.key ++ toLe 4 g.mr ++
  toLe 4 g.msg ++ toLe 4 g.bufKib

/-- The fields of a grant with the payload offsets that ST_QUOTA gives. -/
def grantFields : List (Nat × (Grant → Nat)) :=
  [(4, (·.sq)), (8, (·.cq)), (12, (·.eq)), (14, (·.rule)), (16, (·.ep)), (20, (·.key)), (24, (·.mr)), (28, (·.msg)), (32, (·.bufKib))]

/-- The quota field in which a list of grants exceeds a link grant, as checks: MAX_CLASS first, at offset 2. -/
def overGrant (g : Grant) (gs : List Grant) (st : Nat) : List (Bool × Nat × Nat) :=
  (gs.any (fun x => decide (g.maxClass < x.maxClass)), st, 2) ::
  grantFields.map (fun f => (decide (f.2 g < gs.foldl (fun a x => a + f.2 x) 0), st, f.1))

/-- The grants of a link without that of function `t`; one that a pending FN_CREATE gives takes the place of an earlier one (R90). -/
def State.otherGrants (s : State) (t : Nat) : List Grant :=
  (s.fns.filter (fun e => s.linkOf e.1 == s.linkOf t && e.1 != t)).filterMap (fun e => s.grantOf e.1)

/-! ## FN_CREATE, FN_DESTROY, FN_QUERY (R90 to R92) -/

/-- The checks that commands naming a target function share. DEDUCED (log 50). -/
def State.targetChecks (s : State) (t : Nat) : List (Bool × Nat × Nat) := [bad (decide (8191 < t)) 0, (!s.fidOk t, stNotFound, 0)]

/-- The payload of FN_CREATE's response. -/
def State.fnCreated (s : State) (t : Nat) : Bytes := toLe 2 t ++ toLe 1 (s.fn t).gen.toNat ++ List.replicate 5 0

/-- FN_CREATE (R90): the target enters ACTIVE with the grant at once, or after its quarantine under a ticket. -/
def State.cmdFnCreate (fid : Nat) (s : State) (p : Bytes) : CmdRes :=
  let t := le p 0 2
  let g := reqGrant p
  let f := s.fn t
  checked (s.otherHalf fid (halfOfFid t) :: bad (decide (8191 < t)) 0 :: grantBad p ++ reserved p 36 12 ++
      [(!s.fidOk t, stNotFound, 0), s.busy (.function t),
       (s.isPf t || (f.state != .idle && f.state != .aborted), stBadState, f.state.code)] ++
      overGrant (s.linkGrant (s.linkOf t)) (g :: s.otherGrants t) stQuota) fun _ =>
    if s.quarantineOver t then
      let s := (s.modFn t (fun f => { f with grant := some g })).enterActive t
      .ok s stOk (s.fnCreated t)
    else .pend (s.quarantine t .active) (.fnCreate t (f.state == .idle) g)

/-- FN_CREATE (R90). -/
def execFnCreate (fid : Fid) (s : State) : Outcome :=
  done (s.runCmd { op := 0x0101, cls := 1, issuer := 1, east := false, lenMin := 48, lenMax := 48 } fid
    (fun s p => s.scopeOn fid (le p 0 2)) (State.cmdFnCreate fid))

/-- FN_DESTROY (R91): an ACTIVE target is aborted and goes to IDLE after its quarantine, an ABORTED one after its quarantine. A function on
its way elsewhere has no transition for it (R52) and is refused. DEDUCED (log 50). -/
def State.cmdFnDestroy (fid : Nat) (s : State) (p : Bytes) : CmdRes :=
  let t := le p 0 2
  let f := s.fn t
  checked (s.otherHalf fid (halfOfFid t) :: bad (decide (8191 < t)) 0 :: bad (le p 3 1 != 0) 3 ::
      [(!s.fidOk t, stNotFound, 0), s.busy (.function t), (s.isPf t, stBadState, f.state.code),
       (le p 2 1 != f.gen.toNat, stStaleGen, f.gen.toNat), (f.state != .active && f.state != .aborted, stBadState, f.state.code)]) fun _ =>
    if f.state = .active then .pend (s.beginAbort t 2 .idle) (.fnDestroy t)
    else
      let s' := s.quarantine t .idle
      if (s'.fn t).state = .idle then .ok s' stOk [] else .pend s' (.fnDestroy t)

/-- FN_DESTROY (R91). -/
def execFnDestroy (fid : Fid) (s : State) : Outcome :=
  done (s.runCmd { op := 0x0102, cls := 1, issuer := 1, east := false, lenMin := 4, lenMax := 4 } fid
    (fun s p => s.scopeOn fid (le p 0 2)) (State.cmdFnDestroy fid))

/-- The payload of FN_QUERY (R92). -/
def State.fnInfo (s : State) (t : Nat) : Bytes :=
  let f := s.fn t
  toLe 2 t ++ (s.quotaOf t).bytes ++ toLe 1 f.gen.toNat ++ toLe 1 (f.state.code + 16 * f.reason) ++ toLe 1 f.priv.code ++ toLe 1 (s.ticketsOf t)

/-- The target of FN_QUERY: 0xFFFF is the issuer. DEDUCED (log 49, 50). -/
def queryTarget (fid : Nat) (p : Bytes) : Nat := if le p 0 2 = 0xFFFF then fid else le p 0 2

/-- FN_QUERY (R92). -/
def State.cmdFnQuery (fid : Nat) (s : State) (p : Bytes) : CmdRes :=
  let t := queryTarget fid p
  checked (s.otherHalf fid (halfOfFid t) :: bad (decide (8191 < t)) 0 :: reserved p 2 2 ++ [(!s.fidOk t, stNotFound, 0), s.busy (.function t)]) fun _ =>
    .ok s stOk (s.fnInfo t)

/-- FN_QUERY (R92). -/
def execFnQuery (fid : Fid) (s : State) : Outcome :=
  done (s.runCmd { op := 0x0103, lenMin := 4, lenMax := 4 } fid
    (fun s p => if queryTarget fid p = fid then none else s.scopeOn fid (queryTarget fid p)) (State.cmdFnQuery fid))

/-! ## HP_GRANT_SET, INFRA_LIST_SET, SERVICE_HOLD (R92 to R94) -/

/-- BUF_SHARE_KIB of the links of a half together, link `l` having grant `g` (R258). DEDUCED (log 51). -/
def State.bufOfHalf (s : State) (h l : Nat) (g : Grant) : Nat :=
  ((List.range 8).map (· + 8 * h)).foldl (fun a k =>
    if k = l then a + g.bufKib else if k % 2 = 1 ∧ s.bif (k / 2) = false then a else a + (s.linkGrant k).bufKib) 0

/-- HP_GRANT_SET (R92, R258). DEDUCED (log 51). -/
def State.cmdHpGrantSet (fid : Nat) (s : State) (p : Bytes) : CmdRes :=
  let hp := le p 0 1
  let l := 2 * hp + le p 1 1
  let g := reqGrant p
  checked (s.otherHalf fid (hp / 4) :: bad (decide (7 < hp)) 0 :: bad (decide (1 < le p 1 1) || (le p 1 1 == 1 && !s.bif hp)) 1 :: grantBad p ++
      (overGrant g (s.grantsOn l) stBusy).map (fun c => (c.1, c.2.1, 0)) ++
      [(decide (20480 < s.bufOfHalf (hp / 4) l g), stNoResource, 0)]) fun _ =>
    .ok (({ s with hif := { s.hif with grants := Tab.set l g s.hif.grants } }).writeSet (fun c => { c with grants := Tab.set l g c.grants })) stOk []

/-- HP_GRANT_SET (R92). -/
def execHpGrantSet (fid : Fid) (s : State) : Outcome :=
  done (s.runCmd { op := 0x0104, issuer := 2, east := false, lenMin := 36, lenMax := 36 } fid noScope (State.cmdHpGrantSet fid))

/-- INFRA_LIST_SET (R93). -/
def State.cmdInfraListSet (s : State) (p : Bytes) : CmdRes :=
  let l := le p 0 2
  checked (bad (l == 0 || (List.range 8).any (fun h => bit l (2 * h + 1) && !s.bif h)) 0 :: reserved p 2 2) fun _ =>
    .ok (({ s with hif := { s.hif with infra := l } }).writeSet (fun c => { c with infra := l })) stOk []

/-- INFRA_LIST_SET (R93). -/
def execInfraListSet (fid : Fid) (s : State) : Outcome :=
  done (s.runCmd { op := 0x0105, issuer := 2, east := false, lenMin := 4, lenMax := 4 } fid noScope State.cmdInfraListSet)

/-- SERVICE_HOLD (R94). -/
def State.cmdServiceHold (fid : Nat) (s : State) (p : Bytes) : CmdRes :=
  checked (bad (decide (1 < le p 0 1)) 0 :: reserved p 1 3) fun _ => .ok (s.modFn fid (fun f => { f with svcHold := le p 0 1 == 1 })) stOk []

/-- SERVICE_HOLD (R94). -/
def execServiceHold (fid : Fid) (s : State) : Outcome :=
  done (s.runCmd { op := 0x0106, issuer := 1, east := false, lenMin := 4, lenMax := 4 } fid noScope (State.cmdServiceHold fid))

/-! ## RING_CREATE (R95, R130, R131) -/

/-- Rings of a kind that a function owns. -/
def State.ringCount (s : State) (kind fid : Nat) : Nat := s.rings.countP (fun e => kindOfKey e.1 == kind && e.2.fid == fid)
/-- What the grant gives of a kind of ring, and its offset in the grant layout. -/
def ringQuota (kind : Nat) (g : Grant) : Nat × Nat := if kind = 0 then (g.sq, 4) else if kind = 1 then (g.cq, 8) else (g.eq, 12)
/-- How many rings of a kind a port has. DESIGN CHOICE (log 52). -/
def ringRange (kind : Nat) : Nat := if kind = 2 then 2048 else 32768
/-- The lowest free ring number of a kind on a port (R130). DESIGN CHOICE (log 12). -/
def State.freeRing (s : State) (kind hp : Nat) : Option Nat :=
  lowestFree (fun n => (s.ring (ringKey kind n)).isSome) (hp * ringRange kind) (ringRange kind)
/-- Bytes of an entry (R134). -/
def entrySize (kind : Nat) : Nat := if kind = 0 then 64 else 32
/-- A pipeline for an SQ that leaves it to the device: on the function's own half (R95). DESIGN CHOICE (log 52). -/
def State.ownPipe (s : State) (fid : Nat) : Nat := 8 * halfOfFid fid + (s.ringCount 0 fid) % 8

/-- A ring exists and belongs to a function. -/
def State.owned (s : State) (key fid : Nat) : Bool := match s.ring key with
  | none => false
  | some r => r.fid == fid

/-- The field checks of RING_CREATE. -/
def State.ringFieldsBad (s : State) (fid : Nat) (p : Bytes) : List (Bool × Nat × Nat) :=
  let k := le p 0 1
  let sz := entrySize k * 2 ^ le p 1 1
  let bind := le p 4 4
  let pipe := le p 24 1
  [bad (decide (2 < k)) 0, bad (decide (le p 1 1 < 4) || decide (16 < le p 1 1)) 1, bad ((k == 0) == (le p 2 1 == 0)) 2,
   bad (if k = 0 then le p 3 1 == 0 || decide (64 < le p 3 1) else le p 3 1 != 0) 3,
   bad (if k = 2 then decide (s.vectors fid ≤ bind) else decide (262143 < bind)) 4,
   bad (le p 8 8 % (min sz 4096) != 0) 8, bad (le p 16 8 % 64 != 0) 16,
   bad (if k = 0 then decide (15 < pipe) && pipe != 0xFF else pipe != 0) 24, bad (if k = 0 then decide (7 < le p 25 1) else le p 25 1 != 0) 25,
   bad (if k = 0 then decide (2 < le p 26 1) else le p 26 1 != 0) 26, bad (le p 27 1 != 0) 27, bad (k != 2 && le p 28 2 != 0) 28,
   bad (if k = 2 then decide (1 < le p 30 2) && le p 28 2 == 0 else le p 30 2 != 0) 30]

/-- The ring that RING_CREATE makes. -/
def State.newRing (s : State) (fid : Nat) (p : Bytes) : Ring :=
  { fid := fid, gen := (s.fn fid).gen, log2 := le p 1 1, bind := le p 4 4, ringAddr := BitVec.ofNat 64 (le p 8 8)
    idxAddr := BitVec.ofNat 64 (le p 16 8), weight := le p 2 1, burst := le p 3 1
    pipe := if le p 0 1 = 0 ∧ le p 24 1 = 0xFF then s.ownPipe fid else le p 24 1
    cls := le p 25 1, use := if le p 26 1 = 1 then .lrd else if le p 26 1 = 2 then .cipher else .packet
    modUsec := le p 28 2, modCount := le p 30 2 }

/-- An SQ that is reset does not fetch: its CQ holds completions, in the function's hold or in message contexts, or is in ERROR (R140). -/
def State.cqStops (s : State) (n : Nat) : Bool :=
  match s.ring (cqKey n) with
  | none => false
  | some c => c.state == .error || s.cqHolding n

/-- A ring comes to exist: the device's half of its index block is written (R135), and an SQ whose CQ holds completions is FETCH_STOPPED
(R144). -/
def State.addRing (k : Nat) (r : Ring) (s : State) : State :=
  let s := (s.setRing k r).idxWrite k
  if kindOfKey k == 0 && s.cqHolding r.bind then s.ringTo .fetchStopped k else s

/-- RING_CREATE names an object of the other half (R82): an SQ its pipeline, an SQ or a CQ the ring in BIND, whose number tells its port (R130). -/
def State.createSplit (fid : Nat) (s : State) (p : Bytes) : Bool × Nat × Nat :=
  let k := le p 0 1
  let bindHalf := if k = 0 then le p 4 4 / 131072 else if k = 1 then le p 4 4 / 8192 else 2
  let away := decide (bindHalf < 2) && bindHalf != halfOfFid fid
  (s.rel.split && ((k == 0 && decide (le p 24 1 < 16) && le p 24 1 / 8 != halfOfFid fid) || away), stSplitMode, 0)

/-- RING_CREATE (R95). DESIGN CHOICE (log 52, 124). -/
def State.cmdRingCreate (fid : Nat) (s : State) (p : Bytes) : CmdRes :=
  let k := le p 0 1
  let g := s.quotaOf fid
  let q := ringQuota k g
  checked ((s.createSplit fid p :: s.ringFieldsBad fid p) ++
      [(k == 0 && decide (g.maxClass < le p 25 1), stDenied, 25), (k != 2 && !s.owned (ringKey (k + 1) (le p 4 4)) fid, stNotFound, 0),
       (decide (q.1 ≤ s.ringCount k fid), stQuota, q.2)]) fun _ =>
    match s.freeRing k (hpOf fid) with
    | none => .fail stNoResource 0 []
    | some n => .ok ((s.addRing (ringKey k n) (s.newRing fid p)).when (k = 2) (fun s => s.tellUpdate fid)) stOk (toLe 4 n ++ [0, 0, 0, 0])

/-- RING_CREATE (R95). -/
def execRingCreate (fid : Fid) (s : State) : Outcome :=
  done (s.runCmd { op := 0x0201, lenMin := 32, lenMax := 32 } fid noScope (State.cmdRingCreate fid))

/-! ## RING_DESTROY, RING_QUERY, RING_RESET, RING_MODIFY (R96, R97, R140) -/

/-- The ring that a payload names at bytes 0 to 4. -/
def ringOfReq (p : Bytes) : Nat := ringKey (le p 4 1) (le p 0 4)

/-- The checks that commands naming a ring share, with the reserved bytes of theirs. -/
def State.ringChecks (fid : Nat) (s : State) (p : Bytes) (more : List (Bool × Nat × Nat)) : List (Bool × Nat × Nat) :=
  let hp := if le p 4 1 = 2 then le p 0 4 / 2048 else le p 0 4 / 32768
  [s.otherHalf fid (hp / 4), bad (decide (262143 < le p 0 4)) 0, bad (decide (2 < le p 4 1)) 4] ++ more ++
  [(match s.ring (ringOfReq p) with
    | none => true
    | some r => !s.ownsOr fid r.fid, stNotFound, 0), s.busy (.ring (ringOfReq p))]

/-- Every descriptor that an SQ has had fetched is completed. -/
def State.sqIdle (s : State) (n : Nat) : Bool :=
  let w := s.workOf (sqKey n)
  w.reading == 0 && w.fetched.isEmpty && w.posted.isEmpty && w.filled.isEmpty && !s.lrd.msgs.anyV (fun _ m => m.sq == n)

/-- An SQ has no descriptor fetched and none whose completion is still to be written (R96). -/
def State.sqQuiet (s : State) (n : Nat) : Bool :=
  let w := s.workOf (sqKey n)
  let held := match s.ring (sqKey n) with
    | none => false
    | some r =>
      let c := s.workOf (cqKey r.bind)
      c.due.any (fun d => d.sq == n) || (s.resOf r.fid).hold.any (fun h => h.1 == r.bind && le h.2 16 4 % 262144 == n)
  s.sqIdle n && w.rxWait.isEmpty && !held

/-- Destruction of an SQ begins: fetching stops; posted buffers complete with FLUSHED and waiting packets are dropped (R96). -/
def State.stopSq (n : Nat) (s : State) : State :=
  match s.ring (sqKey n) with
  | none => s
  | some r =>
    let w := s.workOf (sqKey n)
    let s := s.setRing (sqKey n) { r with destroying := true }
    let s := s.modWork (sqKey n) (fun w => { w with posted := [], filled := [], rxWait := [], spec := 0 })
    let s := s.each (fun b s => s.causeCpl n none (flushedCpl n b)) (w.filled ++ w.posted)
    (s.each (fun p s => (s.bump 0 r.fid 2).dropPkt p) w.rxWait).settle n

/-- A ring is gone, and learn records that wait for it are lost (R96, R251). -/
def State.removeRing (k : Nat) (s : State) : State :=
  let s := if kindOfKey k = 1 then s.loseRecordsOf (numOfKey k) else s
  { s with rings := Tab.del k s.rings, work := Tab.del k s.work }

/-- Something still uses a CQ or an EQ: a ring bound to it, completions held or due, or a pending ticket (R96). -/
def State.ringUsed (s : State) (k : Nat) : Bool :=
  let n := numOfKey k
  if kindOfKey k = 1 then
    !(s.sqsOf n).isEmpty || !(s.workOf k).due.isEmpty || (match s.ring k with
      | none => false
      | some r => s.heldFor r.fid n != 0)
  else
    s.rings.any (fun e => kindOfKey e.1 == 1 && e.2.bind == n) || s.tickets.anyV (fun _ t => !t.done && t.eq == some n)

/-- RING_DESTROY (R96). -/
def State.cmdRingDestroy (fid : Nat) (s : State) (p : Bytes) : CmdRes :=
  let k := ringOfReq p
  checked (s.ringChecks fid p (reserved p 5 3)) fun _ =>
    if kindOfKey k = 0 then
      let s := s.stopSq (numOfKey k)
      if s.sqQuiet (numOfKey k) then .ok (s.removeRing k) stOk [] else .pend s (.ringDestroy k)
    else if s.ringUsed k then .fail stBusy 0 []
    else .ok (s.removeRing k) stOk []

/-- RING_DESTROY (R96). -/
def execRingDestroy (fid : Fid) (s : State) : Outcome :=
  done (s.runCmd { op := 0x0202, cls := 1, lenMin := 8, lenMax := 8 } fid noScope (State.cmdRingDestroy fid))

/-- RING_QUERY (R96). -/
def State.cmdRingQuery (fid : Nat) (s : State) (p : Bytes) : CmdRes :=
  let k := ringOfReq p
  checked (s.ringChecks fid p (reserved p 5 3)) fun _ =>
    match s.ring k with
    | none => .fail stNotFound 0 []
    | some r =>
      .ok s stOk (toLe 1 r.state.code ++ toLe 1 r.error ++ toLe 2 (if kindOfKey k = 1 then s.heldFor r.fid (numOfKey k) else 0) ++
        toLe 4 r.seen.toNat ++ toLe 4 r.dev.toNat ++ [0, 0, 0, 0])

/-- RING_QUERY (R96). -/
def execRingQuery (fid : Fid) (s : State) : Outcome :=
  done (s.runCmd { op := 0x0204, lenMin := 8, lenMax := 8 } fid noScope (State.cmdRingQuery fid))

/-- RING_RESET (R96, R140). DEDUCED (log 39). -/
def State.cmdRingReset (fid : Nat) (s : State) (p : Bytes) : CmdRes :=
  let k := ringOfReq p
  checked (s.ringChecks fid p (reserved p 5 3)) fun _ =>
    match s.ring k with
    | none => .fail stNotFound 0 []
    | some r =>
      if r.state ≠ .error then .fail stBadState r.state.code []
      else if kindOfKey k = 0 ∧ s.sqIdle (numOfKey k) = false then .fail stBusy 0 []
      else
        let held := kindOfKey k == 0 && s.cqStops r.bind
        .ok ((s.setRing k { r with state := if held then .fetchStopped else .running, error := 0 }).idxWrite k) stOk []

/-- RING_RESET (R140). -/
def execRingReset (fid : Fid) (s : State) : Outcome :=
  done (s.runCmd { op := 0x0205, lenMin := 8, lenMax := 8 } fid noScope (State.cmdRingReset fid))

/-- RING_MODIFY (R97, R166): new weights apply from the next arbitration round. -/
def State.cmdRingModify (fid : Nat) (s : State) (p : Bytes) : CmdRes :=
  let k := ringOfReq p
  let v := le p 5 1
  let w := bit v 0
  let m := bit v 1
  checked (s.ringChecks fid p ([bad (le p 4 1 == 1) 4, bad (decide (3 < v) || (w && le p 4 1 != 0) || (m && le p 4 1 != 2)) 5,
      bad (w && le p 6 1 == 0) 6, bad (w && (le p 7 1 == 0 || decide (64 < le p 7 1))) 7,
      bad (m && decide (1 < le p 10 2) && le p 8 2 == 0) 10] ++ reserved p 12 4)) fun _ =>
    let s := if w then s.modRing k (fun r => { r with arbNext := some (le p 6 1, le p 7 1) }) else s
    .ok (if m then s.modRing k (fun r => { r with modUsec := le p 8 2, modCount := le p 10 2 }) else s) stOk []

/-- RING_MODIFY (R97). -/
def execRingModify (fid : Fid) (s : State) : Outcome :=
  done (s.runCmd { op := 0x0203, lenMin := 16, lenMax := 16 } fid noScope (State.cmdRingModify fid))

end Sys2Proof.Machine
end

