-- ==== Sys2Proof/Machine/CmdNet.lean ====
section
/-! DEFINITION. Mailbox commands of the pipelines: PIPE_CONFIG, rules, the tables, queues and spread groups (R98 to R103). -/

namespace Sys2Proof.Machine

open Sys2Proof

/-! ## Split mode (R82) -/

/-- The part of a pipeline mask that a command acts on: the west pipelines in split mode. -/
def State.westPart (s : State) (m : Nat) : Nat := if s.rel.split then m % 256 else m
/-- A mask that names east pipelines alone is refused in split mode. -/
def State.eastOnly (s : State) (m : Nat) : Bool × Nat × Nat := (s.rel.split && m % 256 == 0 && m != 0, stSplitMode, 0)
/-- ST_SPLIT_PARTIAL where a part of a mask has been left to rejoin. -/
def State.partial_ (s : State) (m : Nat) : Nat := if s.rel.split && decide (256 ≤ m) then stSplitPartial else stOk

/-! ## Actions (R235, R237) -/

/-- The largest TARGET of a verb and target kind. -/
def targetMax (verb kind : Nat) : Nat :=
  if verb = 0 ∧ kind = 0 then 63 else if verb = 1 ∧ kind = 1 then 1023 else if verb = 1 ∧ kind = 2 then 127 else 262143

/-- The field checks of an action at payload offset `o`, in the order of its bytes; `eg` adds what an egress action may not use (R235, R237). -/
def actionBad (eg : Bool) (a : Bytes) (o : Nat) : List (Bool × Nat × Nat) :=
  [bad (decide (4 < le a 0 1) || (eg && aVerb a != 0 && aVerb a != 2)) o,
   bad (aRecirc a == 3 || decide (64 ≤ le a 1 1) || (eg && (aRecirc a != 0 || aDecap a || aNoLearn a || aCapDrop a))) (o + 1),
   bad (decide (3 < le a 2 1) || (eg && aKind a != 0)) (o + 2), bad (decide (31 < le a 3 1) || (eg && le a 3 1 != 0)) (o + 3),
   bad (decide (targetMax (aVerb a) (aKind a) < le a 4 4) || (eg && le a 4 4 != 0)) (o + 4),
   bad (bits (le a 8 4) 17 14 != 0 || (eg && le a 8 4 != 0)) (o + 8),
   bad (bits (le a 12 1) 4 2 == 3 || bit (le a 12 1) 7 || (eg && le a 12 1 % 16 != 0)) (o + 12), bad (decide (15 < le a 13 1)) (o + 13),
   bad (decide (63 < le a 14 2)) (o + 14)]

/-- An action names an SQ under destruction or an LP of a port under PORT_CONFIG (R79). -/
def State.actionBusy (s : State) (a : Bytes) : Bool × Nat × Nat :=
  (aVerb a == 1 && ((aKind a == 0 && s.objBusy (.ring (sqKey (aTarget a)))) || (aKind a == 2 && s.objBusy (.port (aTarget a / 8)))), stBusy, 0)

/-- A tenant's action goes beyond what R237 allows. -/
def tenantBad (egress : Bool) (a : Bytes) : Bool :=
  let ok := egress || (aVerb a == 0 && aKind a == 3) || (aVerb a == 1 && aKind a == 0) || aVerb a == 2
  !ok || (!egress && (aNoLearn a || bit (le a 12 1) 3)) || bit (le a 12 1) 6 || bit (le a 13 1) 3

/-! ## PIPE_CONFIG (R98, R213, R218, R222, R252) -/

/-- PIPE_CONFIG's effect on its pipeline: the program goes into the store that does not run, and packets still in processors finish under the
configuration they were taken under (R222). -/
def Pipe.configure (p : Bytes) (now : Nat) (q : Pipe) : Pipe :=
  let ms := le p 24 2
  let deep := le p 1 1 == 1
  let old := q.deepRun.map (·.cfg)
  { q with
    deep := deep, prog := le p 2 1, malAct := BitVec.ofNat 8 (le p 3 1), miss := slice p 4 16, learnRing := le p 20 4 % 262144
    noLearn := bit (le p 20 4) 31, sampled := [], agingMs := ms
    agingDue := if q.agingMs = ms then q.agingDue else now + ms * 1000000
    cfg := q.cfg + 1, oldMal := if old.contains q.cfg then Tab.set q.cfg q.nowCfg q.oldMal else q.oldMal
    idleProg := if deep && q.deep && q.prog != le p 2 1 then some q.prog else q.idleProg }

/-- PIPE_CONFIG (R98). DEDUCED (log 53). -/
def State.cmdPipeConfig (fid : Nat) (s : State) (p : Bytes) : CmdRes :=
  let n := le p 0 1
  let a := slice p 4 16
  let ring := le p 20 4
  let none_ := bit ring 31
  checked (s.otherHalf fid (n / 8) :: bad (decide (15 < n)) 0 :: bad (decide (1 < le p 1 1)) 1 :: bad (decide (15 < le p 2 1)) 2 ::
      bad (le p 1 1 == 1 && decide (29 < ((Tab.find (le p 2 1) s.boot.progs).getD {}).w)) 2 ::
      bad (le p 3 1 % 4 == 3 || decide (127 < le p 3 1)) 3 :: (actionBad false a 4).take 2 ++ [bad (aVerb a == 0 && aKind a == 3) 6] ++
      (actionBad false a 4).drop 2 ++ [bad (bits ring 18 13 != 0 || (none_ && ring % 262144 != 0)) 20] ++ reserved p 26 6 ++
      [(le p 1 1 == 1 && (Tab.find (le p 2 1) s.boot.progs).isNone, stNotFound, 0),
       (!none_ && !s.owned (cqKey (ring % 262144)) fid, stNotFound, 0), s.actionBusy a]) fun _ =>
    .ok ((s.when none_ (State.loseRecords n)).modPipe n (Pipe.configure p s.clock.dev)) stOk []

/-- PIPE_CONFIG (R98). -/
def execPipeConfig (fid : Fid) (s : State) : Outcome :=
  done (s.runCmd { op := 0x0301, cls := 1, issuer := 2, east := false, lenMin := 32, lenMax := 32 } fid noScope (State.cmdPipeConfig fid))

/-! ## Rules (R99, R100, R231 to R237) -/

/-- The place of a rule in the search order (R231): INFRA owners first, then PRIORITY. -/
def Rule.order (r : Rule) : Nat := (if r.priv = .infra then 0 else 65536) + r.prio

/-- Inserts a rule behind those of the same place, before the later ones. -/
def insertRule (r : Rule) : List Rule → List Rule
  | [] => [r]
  | x :: xs => if x.order ≤ r.order then x :: insertRule r xs else r :: x :: xs

/-- Pipelines in a mask. -/
def maskSize (m : Nat) : Nat := (maskBits 16 m).length
/-- Rule entries that a function holds (R233). -/
def State.ruleEntries (s : State) (fid : Nat) : Nat := s.net.rules.foldl (fun a r => if r.fid = fid then a + maskSize r.mask else a) 0
/-- The first pipeline of a mask whose TCAM of a direction is full (R99, R233). -/
def State.fullTcam (s : State) (m : Nat) (egress : Bool) : Option Nat :=
  (maskBits 16 m).find? (fun n => decide ((if egress then 4096 else 8192) ≤ s.net.rules.countP (fun r => r.egress == egress && bit r.mask n)))

/-- RULE_INSERT's refusals at step 3 of R73 (R232, R237). -/
def State.ruleScope (fid : Nat) (s : State) (p : Bytes) : Option (Nat × Nat) :=
  if (s.fn fid).priv == .infra then none
  else
    firstFail [(le p 14 2 % 8192 != fid || le p 78 2 % 8192 != 8191, stDenied, 14),
      (tenantBad (bit (le p 2 1) 0) (slice p 136 16), stDenied, 136)]

/-- RULE_INSERT (R99): a serial never repeats, and with none left there is no resource (R233). DEDUCED (log 53). DESIGN CHOICE (log 28, 125). -/
def State.cmdRuleInsert (fid : Nat) (s : State) (p : Bytes) : CmdRes :=
  let m := le p 0 2
  let eg := le p 2 1 == 1
  let a := slice p 136 16
  let f := s.fn fid
  let tenant := f.priv != .infra
  checked (s.eastOnly m :: bad (m == 0) 0 :: bad (decide (1 < le p 2 1)) 2 :: bad (le p 3 1 != 0) 3 :: reserved p 6 2 ++ actionBad eg a 136 ++
      [(tenant && aVerb a == 1 && !s.owned (sqKey (aTarget a)) fid, stNotFound, 0),
       (tenant && (match aSa a with
          | none => false
          | some n => match s.sa n with
            | none => true
            | some x => x.fid != fid), stNotFound, 0),
       s.actionBusy a,
       (decide ((s.quotaOf fid).rule < s.ruleEntries fid + maskSize m), stQuota, 14), (decide (0xFFFFFF < s.net.ruleSerial), stNoResource, 0),
       ((s.fullTcam m eg).isSome, stTableFull, (s.fullTcam m eg).getD 0xFFFF)]) fun _ =>
    let id := BitVec.ofNat 32 (s.net.ruleSerial * 256 + f.gen.toNat)
    let r : Rule := { id := id, fid := fid, gen := f.gen, priv := f.priv, mask := m, egress := eg, prio := le p 4 2, key := slice p 8 64
                      kmask := slice p 72 64, action := a }
    let s := { s with net := { s.net with
      rules := insertRule r s.net.rules, ruleSerial := s.net.ruleSerial + 1 } }
    .ok s (s.partial_ m) (toLe 4 id.toNat)

/-- RULE_INSERT (R99). -/
def execRuleInsert (fid : Fid) (s : State) : Outcome :=
  done (s.runCmd { op := 0x0302, east := false, lenMin := 152, lenMax := 152 } fid (State.ruleScope fid) (State.cmdRuleInsert fid))

/-- RULE_DELETE (R100, R233). -/
def State.cmdRuleDelete (fid : Nat) (s : State) (p : Bytes) : CmdRes :=
  match s.net.rules.find? (fun r => r.id.toNat == le p 0 4 && s.ownsOr fid r.fid) with
  | none => .fail stNotFound 0 []
  | some r =>
    checked [s.eastOnly r.mask] fun _ =>
      .ok { s with net := { s.net with rules := s.net.rules.filter (fun x => x.id != r.id) } } (s.partial_ r.mask) []

/-- RULE_DELETE (R100). -/
def execRuleDelete (fid : Fid) (s : State) : Outcome :=
  done (s.runCmd { op := 0x0303, east := false, lenMin := 4, lenMax := 4 } fid noScope (State.cmdRuleDelete fid))

/-! ## Tables (R101, R242, R245, R254) -/

/-- The largest DEST of an exact-match kind. -/
def destMax (kind : Nat) : Nat := if kind = 1 then 127 else if kind = 3 then 1023 else if kind = 5 then 63 else if kind = 6 then 31 else 262143

/-- The key fields of an exact-match entry at payload offset 8 (R242). DESIGN CHOICE (log 128). -/
def emKeyBad (e : Bytes) : List (Bool × Nat × Nat) :=
  [bad (decide (1 < le e 0 1)) 8, bad (decide (16777216 ≤ le e 4 4) || (le e 0 1 == 0 && decide (4096 ≤ le e 4 4))) 12, bad (le e 14 1 != 0) 22,
   bad (le e 15 1 != 0) 23]

/-- All fields of an exact-match entry, in the order of its bytes. -/
def emBad (e : Bytes) : List (Bool × Nat × Nat) :=
  (emKeyBad e).take 1 ++ [bad (decide (3 < le e 1 1)) 9, bad (le e 2 1 != 0) 10, bad (le e 3 1 != 0) 11] ++ (emKeyBad e).drop 1 ++
   [bad (decide (6 < le e 16 1)) 24,
    bad (bits (le e 17 1) 4 2 == 3 || bit (le e 17 1) 7) 25, bad (decide (8192 ≤ le e 18 2)) 26, bad (decide (destMax (emKind e) < le e 20 4)) 28,
    bad (le e 29 1 != 0) 37, bad (le e 30 1 != 0) 38, bad (le e 31 1 != 0) 39]

/-- The key fields of a route entry at payload offset 8 (R254). DESIGN CHOICE (log 128). -/
def routeKeyBad (e : Bytes) : List (Bool × Nat × Nat) :=
  let k := le e 0 1
  [bad (decide (2 < k)) 8, bad (le e 1 1 != 0) 9, bad (le e 2 1 != 0) 10, bad (le e 3 1 != 0) 11,
   bad (if k = 2 then decide (63 < le e 4 2) else le e 4 2 != 0) 12, bad (le e 6 1 != 0) 14, bad (le e 7 1 != 0) 15,
   bad (k == 0 && !allZero (slice e 12 12)) 20]

/-- All fields of a route entry. -/
def routeBad (e : Bytes) : List (Bool × Nat × Nat) :=
  let flood := le e 0 1 == 2
  routeKeyBad e ++ [bad (flood && !allZero (slice e 24 6)) 32, bad (decide (127 < le e 30 1) || (flood && le e 30 1 != 0)) 38,
    bad (decide (15 < le e 31 1) || (flood && le e 31 1 != 0)) 39]

/-- The key of a route entry. -/
def routeKey (e : Bytes) : Bytes := slice e 0 1 ++ (if le e 0 1 = 2 then slice e 4 1 else slice e 8 16)
/-- A route copy without a key. -/
def routeDel (k : Bytes) (rs : List Bytes) : List Bytes := rs.filter (fun e => routeKey e != k)

/-- The checks that the table commands share; `keys` says that only the key fields count. -/
def State.tableBad (s : State) (p : Bytes) (keys one : Bool) : List (Bool × Nat × Nat) :=
  let m := le p 0 2
  let t := le p 2 1
  let e := slice p 8 32
  [if t = 0 then s.eastOnly m else (false, stSplitMode, 0), bad (if t = 1 then m != 0 else m == 0 || (one && maskSize m != 1)) 0, bad (decide (1 < t)) 2,
   bad (decide (1 < le p 3 1) || (keys && le p 3 1 == 1)) 3] ++ reserved p 4 4 ++
  (if t = 1 then (if keys then routeKeyBad e else routeBad e) else if keys then emKeyBad e else emBad e)

/-- Writes an entry into one pipeline's table: in place where the key stands there, otherwise as R245 inserts it. -/
def State.emWrite (n : Nat) (e : Bytes) (s : State) : State × Bool :=
  let x : EmEntry := { bytes := e, cmd := true }
  match (s.pipe n).find (emKeyBytes e) with
  | some (l, _) => (s.modPipe n (fun q => q.putAt l x), true)
  | none => let r := (s.pipe n).insertNew x; (s.emApply n r, !r.full)

/-- The control processor's record of a pipeline's entry (R537). -/
def State.emRecord (n : Nat) (e : Bytes) (s : State) : State :=
  { s with net := { s.net with emRecs := s.net.emRecs.upd n [] (fun es => es.filter (fun x => emKeyBytes x != emKeyBytes e) ++ [e]) } }
def State.emForget (n : Nat) (k : Bytes) (s : State) : State :=
  { s with net := { s.net with emRecs := s.net.emRecs.upd n [] (fun es => es.filter (fun x => emKeyBytes x != k)) } }

/-- Inserts into the pipelines of a list: the state, those done and those full. -/
def emInsertAll (e : Bytes) : List Nat → State → State × Nat × Nat
  | [], s => (s, 0, 0)
  | n :: ns, s =>
    let r := s.emWrite n e
    let x := emInsertAll e ns (if r.2 then r.1.emRecord n e else r.1)
    if r.2 then (x.1, x.2.1 + 2 ^ n, x.2.2) else (x.1, x.2.1, x.2.2 + 2 ^ n)

/-- TABLE_INSERT into the host route table (R101, R254): both copies, or that of west in split mode. DESIGN CHOICE (log 7, 128). -/
def State.routeInsert (s : State) (e : Bytes) (replace : Bool) : CmdRes :=
  let k := routeKey e
  let here := s.net.routesW.any (fun x => routeKey x == k)
  let full := decide (8 ≤ s.net.routesW.countP (fun x => Config.routeBucket (routeKey x) == Config.routeBucket k))
  checked [(here && !replace, stExists, 0), (!here && full, stTableFull, 0xFFFF)] fun _ =>
    let put := fun (rs : List Bytes) => routeDel k rs ++ [e]
    .ok { s with net := { s.net with routesW := put s.net.routesW, routesE := if s.rel.split then s.net.routesE else put s.net.routesE } }
      (if s.rel.split then stSplitPartial else stOk) [0, 0, 0, 0]

/-- TABLE_INSERT (R101). -/
def State.cmdTableInsert (s : State) (p : Bytes) : CmdRes :=
  let m := le p 0 2
  let e := slice p 8 32
  let replace := le p 3 1 == 1
  checked (s.tableBad p false false) fun _ =>
    if le p 2 1 = 1 then s.routeInsert e replace
    else
      let e := putBytes e 1 (toLe 1 (b2n (emStatic e)))
      let w := maskBits 16 (s.westPart m)
      let here := w.any (fun n => ((s.pipe n).find (emKeyBytes e)).isSome)
      if here && !replace then .fail stExists 0 []
      else if emKind e = 2 ∧ s.objBusy (.ring (sqKey (emDest e))) = true ∨ emKind e = 1 ∧ s.objBusy (.port (emDest e / 8)) = true then
        .fail stBusy 0 []
      else
        let x := emInsertAll e w s
        let s' := if s.rel.split then x.1.each (fun n => State.emRecord n e) ((maskBits 16 m).filter (fun n => decide (8 ≤ n))) else x.1
        let st := if x.2.2 = 0 then s.partial_ m else stTableFull
        let pay := toLe 2 x.2.1 ++ toLe 2 x.2.2
        if x.2.2 = 0 then .ok s' st pay else .full s' (((maskBits 16 x.2.2).head?).getD 0xFFFF) pay

/-- TABLE_INSERT (R101). -/
def execTableInsert (fid : Fid) (s : State) : Outcome :=
  done (s.runCmd { op := 0x0304, issuer := 2, east := false, lenMin := 40, lenMax := 40 } fid noScope State.cmdTableInsert)

/-- Deletes a key from one pipeline's table; stash entries are tried again (R245). -/
def State.emDelete (n : Nat) (k : Bytes) (s : State) : State × Bool :=
  match (s.pipe n).find k with
  | none => (s, false)
  | some (l, _) => ((s.modPipe n (fun q => q.removeAt l)).emTidy n, true)

/-- Deletes from the pipelines of a list: the state and those that held the key. -/
def emDeleteAll (k : Bytes) : List Nat → State → State × Nat
  | [], s => (s, 0)
  | n :: ns, s => let r := s.emDelete n k; let x := emDeleteAll k ns r.1; (x.1, if r.2 then x.2 + 2 ^ n else x.2)

/-- TABLE_DELETE (R101). -/
def State.cmdTableDelete (s : State) (p : Bytes) : CmdRes :=
  let m := le p 0 2
  let e := slice p 8 32
  checked (s.tableBad p true false) fun _ =>
    if le p 2 1 = 1 then
      let k := routeKey e
      if !s.net.routesW.any (fun x => routeKey x == k) then .fail stNotFound 0 []
      else
        .ok { s with net := { s.net with
          routesW := routeDel k s.net.routesW, routesE := if s.rel.split then s.net.routesE else routeDel k s.net.routesE } }
          (if s.rel.split then stSplitPartial else stOk) [0, 0, 0, 0]
    else
      let k := emKeyBytes e
      let x := emDeleteAll k (maskBits 16 (s.westPart m)) s
      .ok (x.1.each (fun n => State.emForget n k) (maskBits 16 m)) (s.partial_ m) (toLe 2 x.2 ++ [0, 0])

/-- TABLE_DELETE (R101). -/
def execTableDelete (fid : Fid) (s : State) : Outcome :=
  done (s.runCmd { op := 0x0305, issuer := 2, east := false, lenMin := 40, lenMax := 40 } fid noScope State.cmdTableDelete)

/-- TABLE_LOOKUP (R101): TABLE 1 is read from the copy of the issuer's half. -/
def State.cmdTableLookup (fid : Nat) (s : State) (p : Bytes) : CmdRes :=
  let n := ((maskBits 16 (le p 0 2)).head?).getD 0
  checked ((if le p 2 1 = 0 ∧ le p 0 2 ≠ 0 then [s.otherHalf fid (n / 8)] else []) ++ (s.tableBad p true true).tail) fun _ =>
    .ok s stOk (s.lookupBytes (le p 2 1) n (halfOfFid fid) (slice p 8 32))

/-- TABLE_LOOKUP (R101). -/
def execTableLookup (fid : Fid) (s : State) : Outcome :=
  done (s.runCmd { op := 0x0306, issuer := 2, lenMin := 40, lenMax := 40 } fid noScope (State.cmdTableLookup fid))

/-! ## QUEUE_SET and SPREAD_SET (R102, R103, R258, R266, R267) -/

/-- SHARE_KIB of the class queues of a port together, but for queue `k`. -/
def State.portShares (s : State) (np k : Nat) : Nat :=
  (lpsOf np (s.np np).breakout).foldl (fun a lp => (List.range 8).foldl (fun a q =>
    if lp * 8 + q = k then a else a + (s.egq (lp * 8 + q)).shareKib.getD (64 * lanesPer (s.np np).breakout)) a) 0

/-- QUEUE_SET (R102). -/
def State.cmdQueueSet (fid : Nat) (s : State) (p : Bytes) : CmdRes :=
  let lp := le p 0 1
  let c := le p 1 1
  let m := le p 8 2
  checked ([s.otherHalf fid (lp / 64), bad (decide (127 < lp)) 0, bad (decide (7 < c)) 1, bad (le p 2 1 == 0) 2, bad (le p 3 1 != 0) 3,
      bad (le p 4 4 % 64 != 0) 4, bad (if c = 7 then m == 0 || decide (1000 < m) else m != 0) 8] ++ reserved p 10 6 ++
      [(!s.lpExists lp, stNotFound, 0), s.busy (.port (lp / 8)),
       (decide (4096 < s.portShares (lp / 8) (lp * 8 + c) + le p 4 4), stNoResource, 0)]) fun _ =>
    let s := if c = 7 then s.fillBucket lp else s
    .ok (s.modEgq (lp * 8 + c) (fun q => { q with
      weight := le p 2 1, shareKib := some (le p 4 4), permille := if c = 7 then m else q.permille })) stOk []

/-- QUEUE_SET (R102). -/
def execQueueSet (fid : Fid) (s : State) : Outcome :=
  done (s.runCmd { op := 0x0307, issuer := 2, east := false, lenMin := 16, lenMax := 16 } fid noScope (State.cmdQueueSet fid))

/-- SPREAD_SET (R103, R265): the threads are replaced; sequence and reorder state stay. DEDUCED (log 54). -/
def State.cmdSpreadSet (fid : Nat) (s : State) (p : Bytes) : CmdRes :=
  let g := le p 0 2
  let n := le p 2 1
  let ts := (List.range n).map (fun i => le p (8 + 2 * i) 2)
  let old := (s.spread g).threads
  checked ([s.otherHalf fid (ts.headD 0 / 1024), bad (decide (1023 < g)) 0, bad (n == 0 || decide (64 < n)) 2] ++ reserved p 3 5 ++
      (List.range 64).map (fun i => bad (if i < n then decide (2047 < le p (8 + 2 * i) 2) else le p (8 + 2 * i) 2 != 0) (8 + 2 * i))) fun _ =>
    .ok ((s.modSpread g (fun x => { x with defined := true, threads := ts, rot := 0 })).each State.coreTidy ((old ++ ts).map coreOf)) stOk []

/-- SPREAD_SET (R103). -/
def execSpreadSet (fid : Fid) (s : State) : Outcome :=
  done (s.runCmd { op := 0x0308, issuer := 2, east := false, lenMin := 136, lenMax := 136 } fid noScope (State.cmdSpreadSet fid))

end Sys2Proof.Machine
end

