-- ==== Sys2Proof/Machine/CmdKey.lean ====
section
/-! DEFINITION. Mailbox commands of keys and security associations (R111 to R114, R339, R342 to R345, R348, R355, R368, R470). -/

namespace Sys2Proof.Machine

open Sys2Proof

/-! ## The two forms of a key (R343 to R345, R470) -/

/-- A key as a command offers it: the field checks of its form, and the key they lead to. `base` is the payload offset of the 64-byte KEY
field, `n` the length of the key, `scopes` the binding blocks that agree with the request. -/
def State.keyForm (s : State) (p : Bytes) (base n : Nat) (wrapped : Bool) (scopes : List Bytes) : List (Bool × Nat × Nat) × Bytes :=
  if wrapped then
    let kik := le p (base + 1) 1 % 4
    let held := if s.boot.lc = 2 then Tab.find kik s.cry.kiks else none
    let plain := held.bind (fun k => aesUnwrap k (slice p (base + 16) (n + 16)))
    let good := match plain with
      | none => false
      | some b => scopes.contains (slice b 0 8)
    ([bad (le p base 1 != 1) base, bad (decide (3 < le p (base + 1) 1)) (base + 1), bad (le p (base + 2) 2 != n + 16) (base + 2)] ++
        reserved p (base + 4) 12 ++ reserved p (base + 32 + n) (32 - n) ++
        [bad held.isNone (base + 1), bad (!good) (base + 16)],
      match plain with
      | none => []
      | some b => slice b 8 n)
  else (reserved p (base + n) (64 - n), slice p base n)

/-- The binding block of R345. -/
def bindingBlock (purpose alg n scope : Nat) : Bytes := toLe 1 purpose ++ toLe 1 alg ++ toLe 1 n ++ [0] ++ toLe 4 scope

/-- The life cycle and the engine allow keys to be installed (R348, R470). DEDUCED (log 60). -/
def State.keyGate (s : State) : List (Bool × Nat × Nat) :=
  [(s.boot.lc == 0 || decide (4 ≤ s.boot.lc), stLifeCycle, s.boot.lc), (s.cry.state != .ready, stBadState, s.cry.state.code)]

/-! ## KEY_LOAD, KEY_DESTROY, KEY_QUERY (R111, R112) -/

/-- What KEY_QUOTA covers: the key slots and the security associations a function holds (R90). DEDUCED (log 111). -/
def State.keysOf (s : State) (fid : Nat) : Nat :=
  s.cry.slots.countV (fun _ x => match x.info with
    | none => false
    | some k => k.fid == fid) + s.cry.sas.countV (fun _ a => a.fid == fid)

/-- KEY_LOAD (R111). DEDUCED (log 60). DESIGN CHOICE (log 12). -/
def State.cmdKeyLoad (fid : Nat) (s : State) (p : Bytes) : CmdRes :=
  let alg := le p 0 1
  let n := aeadKeyLen alg
  let blk := fun (scope : Nat) => bindingBlock 1 alg n scope
  let f := s.keyForm p 32 n (le p 1 1 == 1) [blk fid, blk 0xFFFFFFFF]
  checked (bad (decide (4 < alg)) 0 :: bad (decide (1 < le p 1 1)) 1 :: reserved p 2 2 ++ reserved p 16 16 ++ f.1 ++ s.keyGate ++
      [(decide ((s.quotaOf fid).key ≤ s.keysOf fid), stQuota, 20)]) fun _ =>
    match lowestFree (fun i => (s.keyOf i).isSome) (hpOf fid * 32768) 32768 with
    | none => .fail stNoResource 0 []
    | some i =>
      let lim := le p 8 8
      let k : KeyInfo := { fid := fid, fgen := (s.fn fid).gen, alg := alg, salt := BitVec.ofNat 32 (le p 4 4)
                           limit := if lim = 0 then 281474976710656 else lim, key := f.2 }
      let s := s.modSlot i (fun x => { x with info := some k })
      .ok s stOk (toLe 4 (keyHandle i (s.slot i)))

/-- KEY_LOAD (R111). -/
def execKeyLoad (fid : Fid) (s : State) : Outcome :=
  done (s.runCmd { op := 0x0501, lenMin := 96, lenMax := 96 } fid noScope (State.cmdKeyLoad fid))

/-- The checks on a KEY_HANDLE that a command names (R81, R82, R342); `off` is its payload offset. DEDUCED (log 60). -/
def State.handleChecks (s : State) (owns : Nat → Bool) (h off : Nat) : List (Bool × Nat × Nat) :=
  let x := s.slot (handleSlot h)
  let held := x.info.isSome
  [bad (bits h 18 6 != 0) off,
   (match x.info with
    | some k => !owns k.fid
    | none => false, stNotFound, 0),
   (handleGen h != x.gen.toNat, stStaleGen, x.gen.toNat), (!held, stNotFound, 0)]

/-- Jobs queued with a key complete now, those on cores first (R112, R368). DEDUCED (log 60). -/
def State.finishJobs (n : Nat) (s : State) : State :=
  let h := halfOfSlot n
  let run := (s.cry.cores.filter (fun e => e.2.slot == n)).map (·.2)
  let wait := (s.bulkQ h).filter (fun j => j.slot == n)
  let s := (s.modCry (fun c => { c with cores := c.cores.filter (fun e => e.2.slot != n) })).setBulk h ((s.bulkQ h).filter (fun j => j.slot != n))
  s.each State.bulkDone (run ++ wait)

/-- Jobs queued with a key wait for its unwrap (R341). -/
def State.keyComing (s : State) (n : Nat) : Bool := s.cry.unwrapping.contains n && (s.bulkQ (halfOfSlot n)).any (fun j => j.slot == n)

/-- KEY_DESTROY (R112, R368): it waits for the jobs with the key whose input is still being read, or whose key is, and lets the others complete. -/
def State.cmdKeyDestroy (fid : Nat) (s : State) (p : Bytes) : CmdRes :=
  let h := le p 0 4
  let n := handleSlot h
  checked (s.otherHalf fid (halfOfSlot n) :: s.handleChecks (s.ownsOr fid) h 0 ++ [(s.cry.sas.anyV (fun _ a => a.slot == n), stBusy, 0)]) fun _ =>
    if s.slotTaken n || s.keyComing n then .wait else .ok ((s.finishJobs n).zeroSlot n) stOk []

/-- KEY_DESTROY (R112). -/
def execKeyDestroy (fid : Fid) (s : State) : Outcome :=
  done (s.runCmd { op := 0x0502, lenMin := 4, lenMax := 4 } fid noScope (State.cmdKeyDestroy fid))

/-- KEY_QUERY (R112). -/
def State.cmdKeyQuery (fid : Nat) (s : State) (p : Bytes) : CmdRes :=
  let h := le p 0 4
  checked (s.otherHalf fid (halfOfSlot (handleSlot h)) :: s.handleChecks (s.ownsOr fid) h 0) fun _ =>
    match s.keyOf (handleSlot h) with
    | none => .fail stNotFound 0 []
    | some k => .ok s stOk (toLe 8 k.used ++ toLe 8 k.limit ++ toLe 1 (b2n !k.fresh) ++ toLe 1 k.alg ++ List.replicate 6 0)

/-- KEY_QUERY (R112). -/
def execKeyQuery (fid : Fid) (s : State) : Outcome :=
  done (s.runCmd { op := 0x0503, lenMin := 4, lenMax := 4 } fid noScope (State.cmdKeyQuery fid))

/-! ## SA_CREATE, SA_DESTROY (R113, R114, R355) -/

/-- The replay windows of R113: none, or a power of two from 64 to 4,096. DEDUCED (log 61). -/
def replayWins : List Nat := [0, 64, 128, 256, 512, 1024, 2048, 4096]

/-- SA_CREATE (R113, R348, R355). DEDUCED (log 61, 111). -/
def State.cmdSaCreate (fid : Nat) (s : State) (p : Bytes) : CmdRes :=
  let out := le p 4 1 == 1
  let tunnel := le p 5 1 == 1
  let esn := le p 6 1 == 1
  let ol := le p 7 1
  let h := le p 8 4
  let win := le p 12 2
  checked (s.otherHalf fid (halfOfSlot (handleSlot h)) ::
      [bad (le p 0 4 == 0) 0, bad (decide (1 < le p 4 1)) 4, bad (decide (1 < le p 5 1)) 5, bad (decide (1 < le p 6 1)) 6,
       bad (if out && tunnel then ol != 20 && ol != 40 else ol != 0) 7, bad (bits h 18 6 != 0) 8,
       bad (if out then win != 0 else !replayWins.contains win || (esn && win == 0)) 12] ++ reserved p 14 18 ++
      s.handleChecks (· == fid) h 8 ++
      [(s.cry.state != .ready, stBadState, s.cry.state.code),
       (!out && s.cry.sas.anyV (fun _ a => a.fid == fid && !a.out && a.spi == le p 0 4), stExists, 0),
       (decide ((s.quotaOf fid).key ≤ s.keysOf fid), stQuota, 20)]) fun _ =>
    match lowestFree (fun i => (s.sa i).isSome) (hpOf fid * 16384) 16384 with
    | none => .fail stNoResource 0 []
    | some i =>
      .ok (s.setSa i { fid := fid, spi := le p 0 4, out := out, tunnel := tunnel, esn := esn, hdr := slice p 32 ol, slot := handleSlot h
                       win := win }) stOk (toLe 4 i)

/-- SA_CREATE (R113). -/
def execSaCreate (fid : Fid) (s : State) : Outcome :=
  done (s.runCmd { op := 0x0504, lenMin := 96, lenMax := 96 } fid noScope (State.cmdSaCreate fid))

/-- Inline packets already in the scheduler finish under their association (R359). DEDUCED (log 60). -/
def State.finishInline (n : Nat) (a : Sa) (s : State) : State :=
  let h := halfOfSlot a.slot
  let mine := fun (j : InlJob) => match j with
    | .esp x => if x.pkt.sa = some n then some x else none
    | _ => none
  let q := s.inlQ h
  (s.setInl h (q.filter (fun j => (mine j).isNone))).each (State.runInline h) (q.filterMap mine)

/-- SA_DESTROY (R114, R359). -/
def State.cmdSaDestroy (fid : Nat) (s : State) (p : Bytes) : CmdRes :=
  let n := le p 0 4
  match s.sa n with
  | none => checked [bad (decide (131071 < n)) 0] fun _ => .fail stNotFound 0 []
  | some a =>
    checked [s.otherHalf fid (halfOfSlot a.slot), (!s.ownsOr fid a.fid, stNotFound, 0)] fun _ =>
      .ok ((s.finishInline n a).modCry (fun c => { c with sas := Tab.del n c.sas })) stOk []

/-- SA_DESTROY (R114). -/
def execSaDestroy (fid : Fid) (s : State) : Outcome :=
  done (s.runCmd { op := 0x0505, lenMin := 4, lenMax := 4 } fid noScope (State.cmdSaDestroy fid))

end Sys2Proof.Machine
end

