-- ==== Sys2Proof/Machine/CmdLrd.lean ====
section
/-! DEFINITION. Mailbox commands of the transport: parameters, trust-domain keys, endpoints and memory windows (R104 to R110, R285, R319,
R325, R347, R534). -/

namespace Sys2Proof.Machine

open Sys2Proof

/-! ## LRD_CONFIG, TD_KEY_SET (R104, R105) -/

/-- LRD_CONFIG (R104). -/
def State.cmdLrdConfig (s : State) (p : Bytes) : CmdRes :=
  let node := le p 0 4
  let life := le p 4 2
  checked (bad (node == 0 || node == 0xFFFFFFFF) 0 :: bad (decide (life < 100) || decide (1500 < life)) 4 :: reserved p 6 2 ++ reserved p 12 4 ++
      [(node != s.lrd.nodeId && !s.lrd.eps.isEmpty, stBusy, 0)]) fun _ =>
    .ok (s.modLrd (fun l => { l with nodeId := node, lifeUs := life, target := le p 8 4 })) stOk []

/-- LRD_CONFIG (R104). -/
def execLrdConfig (fid : Fid) (s : State) : Outcome :=
  done (s.runCmd { op := 0x0401, issuer := 2, east := false, lenMin := 16, lenMax := 16 } fid noScope State.cmdLrdConfig)

/-- A domain takes a new key (R285): the first is used for sending at once, a later one after 1 s of device time. -/
def Td.install (now : Nat) (k : TdKey) (t : Td) : Td :=
  match t.cur with
  | none => { cur := some k, prev := none, switchAt := none }
  | some c => { cur := some k, prev := some c, switchAt := some (now + 1000000000) }

/-- Derived keys of a domain whose epoch is neither CURRENT nor PREVIOUS are dropped (R287). -/
def State.dropPairs (h td : Nat) (s : State) : State :=
  s.setPairKeys h ((s.pairKeys h).filter (fun k => k.td != td || ((s.td h td).byEpoch k.epoch).isSome))

/-- Installs a key on the copies of the halves listed. DEDUCED (log 109). -/
def State.tdInstall (td : Nat) (k : TdKey) (halves : List Nat) (s : State) : State :=
  let first := (s.td 0 td).cur.isNone
  let s := s.each (fun h s => (s.modTd h td (Td.install s.clock.dev k)).dropPairs h td) halves
  let s := if first then s.modLrd (fun l => { l with tdSent := Tab.del td l.tdSent }) else s
  s.each State.launch (s.lrd.msgs.keysWhere (fun _ m => m.state == .queued && m.td == td))

/-- The epoch rule of R105: the first key of a domain may carry any. -/
def epochBad (cur : Option TdKey) (e : Nat) : Bool :=
  match cur with
  | none => false
  | some c => let d := (e + 65536 - c.epoch) % 65536; d == 0 || decide (32767 < d)

/-- TD_KEY_SET (R105, R285, R347). -/
def State.cmdTdKeySet (s : State) (p : Bytes) : CmdRes :=
  let td := le p 0 2
  let e := le p 2 2
  let f := s.keyForm p 8 32 (le p 4 1 == 1) [bindingBlock 2 0xFF 32 (td + 65536 * e)]
  let t := s.td 0 td
  checked (bad (decide (4095 < td)) 0 :: bad (epochBad t.cur e) 2 :: bad (decide (1 < le p 4 1)) 4 :: reserved p 5 3 ++ f.1 ++ s.keyGate ++
      [(t.switchAt.isSome, stBusy, 0)]) fun _ =>
    .ok (s.tdInstall td ⟨e, f.2⟩ (if s.rel.split then [0] else [0, 1])) (if s.rel.split then stSplitPartial else stOk) []

/-- TD_KEY_SET (R105). -/
def execTdKeySet (fid : Fid) (s : State) : Outcome :=
  done (s.runCmd { op := 0x0402, issuer := 2, east := false, lenMin := 72, lenMax := 72 } fid noScope State.cmdTdKeySet)

/-! ## Endpoints (R106 to R108) -/

/-- EP_BACKING_SET (R106). -/
def State.cmdEpBackingSet (fid : Nat) (s : State) (p : Bytes) : CmdRes :=
  checked (bad (le p 0 8 % 4096 != 0) 0 :: bad (decide (le p 8 4 < ((s.quotaOf fid).ep * 256 + 1023) / 1024)) 8 :: reserved p 12 4 ++
      [((s.resOf fid).backing.isSome, stExists, 0)]) fun _ =>
    .ok (s.modRes fid (fun r => { r with backing := some (BitVec.ofNat 64 (le p 0 8), le p 8 4) })) stOk []

/-- EP_BACKING_SET (R106). -/
def execEpBackingSet (fid : Fid) (s : State) : Outcome :=
  done (s.runCmd { op := 0x0403, lenMin := 16, lenMax := 16 } fid noScope (State.cmdEpBackingSet fid))

/-- An endpoint number is in use, or was until less than 4 ms ago (R325). -/
def State.epTaken (s : State) (n : Nat) : Bool :=
  (s.ep n).isSome || match Tab.find n s.lrd.epFreed with
    | none => false
    | some t => decide (s.clock.now < t + 4000000)

/-- Endpoint numbers from `b` on that are in use or were until less than 4 ms ago. -/
def State.epsFrom (s : State) (b : Nat) : Nat :=
  s.lrd.eps.countV (fun n _ => decide (b ≤ n)) + s.lrd.epFreed.countP (fun e => decide (b ≤ e.1) && (s.ep e.1).isNone && s.epTaken e.1)

/-- Moves a bound down until the `n` highest numbers that are not in use lie from it on. -/
def State.reserveFrom (s : State) (n : Nat) : Nat → Nat → Nat
  | 0, b => b
  | k + 1, b => let c := 1048576 - (n + s.epsFrom b); if c = b then b else State.reserveFrom s n k c

/-- Where the numbers assigned to east begin: the 65,536 highest that are not in use (R534). In split mode the reserve stands as the split found it.
DESIGN CHOICE (log 12): which numbers they are. -/
def State.epBase (s : State) : Nat :=
  if s.rel.split then s.rel.reserveAt else s.reserveFrom 65536 (s.lrd.eps.length + s.lrd.epFreed.length + 1) 983040

/-- The numbers that EP_CREATE may give: those of the reserve to east in split mode, those below it to every other (R534). DEDUCED (log 109). -/
def State.epRange (s : State) (fid : Nat) : Nat × Nat :=
  let b := s.epBase
  if s.onShadow fid then (b, if s.rel.reserveE = 0 then 0 else 1048576 - b) else (0, b)

/-- Endpoints of a function. -/
def State.epCount (s : State) (fid : Nat) : Nat := s.lrd.eps.countV (fun _ e => e.fid == fid)

/-- The endpoint EP_CREATE makes; its ordinal is the lowest of its function that no endpoint has (R107, R319). Where every context the half can hold
is pinned, the new one is written to its slot (R319). DEDUCED (log 109). -/
def State.epMake (fid n : Nat) (p : Bytes) (s : State) : State :=
  let used := fun (o : Nat) => s.lrd.eps.any (fun e => e.2.fid == fid && e.2.ord == o)
  let e : Ep := { fid := fid, gen := (s.fn fid).gen, td := le p 0 2, sq := le p 4 4, cq := le p 8 4, limit := le p 2 2
                  ord := (lowestFree used 0 1048576).getD 0 }
  let s := (s.roomEp (halfOfFid fid) 65536).modLrd (fun l => { l with eps := Tab.set n e l.eps, epLast := Tab.set n fid l.epLast })
  let s := if s.onShadow fid then { s with rel := { s.rel with reserveE := s.rel.reserveE - 1 } } else s
  if s.epsOnChip (halfOfFid fid) ≤ 65536 then s.touchEp n else s.evictEp n

/-- EP_CREATE (R107, R280). DEDUCED (log 109). DESIGN CHOICE (log 12). -/
def State.cmdEpCreate (fid : Nat) (s : State) (p : Bytes) : CmdRes :=
  let td := le p 0 2
  let lim := le p 2 2
  let sq := le p 4 4
  let g := s.quotaOf fid
  checked [s.otherHalf fid (sq / 131072), s.otherHalf fid (le p 8 4 / 131072), bad (decide (4095 < td)) 0, bad (lim == 0 || decide (4096 < lim)) 2, bad (decide (262143 < sq)) 4, bad (decide (262143 < le p 8 4)) 8,
      ((s.td (b2n (s.onShadow fid)) td).cur.isNone, stNotFound, 0), (!s.owned (sqKey sq) fid, stNotFound, 0),
      (!s.owned (cqKey (le p 8 4)) fid, stNotFound, 0),
      bad (match s.ring (sqKey sq) with
        | none => false
        | some r => r.use != .lrd) 4,
      s.busy (.ring (sqKey sq)), ((s.epOfSq sq).isSome, stExists, 0), ((s.resOf fid).backing.isNone || s.lrd.nodeId == 0, stBadState, 0),
      (decide (g.ep ≤ s.epCount fid), stQuota, 16), (decide (g.msg < lim), stQuota, 28)] fun _ =>
    match lowestFree s.epTaken (s.epRange fid).1 (s.epRange fid).2 with
    | none => .fail stNoResource 0 []
    | some n => .ok (s.epMake fid n p) stOk (toLe 4 n ++ toLe 2 fid ++ toLe 1 (s.fn fid).gen.toNat ++ [0] ++ toLe 4 s.lrd.nodeId)

/-- EP_CREATE (R107). -/
def execEpCreate (fid : Fid) (s : State) : Outcome :=
  done (s.runCmd { op := 0x0404, lenMin := 12, lenMax := 12 } fid noScope (State.cmdEpCreate fid))

/-- Some message of an endpoint is outstanding, or a notification waits in its hold (R293, R294, R326). -/
def State.epBusy (s : State) (n : Nat) : Bool :=
  s.lrd.msgs.any (fun e => epOfMsg e.1 == n) ||
  match s.ep n with
  | none => false
  | some e => s.epDue e.cq n notifyTag != 0 || s.rings.any (fun q => kindOfKey q.1 == 1 && s.epDue (numOfKey q.1) n exhaustTag != 0)

/-- EP_DESTROY is accepted with work left: new submissions are refused, and messages in QUEUED end with CANCELLED (R108, R298, R326).
DEDUCED (log 58). -/
def State.epEnding (n : Nat) (s : State) : State :=
  (s.modEp n (fun e => { e with destroying := true })).each (fun k => State.endMsg k 0x1D 0)
    (s.lrd.msgs.keysWhere (fun k m => epOfMsg k == n && m.state == .queued))

/-- EP_DESTROY (R108). -/
def State.cmdEpDestroy (fid : Nat) (s : State) (p : Bytes) : CmdRes :=
  let n := le p 0 4
  match s.ep n with
  | none => checked [bad (decide (1048575 < n)) 0] fun _ => .fail stNotFound 0 []
  | some e =>
    checked [s.otherHalf fid (halfOfFid e.fid), (!s.ownsOr fid e.fid, stNotFound, 0), s.busy (.ep n)] fun _ =>
      if s.epBusy n then .pend (s.epEnding n) (.epDestroy n)
      else .ok (s.removeEp n) stOk []

/-- EP_DESTROY (R108). -/
def execEpDestroy (fid : Fid) (s : State) : Outcome :=
  done (s.runCmd { op := 0x0405, cls := 1, lenMin := 4, lenMax := 4 } fid noScope (State.cmdEpDestroy fid))

/-! ## Memory windows (R109, R110) -/

/-- A window index is in use, or was until less than 4 ms ago (R110). -/
def State.winTaken (s : State) (i : Nat) : Bool :=
  match Tab.find i s.lrd.wins with
  | none => false
  | some w => w.live || match w.freed with
    | none => false
    | some t => decide (s.clock.now < t + 4000000)

/-- MR_REGISTER (R109). DESIGN CHOICE (log 12, 129). -/
def State.cmdMrRegister (fid : Nat) (s : State) (p : Bytes) : CmdRes :=
  let ep := le p 20 4
  let len := le p 8 8
  let any := ep == 0xFFFFF
  checked ((match s.ep ep with
        | some e => s.otherHalf fid (if e.fid = fid then halfOfFid fid else halfOfFid e.fid)
        | none => (false, stSplitMode, 0)) ::
      bad (len == 0 || decide (1099511627776 < len)) 8 :: bad (le p 16 1 == 0 || decide (3 < le p 16 1)) 16 :: reserved p 17 3 ++
      [bad (decide (0xFFFFF < ep)) 20,
       (!any && (match s.ep ep with
          | none => true
          | some e => e.fid != fid), stNotFound, 0), (!any && s.objBusy (.ep ep), stBusy, 0),
       (decide ((s.quotaOf fid).mr ≤ s.lrd.wins.countV (fun _ w => w.live && w.fid == fid)), stQuota, 24)]) fun _ =>
    match lowestFree s.winTaken 0 16777216 with
    | none => .fail stNoResource 0 []
    | some i =>
      let g : Byte := match Tab.find i s.lrd.wins with
        | none => 1
        | some w => w.gen
      let w : Win := { gen := g, fid := fid, addr := le p 0 8, len := len, access := le p 16 1, ep := if any then none else some ep }
      .ok (s.modLrd (fun l => { l with wins := Tab.set i w l.wins })) stOk (toLe 4 (i * 256 + g.toNat))

/-- MR_REGISTER (R109). -/
def execMrRegister (fid : Fid) (s : State) : Outcome :=
  done (s.runCmd { op := 0x0406, lenMin := 24, lenMax := 24 } fid noScope (State.cmdMrRegister fid))

/-- MR_DEREGISTER (R110): the generation advances; no DMA of the window is under way between two events, so its work ends at once. DEDUCED
(log 109). -/
def State.cmdMrDeregister (fid : Nat) (s : State) (p : Bytes) : CmdRes :=
  let i := le p 0 4 / 256
  match Tab.find i s.lrd.wins with
  | none => .fail stNotFound 0 []
  | some w =>
    checked [s.otherHalf fid (halfOfFid w.fid), (!s.ownsOr fid w.fid, stNotFound, 0), (w.gen.toNat != le p 0 4 % 256, stStaleGen, w.gen.toNat),
        (!w.live, stNotFound, 0)] fun _ =>
      .ok (s.modLrd (fun l => { l with
        wins := Tab.set i { w with gen := nextGen w.gen, live := false, freed := some s.clock.now } l.wins })) stOk []

/-- MR_DEREGISTER (R110). -/
def execMrDeregister (fid : Fid) (s : State) : Outcome :=
  done (s.runCmd { op := 0x0407, cls := 1, lenMin := 4, lenMax := 4 } fid noScope (State.cmdMrDeregister fid))

end Sys2Proof.Machine
end

