-- ==== Sys2Proof/Machine/CmdCore.lean ====
section
/-! DEFINITION. Mailbox commands of the offload cores: programs, modes, slot tables, threads and channels (R119 to R123, R383, R386 to R391,
R411, R416, R418). -/

namespace Sys2Proof.Machine

open Sys2Proof

/-! ## Ranges of cores (R119, R120) -/

/-- The cores of a range. -/
def coreRange (p : Bytes) : List Nat := (List.range (le p 1 1)).map (fun i => le p 0 1 + i)

/-- The field checks of FIRST_CORE and CORE_COUNT: every core of the range lies on one half. -/
def coreRangeBad (p : Bytes) : List (Bool × Nat × Nat) :=
  let c := le p 0 1
  let n := le p 1 1
  [bad (decide (127 < c)) 0, bad (n == 0 || decide (64 < n) || decide (128 < c + n) || halfOfCore c != halfOfCore (c + n - 1)) 1]

/-- The first core of a list that satisfies `p` is refused with ST_BAD_STATE and its mode. -/
def State.coreBad (s : State) (cs : List Nat) (p : Nat → Bool) : Bool × Nat × Nat :=
  match cs.find? p with
  | none => (false, stBadState, 0)
  | some c => (true, stBadState, (s.core c).mode)

/-! ## CORE_LOAD (R119, R383) -/

/-- Writes a program into a core, whose instruction cache is invalidated (R383). -/
def State.loadCore (addr fid : Nat) (image : Bytes) (c : Nat) (s : State) : State :=
  (((s.memWrite (16 * c) addr image).modThread (16 * c) (fun t => { t with resv := none })).modCore c (fun x => { x with owner := some fid })).fenceI c

/-- CORE_LOAD (R119, R383): `image` is what the host's memory holds at IMAGE_ADDR, none where a read fails; `ecrcFails` of its
requests fail their first ECRC (R42). DEDUCED (log 70). -/
def State.cmdCoreLoad (fid : Nat) (image : Option Bytes) (ecrcFails : Nat) (s : State) (p : Bytes) : CmdRes :=
  let n := le p 4 4
  let a := le p 16 8
  let cs := coreRange p
  let fits := decide (a + n ≤ 0x40000) || (decide (0x10000000 ≤ a) && decide (a + n ≤ 0x14000000))
  checked (s.otherHalf fid (halfOfCore (le p 0 1)) :: coreRangeBad p ++ reserved p 2 2 ++ [bad (decide (1048576 < n)) 4, bad (!fits) 16,
      s.coreBad cs (fun c => (s.core c).mode != 0 || s.isRetired 7 c)]) fun _ =>
    let s := if n = 0 then s else (s.issueRead fid (BitVec.ofNat 64 (le p 8 8)) n .image).reissue fid .image ecrcFails
    match image with
    | none => if n = 0 then .ok (s.each (State.loadCore a fid []) cs) stOk [] else .answered (s.hostDma fid)
    | some b => .ok ((s.endRead fid .image).each (State.loadCore a fid (slice b 0 n)) cs) stOk []

/-- CORE_LOAD (R119). -/
def execCoreLoad (fid : Fid) (image : Option Bytes) (s : State) (ecrcFails : Nat := 0) : Outcome :=
  done (s.runCmd { op := 0x0701, cls := 1, issuer := 2, east := false, lenMin := 24, lenMax := 24 } fid noScope (State.cmdCoreLoad fid image ecrcFails))

/-! ## CORE_MODE_SET, CORE_SLOTS_SET (R120, R121, R386 to R388) -/

/-- A core changes mode: entering START stops every thread; a core that delivers packets takes those that wait. DEDUCED (log 70). -/
def State.setMode (m c : Nat) (s : State) : State :=
  if (s.core c).mode = m then s
  else
    let s := if m = 0 then s.each (fun t s => if (s.thread t).state == .stopped then s else s.quitThread t .stopped) (threadsOf c) else s
    let s := s.modCore c (fun x => { x with mode := m })
    (s.each State.feedThread (threadsOf c)).coreTidy c

/-- CORE_MODE_SET (R120, R388). -/
def State.cmdCoreModeSet (fid : Nat) (s : State) (p : Bytes) : CmdRes :=
  let cs := coreRange p
  checked (s.otherHalf fid (halfOfCore (le p 0 1)) :: coreRangeBad p ++ [bad (decide (3 < le p 2 1)) 2, bad (le p 3 1 != 0) 3,
      s.coreBad cs (s.isRetired 7)]) fun _ => .ok (s.each (State.setMode (le p 2 1)) cs) stOk []

/-- CORE_MODE_SET (R120). -/
def execCoreModeSet (fid : Fid) (s : State) : Outcome :=
  done (s.runCmd { op := 0x0703, cls := 1, issuer := 2, east := false, lenMin := 4, lenMax := 4 } fid noScope (State.cmdCoreModeSet fid))

/-- The entries of a slot table that name no thread and are not IDLE. DEDUCED (log 70). -/
def slotsBad (t : List Nat) : List (Bool × Nat × Nat) :=
  (List.range 64).map (fun i => let v := t.getD i 0; bad (decide (15 < v) && v != 0xFF) (4 + i))

/-- CORE_SLOTS_SET (R121, R386). -/
def State.cmdCoreSlotsSet (fid : Nat) (s : State) (p : Bytes) : CmdRes :=
  let c := le p 0 1
  let t := (slice p 4 64).map (·.toNat)
  checked (s.otherHalf fid (halfOfCore c) :: bad (decide (127 < c)) 0 :: reserved p 1 3 ++ slotsBad t ++
      [bad (!t.contains 0) 4, s.coreBad [c] (s.isRetired 7)]) fun _ => .ok (s.modCore c (fun x => { x with next := some t })) stOk []

/-- CORE_SLOTS_SET (R121). -/
def execCoreSlotsSet (fid : Fid) (s : State) : Outcome :=
  done (s.runCmd { op := 0x0702, issuer := 2, east := false, lenMin := 68, lenMax := 68 } fid noScope (State.cmdCoreSlotsSet fid))

/-- SLOT_TABLE_SWITCH (R386): at the start of a rotation the table that waits takes effect. -/
def execSlotTableSwitch (core : CoreId) (s : State) : Outcome :=
  match (s.core core.val).next with
  | none => done s
  | some t => done ((s.modCore core.val (fun x => { x with slots := t, next := none })).coreTidy core.val)

/-! ## THREAD_CTRL (R122, R390) -/

/-- The thread states that allow an operation: START, STOP, HALT, RESUME (R390). -/
def threadOpFits (op : Nat) (st : ThState) : Bool :=
  match op with
  | 0 => st == .stopped || st == .faulted
  | 1 => st != .lost
  | 2 => st == .running || st == .waiting
  | _ => st == .halted

/-- The effect of an operation on a thread (R390, R391). DEDUCED (log 70). -/
def State.threadOp (op t : Nat) (pc : BitVec 64) (s : State) : State :=
  match op with
  | 0 => s.startThread t pc
  | 1 => if (s.thread t).state == .stopped then s else s.quitThread t .stopped
  | 2 => ((s.dropRetry t).modThread t (fun th => { th with state := .halted, was := th.state })).coreTidy (coreOf t)
  | _ => (s.modThread t (fun th => { th with state := th.was })).coreTidy (coreOf t)

/-- THREAD_CTRL (R122). DESIGN CHOICE (log 130). -/
def State.cmdThreadCtrl (fid : Nat) (s : State) (p : Bytes) : CmdRes :=
  let t := le p 0 2
  let op := le p 2 1
  let st := (s.thread t).state
  checked (s.otherHalf fid (halfOfThread t) :: bad (decide (2047 < t)) 0 :: bad (decide (3 < op)) 2 :: reserved p 3 5 ++
      [(decide (2 ≤ op) && s.boot.lc != 2 && s.boot.lc != 3, stLifeCycle, s.boot.lc), (!threadOpFits op st, stBadState, st.code)]) fun _ =>
    .ok (s.threadOp op t (BitVec.ofNat 64 (le p 8 8))) stOk []

/-- THREAD_CTRL (R122). -/
def execThreadCtrl (fid : Fid) (s : State) : Outcome :=
  done (s.runCmd { op := 0x0704, issuer := 2, lenMin := 16, lenMax := 16 } fid noScope (State.cmdThreadCtrl fid))

/-! ## Channels (R123, R411, R416) -/

/-- CHAN_CREATE (R123, R411). -/
def State.cmdChanCreate (fid : Nat) (s : State) (p : Bytes) : CmdRes :=
  let c := le p 0 2
  let t := le p 2 2
  let any := c == 0xFFFF
  let there := match s.chan c with
    | none => false
    | some x => !x.orphan
  checked [s.otherHalf fid (halfOfThread t), bad (decide (4095 < c) && !any) 0, bad (decide (2047 < t)) 2, (there, stExists, 0),
      (s.isRetired 7 (coreOf t), stBadState, (s.thread t).state.code)] fun _ =>
    match if any then lowestFree (fun n => (s.chan n).isSome) 0 4096 else some c with
    | none => .fail stNoResource 0 []
    | some n => .ok (s.setChan n { reader := t }) stOk (toLe 2 n ++ [0, 0])

/-- CHAN_CREATE (R123). -/
def execChanCreate (fid : Fid) (s : State) : Outcome :=
  done (s.runCmd { op := 0x0705, issuer := 2, east := false, lenMin := 4, lenMax := 4 } fid noScope (State.cmdChanCreate fid))

/-- CH_ABANDON (R123, R416). -/
def State.cmdChAbandon (fid : Nat) (s : State) (p : Bytes) : CmdRes :=
  let c := le p 0 2
  checked (bad (decide (4095 < c)) 0 :: reserved p 2 2) fun _ =>
    match s.chan c with
    | none => .fail stNotFound 0 []
    | some x =>
      checked [s.otherHalf fid x.home] fun _ =>
        match x.holder with
        | none => .fail stBadState 0 []
        | some t => if (s.thread t).state == .halted then .ok ((s.flagThread t c 3).dropPartial c) stOk [] else .fail stBadState (s.thread t).state.code []

/-- CH_ABANDON (R123). -/
def execChAbandon (fid : Fid) (s : State) : Outcome :=
  done (s.runCmd { op := 0x0706, issuer := 2, lenMin := 4, lenMax := 4 } fid noScope (State.cmdChAbandon fid))

end Sys2Proof.Machine
end

