-- ==== Sys2Proof/Machine/Fetch.lean ====
section
/-! DEFINITION. What follows a descriptor read: the checks, the reads of what descriptors name, and the cipher jobs that schedulers take
(R108, R135, R146, R150, R351, R362). -/

namespace Sys2Proof.Machine

open Sys2Proof

/-- The home scheduler takes a fetched cipher descriptor (R351, R362): a failed key check ends the job at once, writing nothing and drawing
nothing; otherwise an ENCRYPT draws its counter value now, in the order of fetching, and a DECRYPT has its own. DEDUCED (log 63). -/
def State.fetchJob (n : Nat) (r : Ring) (d : FDesc) (s : State) : State :=
  if r.use ≠ .cipher ∨ dOpcode d.bytes = 0x0F then s
  else
    let j := BulkJob.of r.fid n d
    match s.keyCheck r.fid j.handle j.textLen j.enc with
    | some st => (s.begin_ n d.index).endBulk { j with ctr := none } st false
    | none =>
      let c := if j.enc then (match s.keyOf j.slot with
        | some k => k.used
        | none => 0) else le d.bytes 40 8
      let s := if j.enc then s.drawCtr j.slot else s
      s.modDesc n d.index (fun x => { x with taken := true, ctr := some c })

/-- Uses fetched descriptors in index order (R146): each is checked and what it names is read; an LRD work request becomes a message, or
completes at once where its SQ serves no endpoint (R108, R293), and a cipher job that draws a counter value draws it now (R351). Those whose reads
were out when an index error stopped the ring are used too. DESIGN CHOICE (log 147). -/
def State.takeDescs (n : Nat) : List (Bytes × Bytes) → State → State
  | [], s => s
  | (b, t) :: ds, s =>
    match s.ring (sqKey n) with
    | none => s
    | some r =>
      if (s.workOf (sqKey n)).reading = 0 then s
      else
        let d : FDesc := { index := r.dev, bytes := b, frags := fragsOf b t, waits := dOpcode b == 1,
                           fetchedAt := s.clock.now, fetchedDev := s.clock.dev }
        let s := (s.setRing (sqKey n) { r with dev := r.dev + 1 }).modWork (sqKey n) (fun w => { w with reading := w.reading - 1 })
        match descError r b t with
        | some e => s.descFail n d e
        | none =>
          let s := match descRole b with
            | some x => s.modRing (sqKey n) (fun r => { r with role := x })
            | none => s
          let s := s.modWork (sqKey n) (fun w => { w with fetched := w.fetched ++ [d] })
          let s :=
            if r.use == .lrd && dOpcode b != 0x0F then
              if s.lrdServed n then s.fetchMsg n r d else (s.begin_ n d.index).earn n d.index (cancelledCpl n r d)
            else if d.waits then s.pumpTx n 512
            else (s.readData n r d).fetchJob n r d
          s.takeDescs n ds

/-- DESCRIPTOR_READ_DONE (R146): a visit's reads return with 64-byte descriptors and the fragment tables they point to; the index block
is written after it (R135). -/
def execDescriptorReadDone (ring : RingNo) (descs : List (Bytes × Bytes)) (s : State) : Outcome :=
  let k := sqKey ring.toNat
  match s.ring k with
  | none => done s
  | some r =>
    if (s.workOf k).reading = 0 then done s
    else done (((s.endRead r.fid (.descs k)).takeDescs ring.toNat descs).idxWrite k)

end Sys2Proof.Machine
end

