-- ==== Sys2Proof/Machine/Tickets.lean ====
section
/-! DEFINITION. The end of ticketed work (R76, R77), and the control processor's heartbeats, failure and restart (R70, R460, R534). -/

namespace Sys2Proof.Machine

open Sys2Proof

/-! ## The end of ticketed work (R75 to R77) -/

/-- What the work of a ticket has come to: its final status, DETAIL and response with the state it leaves, or none while it goes on. DEDUCED
(log 88). DESIGN CHOICE (log 15). -/
def State.workEnd (s : State) : Work → Option (State × Nat × Nat × Bytes)
  | .fnCreate t _ _ =>
    let f := s.fn t
    if f.state = .active then some (s, stOk, 0, s.fnCreated t)
    else if f.goal = .active then none
    else some (s, stBadState, f.state.code, [])
  | .fnDestroy t =>
    let f := s.fn t
    if f.state = .idle then some (s, stOk, 0, [])
    else if f.goal = .idle then none
    else some (s, stBadState, f.state.code, [])
  | .ringDestroy k =>
    match s.ring k with
    | none => some (s, stOk, 0, [])
    | some _ => if s.sqQuiet (numOfKey k) then some (s.removeRing k, stOk, 0, []) else none
  | .epDestroy n =>
    match s.ep n with
    | none => some (s, stOk, 0, [])
    | some _ => if s.epBusy n then none else some (s.removeEp n, stOk, 0, [])
  | .portConfig np _ _ _ => some (s.portCommit np, stOk, 0, [])
  | .powerCap => if s.power.capWait.isNone then some (s, stOk, 0, []) else none

/-- TICKET_WORK_END (R70, R77): the work of a pending ticket ends, if what it waits for has come and its control processor runs; a ticket of one that
has failed waits for the restart. -/
def execTicketWorkEnd (fid : Fid) (ticket : BitVec 32) (s : State) : Outcome :=
  let k := ticketKey fid ticket.toNat
  match Tab.find k s.tickets with
  | none => done s
  | some t =>
    if t.done || !(s.cpOf t.fid).running || (s.cpOf t.fid).halted then done s
    else
      match s.workEnd t.work with
      | none => done s
      | some (s, st, d, b) => done (s.finishTicket k st d b)

/-! ## The control processor fails and runs again (R70) -/

/-- CP_HEARTBEAT_TIMEOUT (R70): 2 ms without a heartbeat the control processor has failed. -/
def execCpHeartbeatTimeout (half : Half) (dt : Nat) (s : State) : Outcome :=
  let s := s.advance dt
  let c := s.cpHalf half
  if !c.running || decide (s.clock.now < c.lastBeat + 2000000) then done s
  else done (s.cpFail half)

/-- The work of a ticket has passed its commit point with its whole effect in place (R70). DEDUCED (log 88). -/
def State.committed (s : State) : Work → Bool
  | .fnCreate t _ _ => (s.fn t).state == .active
  | .fnDestroy t => (s.fn t).state == .idle
  | .ringDestroy k => (s.ring k).isNone
  | .epDestroy n => (s.ep n).isNone
  | .portConfig np b _ e => (s.np np).breakout == b && (s.np np).enable == e
  | .powerCap => true

/-- A ticket ends for good with a status: what its command had not committed is withdrawn (R70, R82). DEDUCED (log 88). -/
def State.cutTicket (st k : Nat) (s : State) : State :=
  match Tab.find k s.tickets with
  | none => s
  | some t =>
    if t.done then s
    else if s.committed t.work then s.finishTicket k st 1 []
    else (s.withdraw t.work).finishTicket k st 0 []

/-- CP_RESTART (R70, R515): a control processor that failed runs again; every ticket it held ends with ST_CP_RESTART. -/
def execCpRestart (half : Half) (s : State) : Outcome :=
  let c := s.cpHalf half
  if c.running || !c.unavailable || s.boot.stage != .ready || (half != 0 && !s.rel.split) then done s
  else
    let ks := s.tickets.keysWhere (fun _ t => !t.done && b2n (s.onShadow t.fid) == half.val)
    let s := s.modCp half (fun _ => { unavailable := false, running := true, lastBeat := s.clock.now })
    done ((s.each (State.cutTicket stCpRestart) ks).ledgerAdd 0x0031 0 (toLe 4 (c.answered + ks.length)))

/-- HRT_HEARTBEAT (R460): any write is a heartbeat; a control processor that the debug port has halted makes none (R469). -/
def execHrtHeartbeat (half : Half) (_value : BitVec 32) (s : State) : Outcome :=
  done (s.modCp half (fun c => { c with lastBeat := if c.halted then c.lastBeat else s.clock.now }))

end Sys2Proof.Machine
end

