-- ==== Sys2Proof/Machine/Split.lean ====
section
/-! DEFINITION. Die-to-die links, split mode and rejoin (R20 to R22, R36, R37, R533 to R538), the scrubs and migrations of R522 and R531. -/

namespace Sys2Proof.Machine

open Sys2Proof

/-! ## Die-to-die links (R20, R21, R36) -/

/-- Both halves are healthy and out of reset (R36). -/
def State.healthy (s : State) : Bool := !s.rel.badW && !s.rel.badE && !s.rel.heldW && !s.rel.heldE

/-! ## Traffic between the halves stops (R37, R416, R533) -/

/-- The packets of a list that a half may not read, and the others. -/
def acrossOf (h : Nat) (ps : List Pkt) : List Pkt × List Pkt := ps.partition (fun p => p.half != h)

/-- The packets of the other half that a pipeline's input, parse processors and second-pass queue hold. -/
def Pipe.across (h : Nat) (q : Pipe) : List Pkt := (q.inj7 ++ q.inj ++ q.second ++ q.deepRun.map (·.pkt)).filter (fun p => p.half != h)
/-- A pipeline's input, parse processors and second-pass queue without packets of the other half. -/
def Pipe.ownOnly (h : Nat) (q : Pipe) : Pipe :=
  let mine := fun (p : Pkt) => p.half == h
  { q with inj7 := q.inj7.filter mine, inj := q.inj.filter mine, second := q.second.filter mine, deepRun := q.deepRun.filter (fun d => mine d.pkt) }

/-- What a pipeline, its egress half and its LPs' queues hold from the other half is dropped. -/
def State.cutPipe (n : Nat) (s : State) : State :=
  let h := halfOfPipe n
  let s := (s.modPipe n (Pipe.ownOnly h)).each State.splitDrop ((s.pipe n).across h)
  let eg := (s.pipe n).egIn.partition (fun e => e.2.half != h)
  let s := (s.modPipe n (fun q => { q with egIn := eg.2 })).each State.splitDrop (eg.1.map (·.2))
  let ks := (s.net.egq.map (·.1)).filter (fun k => k / 64 == n)
  s.each (fun k s =>
    let x := acrossOf h (s.egq k).queue
    (s.modEgq k (fun q => { q with queue := x.2 })).each State.splitDrop x.1) ks

/-- Packets that wait for a receive ring of the other half are dropped. -/
def State.cutRing (k : Nat) (s : State) : State :=
  match s.ring k with
  | none => s
  | some r =>
    let x := acrossOf (halfOfFid r.fid) (s.workOf k).rxWait
    if x.1.isEmpty then s else (s.modWork k (fun w => { w with rxWait := x.2 })).each State.splitDrop x.1

/-- An ESP packet in a half's scheduler from the other half. -/
def InlJob.far (h : Nat) : InlJob → Option InlineJob
  | .esp j => if j.pkt.half = h then none else some j
  | _ => none

/-- ESP packets in a half's cipher scheduler from the other half are dropped. -/
def State.cutInl (h : Nat) (s : State) : State :=
  let js := s.inlQ h
  let far := js.filterMap (InlJob.far h)
  if far.isEmpty then s else (s.setInl h (js.filter (fun j => (j.far h).isNone))).each State.espSplitDrop far

/-- ESP packets of a pipeline that wait for the other half's cipher scheduler are dropped. -/
def State.cutCry (n : Nat) (s : State) : State :=
  let x := (s.pipe n).cryWait.partition (fun j => halfOfSa (j.pkt.sa.getD 0) != j.pkt.half)
  if x.1.isEmpty then s else (s.modPipe n (fun q => { q with cryWait := x.2 })).each State.espSplitDrop x.1

/-- Packets of a spread group that wait on the half that is not its home are dropped. -/
def State.cutGroup (g : Nat) (s : State) : State :=
  let x := acrossOf (s.spread g).home (s.spread g).waitq
  (s.modSpread g (fun y => { y with waitq := x.2 })).each State.splitDrop x.1

/-- Packets of the other half that a Byre queue holds are dropped. -/
def State.cutByre (k : Nat) (s : State) : State :=
  let x := acrossOf (k / 32) (s.byreQ k)
  if x.1.isEmpty then s else ({ s with net := { s.net with byre := Tab.set k x.2 s.net.byre } }).each State.splitDrop x.1

/-- A packet of a thread is lost to the split and counted there alone; its sequence number is released (R30). -/
def State.cutThPkt (p : ThPkt) (s : State) : State :=
  let s := match p.pkt.group with
    | some (g, n) => s.toReorder g n .discard
    | none => s
  s.splitDrop p.pkt

/-- Packets that a thread of the other half holds or has queued are dropped. DEDUCED (log 89). -/
def State.cutThread (t : Nat) (s : State) : State :=
  let h := halfOfThread t
  let th := s.thread t
  let q := th.queue.partition (fun p => p.pkt.half != h)
  let held := th.held.toList.filter (fun p => p.pkt.half != h)
  if q.1.isEmpty && held.isEmpty then s
  else
    (s.modThread t (fun th => { th with queue := q.2, held := if held.isEmpty then th.held else none })).each State.cutThPkt (held ++ q.1)

/-- A channel whose writer is on the other half loses its partial message; its writer is flagged CH_ABANDONED, and writers that retry find
it out of reach (R416). DEDUCED (log 89). -/
def State.cutChan (c : Nat) (s : State) : State :=
  match s.chan c with
  | none => s
  | some x =>
    let far := x.retry.filter (fun t => halfOfThread t != x.home)
    let s := s.setChan c { x with retry := x.retry.filter (fun t => halfOfThread t == x.home) }
    let s := s.each (fun t s => (s.modThread t (fun th => { th with retry := none })).xfail t
      (match (s.thread t).retry with
        | some r => r.2.2
        | none => 0) 6) far
    match x.holder with
    | none => s
    | some t =>
      if halfOfThread t = x.home then s
      else ((s.bump 3 (halfOfThread t) 9216).flagThread t c 3).dropPartial c

/-- Cross-half traffic stops: what is bound across the halves is dropped and counted in SPLIT_DROP (R533). DEDUCED (log 89). -/
def State.cutHalves (s : State) : State :=
  if s.rel.cut then s
  else
    let s := { s with rel := { s.rel with cut := true, lostAt := s.clock.now } }
    let s := s.each State.cutPipe (List.range 16)
    let s := s.each State.cutRing (s.work.map (·.1))
    let s := (s.each State.cutInl [0, 1]).each State.cutCry (List.range 16)
    let s := s.each State.cutGroup (s.net.spread.map (·.1))
    let s := s.each State.cutByre (s.net.byre.map (·.1))
    let s := s.each State.cutThread (s.off.threads.map (·.1))
    s.each State.cutChan (s.off.chans.map (·.1))

/-- EV_REJOIN and its Ledger record, of a phase (R545, R546). DEDUCED (log 91). -/
def State.postRejoin (phase us : Nat) (s : State) : State :=
  let n := s.linksUp.length
  (s.postPfs 0x0721 0 (toLe 1 phase ++ toLe 1 n)).ledgerAdd 0x0104 0 (toLe 1 phase ++ toLe 1 n ++ [0, 0] ++ toLe 4 us)

/-- A rejoin that has not opened the channels stops: east's tables stay frozen as reconciliation left them (R538). DEDUCED (log 91). -/
def State.stopRejoin (s : State) : State :=
  match s.rel.rejoin with
  | none => s
  | some t => (({ s with rel := { s.rel with rejoin := none } }).postRejoin 3 ((s.clock.now - t) / 1000)).answerHeld

/-- A die-to-die link is out of service; with the last one cross-half traffic stops. DEDUCED (log 90). -/
def State.linkOut (i : Nat) (s : State) : State :=
  let s := s.modD2d i (fun x => { x with down := true })
  if s.linksUp.isEmpty then s.cutHalves.stopRejoin else s

/-- D2D_LINK_LOSS (R36, R533). -/
def execD2dLinkLoss (link : Fin 5) (s : State) : Outcome := if (s.d2dLink link).down then done s else done (s.linkOut link)

/-- D2D_LANE_LOSS (R21, R519): a loss of lock is charged to the lane; a lane found at fault moves to a spare, and a link that has lost more
lanes in a direction than its 8 spares is retired. DEDUCED (log 90). -/
def State.laneOut (link dir lane : Nat) (s : State) : State :=
  let r := resId 2 (link * 208 + dir * 104 + lane)
  let c := (s.modD2d link (fun x => { x with since := s.clock.now })).charge r 1
  if !c.2 then c.1
  else
    let s := (c.1.retireRes r).modD2d link (fun x => { x with lost := x.lost ++ [dir * 104 + lane] })
    if (s.d2dLink link).lost.countP (fun l => l / 104 == dir) ≤ 8 then s
    else
      let s := (s.retireRes (resId 3 link)).linkOut link
      s.postRetired (resId 3 link)

/-- Flit replays within 1 ms that are traced to a lane are counted on the half that receives it, direction 0 on east; 16 are a fault of the
lane (R519, R547). DEDUCED (log 90). DESIGN CHOICE (log 117). -/
def State.replayed (link dir lane n : Nat) (s : State) : State :=
  let s := s.bumpBy 3 (1 - dir) 9217 n
  if n < 16 then s else s.laneOut link dir lane

/-- D2D_LANE_LOSS (R21, R519): nothing reaches a lane that is lost or whose link is out of service. -/
def execD2dLaneLoss (link : Fin 5) (dir : Fin 2) (lane : Fin 104) (replays : Option Nat) (s : State) : Outcome :=
  if (s.d2dLink link).down || (s.d2dLink link).lost.contains (dir * 104 + lane) then done s
  else
    match replays with
    | none => done (s.laneOut link dir lane)
    | some n => done (s.replayed link dir lane n)

/-! ## Split mode (R36, R37, R82, R533, R534) -/

/-- The half of the object a ticket's work acts on. -/
def State.workHalf (s : State) : Work → Option Nat
  | .fnCreate t _ _ => some (halfOfFid t)
  | .fnDestroy t => some (halfOfFid t)
  | .ringDestroy k => (s.ring k).map (fun r => halfOfFid r.fid)
  | .epDestroy n => (s.ep n).map (fun e => halfOfFid e.fid)
  | .portConfig np _ _ _ => some (np / 8)
  | .powerCap => none

/-- The split cuts a message off: its route's LP, or its endpoint's home, is not on its sequencer's half (R298, R327). -/
def State.cutOff (s : State) (k : Nat) (m : Msg) : Bool :=
  m.state != .ended && (m.route.any (fun r => r.1 / 64 != m.half) || (s.homeOf (epOfMsg k)).any (· != m.half))

/-- The two halves work apart: east's rules are frozen, its mailboxes are served by the shadow pair where that runs, and messages that are cut off
end with PATH_UNREACHABLE (R298, R327). -/
def State.enterSplit (shadow : Bool) (s : State) : State :=
  let s := { s with
    rel := { s.rel with split := true, reserveAt := s.epBase, rejoin := none, rulesE := if s.rel.rulesE.isSome then s.rel.rulesE else some s.net.rules }
    cpE := { unavailable := !shadow, running := shadow, lastBeat := s.clock.now } }
  s.each (fun k => State.endMsg k 0x12 0) (s.lrd.msgs.keysWhere s.cutOff)

/-- Pending tickets that need the other half end with ST_SPLIT_MODE (R82). DEDUCED (log 88). -/
def State.splitTickets (s : State) : State :=
  let ks := s.tickets.keysWhere (fun _ t => !t.done && (halfOfFid t.fid == 1 || s.workHalf t.work == some 1))
  s.each (State.cutTicket stSplitMode) ks

/-- SPLIT_DECLARE (R36, R533): Hearth finds both halves healthy. -/
def execSplitDeclare (dt : Nat) (s : State) : Outcome :=
  let s := s.advance dt
  if !s.rel.cut || s.rel.split || !s.healthy || s.boot.stage != .ready then done s
  else
    let us := (s.clock.now - s.rel.lostAt) / 1000
    let s := s.splitTickets.enterSplit true
    let s := { s with rel := { s.rel with cause := 1 }, hif := { s.hif with devState := 2 } }
    done ((s.postPfs 0x0720 0 ([1, 0, 0, 0, 0, 0, 0, 0] ++ toLe 8 s.devNow.toNat)).ledgerAdd 0x0103 0 (toLe 1 1 ++ [0, 0, 0] ++ toLe 4 us)).answerHeld

/-! ## Rejoin (R536, R537) -/

/-- East's exact-match table of a pipeline agrees with the records: command entries that are not recorded go, recorded ones are written. -/
def State.emReconcile (n : Nat) (s : State) : State :=
  let recs := s.net.emRecs.getD n []
  let known := fun (e : EmEntry) => recs.any (fun r => emKeyBytes r == emKeyBytes e.bytes)
  let all := (s.pipe n).ways.map (·.2) ++ (s.pipe n).stash
  let s := s.each (fun (e : EmEntry) s => (s.emDelete n (emKeyBytes e.bytes)).1) (all.filter (fun e => e.cmd && !known e))
  s.each (fun r s => (s.emWrite n r).1) recs

/-- A rule's owner is ACTIVE with the generation the rule records (R81). -/
def State.ruleLive (s : State) (r : Rule) : Bool := (s.fn r.fid).state == .active && (s.fn r.fid).gen == r.gen

/-- Reconciliation (R537): east agrees with the control processor's records. -/
def State.reconcile (s : State) : State :=
  let s := { s with
    net := { s.net with routesE := s.net.routesW }
    rel := { s.rel with rulesE := some (s.net.rules.filter s.ruleLive) } }
  let s := s.modLrd (fun l => { l with tdE := l.tdW })
  let s := s.setPairKeys 1 ((s.pairKeys 1).filter (fun k => ((s.td 1 k.td).byEpoch k.epoch).isSome))
  s.each State.emReconcile ((List.range 8).map (· + 8))

/-- Ticketed work that the shadow pair holds ends where it can; the rest is handed over (R536 step 2). DEDUCED (log 91). -/
def State.handOver (k : Nat) (s : State) : State :=
  match Tab.find k s.tickets with
  | none => s
  | some t =>
    if t.done then s
    else
      match s.workEnd t.work with
      | none => s
      | some (s, st, d, b) => s.finishTicket k st d b

/-- Steps 1 to 3 of R536: BEGIN, hand-over, reconciliation. East's mailboxes are held from here to the opening. DEDUCED (log 91). -/
def State.beginRejoin (s : State) : State :=
  let t := s.clock.now
  let s := s.postRejoin 1 0
  let s := (s.each State.handOver (s.tickets.keysWhere (fun _ t => s.onShadow t.fid))).reconcile
  { s with rel := { s.rel with rejoin := some t } }

/-- EV_HALF_RESET of a phase to PFs of the halves listed (R540, R545). DEDUCED (log 112). -/
def State.postHalf (fids : List Nat) (h cause phase : Nat) (s : State) : State := s.postAll fids 0x0722 h (toLe 1 cause ++ toLe 1 phase)

/-- The shadow pair holds no ticketed command that is not finished (R536 step 2). -/
def State.handedOver (s : State) : Bool := !s.tickets.anyV (fun _ t => !t.done && s.onShadow t.fid)

/-- Steps 4 and 5 of R536: what functions aborted on east held in west goes (R60), the endpoint reserve is refilled, every channel is
opened, PFs that wait for it start (R63), and a half's release is reported (R540). What changed since reconciliation reaches east too. DEDUCED (log 81,
91). -/
def State.openRejoin (us : Nat) (s : State) : State :=
  let s := s.reconcile
  let s := s.each State.releaseFar (s.fns.keysWhere (fun _ f => f.across))
  let s := { s with
    net := { s.net with rules := s.net.rules.filter s.ruleLive }
    rel := { s.rel with rulesE := none, reserveE := 65536, reserveAt := 983040, split := false, cut := false, cause := 0, rejoin := none }
    hif := { s.hif with devState := if s.boot.trial && !s.commitMark s.boot.slot then 3 else 1 }
    cpE := {} }
  let s := (s.postRejoin 2 us).each State.pfStart (s.links.map (·.1))
  let s := s.each (fun (x : Nat × Nat) s => s.postHalf s.activePfs x.1 x.2 2) s.rel.releasing
  ({ s with rel := { s.rel with releasing := [] } }).answerHeld

/-- A whole rejoin in one row, as far as the shadow pair's tickets are finished. How long it takes is open within 2 s: a free value. DEDUCED (log 91). -/
def State.reunite (s : State) : State :=
  let d := s.beginRejoin.draw
  if d.2.handedOver then d.2.openRejoin (d.1.toNat % 2000001) else d.2

/-- Rejoin may begin (R536): a link has been in service for 100 ms without a lane fault, and both halves are healthy. -/
def State.mayRejoin (s : State) : Bool :=
  s.apart && s.healthy && s.boot.stage == .ready && s.linksUp.any (fun i => decide ((s.d2dLink i).since + 100000000 ≤ s.clock.now))

/-- REJOIN (R536, R538): a rejoin begins, and comes to its opening in the same row or in a later one, once the shadow pair has finished its
tickets. -/
def execRejoin (opens : Bool) (s : State) : Outcome :=
  match s.rel.rejoin with
  | some t =>
    if opens && s.handedOver && s.healthy && s.boot.stage == .ready && !s.linksUp.isEmpty then done (s.openRejoin ((s.clock.now - t) / 1000)) else done s
  | none => if !s.mayRejoin then done s else done (if opens then s.reunite else s.beginRejoin)

/-! ## Scrubs and migrations (R522, R531) -/

/-- TCAM_SCRUB (R531): entries that differ from their shadow are rewritten and counted: those with bits that an earlier event has flipped, and
`differing` others. The rules of the state are what the shadow holds; bits that `mem` flips do so after the scrub. DEDUCED (log 110). -/
def execTcamScrub (pipe : PipeId) (differing : Nat) (s : State) (mem : MemEnv := {}) : Outcome :=
  let n := (((s.flipsOf pipe).map (·.rule)).eraseDups.filter (fun i => (s.rulesOf pipe).any (fun r => r.id == i && bit r.mask pipe))).length
  let s := ({ s with net := { s.net with flips := s.net.flips.filter (fun e => e.1 != pipe.val) } }).bumpBy 3 (halfOfPipe pipe) 9227 (n + differing)
  done (s.memEnv pipe mem .ok).2

/-- HBM_MIGRATION_DONE (R522): the pseudo-channel's addresses are remapped; `lost` of its lines could not be corrected and are counted; the access of
an owner to one fails as its own row brings it. DESIGN CHOICE (log 106). -/
def execHbmMigrationDone (resource : BitVec 32) (s : State) (lost : Nat := 0) : Outcome :=
  let r := resource.toNat
  if !s.rel.moving.contains r then done s
  else done (({ s with rel := { s.rel with moving := s.rel.moving.filter (· != r) } }).bumpBy 3 (resHalf r) 9223 lost)

end Sys2Proof.Machine
end

