-- ==== Sys2Proof/Machine/HalfReset.lean ====
section
/-! DEFINITION. The HALF reset (R539 to R544, R289, R447), the return of a die-to-die link (R535), and the loss and return of reference
clocks (R561). -/

namespace Sys2Proof.Machine

open Sys2Proof

/-! ## What a half loses (R543) -/

def State.badHalf (s : State) (h : Nat) : Bool := if h = 0 then s.rel.badW else s.rel.badE
def State.heldHalf (s : State) (h : Nat) : Bool := if h = 0 then s.rel.heldW else s.rel.heldE
def State.markHalf (h : Nat) (bad held : Bool) (s : State) : State :=
  { s with rel := if h = 0 then { s.rel with badW := bad, heldW := held } else { s.rel with badE := bad, heldE := held } }
def pipesOf (h : Nat) : List Nat := (List.range 8).map (· + 8 * h)

/-- A function of the half ends with its link (R63, R543, R544): what it holds is released, it is DISABLED with its generation kept, and
where it was ACTIVE or ABORTING the abort is recorded. DEDUCED (log 92). -/
def State.endFn (fid : Nat) (s : State) : State :=
  let f := s.fn fid
  let live := f.state == .active
  let reason := if live then 5 else f.reason
  let s := if live || f.state == .aborting then s.ledgerAdd 0x0030 fid (toLe 1 f.gen.toNat ++ toLe 1 reason) else s
  let s := s.each State.withdraw (s.openTickets fid)
  let s := { s with tickets := s.tickets.filter (fun e => e.2.fid != fid) }
  let s := s.releaseFn fid
  let s := s.modFn fid (fun x => { gen := f.gen, reason := reason, leftAt := if live then some s.clock.now else f.leftAt, across := x.across })
  { s with res := Tab.del fid s.res }

/-- The packet that inline work is about; none for one still to be encrypted. -/
def InlJob.pkt : InlJob → Option Pkt
  | .esp j => some j.pkt
  | .dec j => some j.pkt
  | .enc _ => none

/-- The packets that a half's pipelines, spread groups, Byre and schedulers hold. -/
def State.pktsOfHalf (s : State) (h : Nat) : List Pkt :=
  let ofPipe := fun (n : Nat) =>
    let q := s.pipe n
    q.inj7 ++ q.inj ++ q.second ++ q.deepRun.map (·.pkt) ++ q.cryWait.map (·.pkt) ++ q.egIn.map (·.2) ++ s.net.seqIn.getD n [] ++
    s.lrd.keyWait.getD n [] ++ (s.net.opened.getD n []).map (·.1)
  let ofGroup := fun (e : Nat × Spread) =>
    if e.2.home != h then []
    else e.2.waitq ++ e.2.held.filterMap (fun v => match v.2 with
      | .forward p _ => some p
      | .discard => none)
  (pipesOf h).flatMap ofPipe ++ s.net.spread.flatMap ofGroup ++
  (s.net.byre.filter (fun e => e.1 / 32 == h)).flatMap (·.2) ++ (s.inlQ h).filterMap InlJob.pkt ++ s.missQ h

/-- The half's LPs go DOWN with cause RESET and their queues are emptied; their settings stay (R175, R543). -/
def State.endPorts (h : Nat) (s : State) : State :=
  s.each (fun np s => s.each (fun lp s => ((s.leaveUp lp 5).flushLp lp 9).modLp lp (fun l => { linkUps := l.linkUps })) (lpsOf np (s.np np).breakout))
    (pipesOf h)

/-- Messages of the other half whose sequencer or port is on this half end with PATH_UNREACHABLE (R327, R544). -/
def State.endMessages (h : Nat) (s : State) : State :=
  s.each (fun k => State.endMsg k 0x12 0)
    (s.lrd.msgs.keysWhere (fun _ m => m.state != .ended && (m.half == h || m.route.any (fun r => r.1 / 64 == h))))

/-- The transport's and the cipher engine's state on the half is lost (R543). -/
def State.endCrypto (h : Nat) (s : State) : State :=
  let other := fun (n : Nat) => halfOfPipe n != h
  let s := s.modLrd (fun l => { l with
    saltW := if h = 0 then none else l.saltW, saltE := if h = 0 then l.saltE else none
    ctr := l.ctr.filter (fun e => other e.1), derive_ := l.derive_.filter (fun e => other e.1), keyWait := l.keyWait.filter (fun e => other e.1)
    tdW := if h = 0 then [] else l.tdW, tdE := if h = 0 then l.tdE else []
    keysW := if h = 0 then [] else l.keysW, keysE := if h = 0 then l.keysE else []
    recsW := if h = 0 then [] else l.recsW, recsE := if h = 0 then l.recsE else []
    missW := if h = 0 then [] else l.missW, missE := if h = 0 then l.missE else []
    paths := l.paths.filter (fun e => e.1 / 4294967296 != h) })
  s.modCry (fun c => { c with
    kwkW := if h = 0 then none else c.kwkW, kwkE := if h = 0 then c.kwkE else none
    slots := c.slots.filter (fun e => halfOfSlot e.1 != h), sas := c.sas.filter (fun e => halfOfSlot e.2.slot != h)
    cacheW := if h = 0 then [] else c.cacheW, cacheE := if h = 0 then c.cacheE else []
    unwrapping := c.unwrapping.filter (fun n => halfOfSlot n != h)
    bulk := Tab.del h c.bulk, cores := c.cores.filter (fun e => e.1 / 20 != h) })

/-- What a pipeline keeps: its configuration, from the records (R543). -/
def Pipe.configOnly (q : Pipe) : Pipe :=
  { deep := q.deep, prog := q.prog, malAct := q.malAct, miss := q.miss, learnRing := q.learnRing, noLearn := q.noLearn, agingMs := q.agingMs
    agingDue := q.agingDue }

/-- The pipelines, groups and queues of the half are emptied; their settings stay; a west reset loses the entries commands wrote there.
DEDUCED (log 53). -/
def State.endPipes (h : Nat) (s : State) : State :=
  let mine := fun (n : Nat) => halfOfPipe n == h
  { s with net := { s.net with
    pipes := s.net.pipes.mapV (fun n q => if mine n then q.configOnly else q)
    spread := s.net.spread.mapV (fun _ g => if g.home = h then { defined := g.defined, threads := g.threads } else g)
    byre := s.net.byre.filter (fun e => e.1 / 32 != h)
    seqIn := s.net.seqIn.filter (fun e => !mine e.1)
    inl := Tab.del h s.net.inl
    lrdOut := s.net.lrdOut.filter (fun e => !mine e.1)
    opened := s.net.opened.filter (fun e => !mine e.1)
    flips := s.net.flips.filter (fun e => !mine e.1)
    emRecs := if h = 0 then s.net.emRecs.filter (fun e => !mine e.1) else s.net.emRecs
    routesW := if h = 0 then [] else s.net.routesW
    routesE := if h = 0 then s.net.routesE else [] } }

/-- The half that a statistics counter belongs to (R117). -/
def statHalf (k : Nat) : Nat :=
  let i := k / 65536 % 65536
  match k / 4294967296 with
  | 0 => i / 4096
  | 1 => i / 64
  | 2 => i / 8
  | 3 => i
  | _ => i / 512

/-- The half loses what R543 gives it to lose. DEDUCED (log 92). -/
def State.clearHalf (h : Nat) (s : State) : State :=
  let s := s.endMessages h
  let s := s.each State.endFn (s.fns.keysWhere (fun fid f => halfOfFid fid == h && f.state != .disabled))
  let s := { s with
    links := s.links.mapV (fun l k => if l / 8 = h then { perst := k.perst } else k)
    hif := { s.hif with lastSq := s.hif.lastSq.filter (fun e => e.1 / 32 != h) } }
  let ps := s.pktsOfHalf h
  let s := ((((s.setPass h none).endCores h).endPorts h).endPipes h).endCrypto h
  let s := s.each State.dropPkt ps
  let s := { s with
    micro := { s.micro with engines := s.micro.engines.filter (fun e => engHalf e.1 != h) }
    boot := if h = 0 then { s.boot with coresW := false } else { s.boot with coresE := false }
    stats := s.stats.filter (fun e => statHalf e.1 != h) }
  s.bump 3 h 9229

/-! ## The reset begins (R540, R544) -/

/-- Mailbox commands and tickets of east functions end with ST_CP_RESTART when west is reset (R544). -/
def State.westLost (s : State) : State :=
  let east := s.fns.keysWhere (fun fid f => halfOfFid fid == 1 && f.req.isSome && !s.onShadow fid)
  let ks := s.tickets.keysWhere (fun _ t => !t.done && halfOfFid t.fid == 1 && !s.onShadow t.fid)
  (s.each (State.answerReq stCpRestart) east).each (State.cutTicket stCpRestart) ks

/-- A HALF reset of a half begins (R540): the other half goes on without it, east under its shadow pair. DEDUCED (log 92). -/
def State.halfBegin (h cause : Nat) (s : State) : State :=
  let s := s.postHalf (s.activePfs.filter (fun fid => halfOfFid fid != h)) h cause 1
  let s := s.each State.orphanChan (s.off.chans.keysWhere (fun _ c => c.home == h))
  let s := (s.ledgerAdd 0x0105 h (toLe 1 1 ++ toLe 1 cause)).cutHalves
  let s := if h = 0 then { s.westLost with cpW := {} } else s
  ((s.enterSplit (h == 0)).markHalf h true true).clearHalf h

/-! ## The half comes back (R289, R340, R447, R540) -/

/-- BOOT_SERIAL advances for the half, which takes it as its salt; where the write fails or it is used up the half's LRD stays disabled until its
next start (R288, R289). DEDUCED (log 92). -/
def State.newSalt (h : Nat) (ok : Bool) (s : State) : State × Bool :=
  let n := s.sets.bootSerial
  if 0xFFFFFFFF ≤ n || !ok then (s, false)
  else
    let s := { s with sets := { s.sets with bootSerial := n + 1 } }
    (s.modLrd (fun l => if h = 0 then { l with saltW := some (BitVec.ofNat 32 (n + 1)) } else { l with saltE := some (BitVec.ofNat 32 (n + 1)) }), true)

/-- The half draws a new key-wrapping key, unless an alarm stands (R340, R373). -/
def State.newKwk (h : Nat) (s : State) : State :=
  if s.cry.state != .ready then s
  else
    let k := Config.freeWord s.free ++ Config.freeWord (s.free + 1) ++ Config.freeWord (s.free + 2) ++ Config.freeWord (s.free + 3)
    ({ s with free := s.free + 4 }).modCry (fun c => if h = 0 then { c with kwkW := some k } else { c with kwkE := some k })

/-- Trust-domain keys and the host route table come from the other half (R540, R543). -/
def State.copyBack (h : Nat) (s : State) : State :=
  let s := s.modLrd (fun l => if h = 0 then { l with tdW := l.tdE } else { l with tdE := l.tdW })
  { s with net := if h = 0 then { s.net with routesW := s.net.routesE } else { s.net with routesE := s.net.routesW } }

/-- The golden copies of a half as its release finds them: where they fail their SECDED check, the MICROCODE part of the running slot is verified and
decrypted once more; none where that is refused (R445, R447). DEDUCED (log 92). -/
def State.goldenFor (h : Nat) (env : HalfEnv) (s : State) : Option State :=
  if env.goldenOk then some s
  else if (s.badBlock s.boot.slot 4).isSome then none
  else (s.microcode s.boot.slot).map (fun cs => { s with micro := { s.micro with
    golden := (List.range 3).foldl (fun t k => Tab.set (goldenKey h k) (cs.getD k []) t) s.micro.golden } })

/-- A half stays held in reset and is reported as a permanent fault (R445): no rule names its RESOURCE and its bucket. DESIGN CHOICE (log 137). -/
def State.heldFault (h : Nat) (s : State) : State :=
  let r := s.draw
  let d := r.2.draw
  (d.2.bump 3 h 9231).ledgerAdd 0x0101 (r.1.toNat % 4294967296) (toLe 8 d.1.toNat)

/-- The half is rebuilt and released (R540): salt, control stores and engines, keys and routes, pipelines, ports, links; its control
processor runs. DEDUCED (log 92). -/
def State.halfRelease (h : Nat) (env : HalfEnv) (s : State) : State :=
  let x := s.newSalt h env.serialOk
  let s := (((x.1.loadStores env.badEngines h).runKind 2 h).runKind 1 h)
  let s := if x.2 then s.runKind 0 h else s
  let s := (((s.newKwk h).copyBack h).markHalf h false false).releaseHalf h
  let s := (s.trainHalf h).trainLinks h
  s.modCp h (fun _ => { unavailable := false, running := true, lastBeat := s.clock.now })

/-- The clock of a half (R561). -/
def sysClk (h : Nat) : RefClk := if h = 0 then .sysWest else .sysEast

/-- The held half comes back once its clock is good, rejoin follows where it can, and EV_HALF_RESET RELEASED is posted with its end; without control
stores it stays held, and west comes back only with a CONTROL_FW that verifies: otherwise the slot fails (R445, R459, R540, R561). DESIGN CHOICE (log
137). -/
def State.halfFinish (h cause : Nat) (env : HalfEnv) (s : State) : State :=
  if s.clkLost (sysClk h) then s
  else
    match (if h = 0 then s.partBad s.boot.slot 3 env.badRead else none), s.goldenFor h env with
    | some b, _ =>
      let slot := s.boot.slot
      (s.dieReset false .first).failSlot slot 3 b 1
    | none, none => s.heldFault h
    | none, some s =>
      let s := s.halfRelease h env
      let s := { s with rel := { s.rel with releasing := s.rel.releasing ++ [(h, cause)] } }
      if s.mayRejoin then s.reunite else s

/-- HALF_UNHEALTHY (R540). -/
def execHalfUnhealthy (half : Half) (s : State) : Outcome :=
  if s.boot.stage != .ready || s.heldHalf half then done s else done (s.halfBegin half 2)

/-- HALF_RESET (R289, R540): of a half found unhealthy, or asked for by a RESET_REQUEST whose time has come. -/
def execHalfReset (half : Half) (s : State) (env : HalfEnv := {}) : Outcome :=
  if s.badHalf half then done (s.halfFinish half 2 env)
  else
    match s.hif.resetReq with
    | none => done s
    | some r =>
      if r.domain != 1 || r.half != half.val || decide (s.clock.now < r.at_) || s.boot.stage != .ready || s.heldHalf half then done s
      else done ((({ s with hif := { s.hif with resetReq := none } }).halfBegin half 1).halfFinish half 1 env)

/-! ## A die-to-die link returns (R535, R536) -/

/-- East, held since a start without links, is brought up as at the release of a HALF reset (R535). DESIGN CHOICE (log 137). -/
def State.eastUp (env : HalfEnv) (s : State) : State :=
  if s.rel.heldE && !s.rel.badE && s.boot.stage == .ready && !s.linksUp.isEmpty && !s.clkLost .sysEast then
    match s.goldenFor 1 env with
    | none => s.heldFault 1
    | some s => s.halfRelease 1 env
  else s

/-- HRT_CP_STATUS (R465, R535): at step 10 an east whose links have returned since the release is brought up, as this start has found it. -/
def execHrtCpStatus (value : BitVec 32) (s : State) : Outcome :=
  let t := s.cpStatusWrite value
  done (if s.boot.stage == .released && t.boot.stage == .ready then t.eastUp { serialOk := t.boot.serialOk, badEngines := t.boot.badEngines } else t)

/-- D2D_LINK_RETURN (R289, R535, R536); `env` is what the release of an east that comes up finds. -/
def execD2dLinkReturn (link : Fin 5) (s : State) (env : HalfEnv := {}) : Outcome :=
  if !(s.d2dLink link).down || s.isRetired 3 link then done s
  else done ((s.modD2d link (fun x => { x with down := false, since := s.clock.now })).eastUp env)

/-! ## Reference clocks (R561) -/

/-- A half's clock is lost: in operation its HALF reset begins; at a start west's holds both dies. DEDUCED (log 81). -/
def State.sysClkLost (h : Nat) (s : State) : State :=
  match s.boot.stage with
  | .ready => if s.heldHalf h then s else s.halfBegin h 2
  | .released => if h = 0 then s.holdDies else if s.heldHalf h then s else s.halfBegin h 2
  | .second => if h = 0 then s.holdDies else s
  | _ => s

/-- REFCLK_LOSS (R561). DEDUCED (log 93). -/
def State.refclkLoss (c : RefClk) (s : State) : State :=
  if s.clkLost c then s
  else
    let s := { s with clock := { s.clock with missing := s.clock.missing ++ [c] } }
    let lpsIn := fun (h : Nat) => (s.net.lps.map (·.1)).filter (fun lp => lp / 64 == h)
    match c with
    | .stby => s
    | .sysWest => s.sysClkLost 0
    | .sysEast => s.sysClkLost 1
    | .sdWest => s.each (fun lp => State.faultLp lp 1) (lpsIn 0)
    | .sdEast => s.each (fun lp => State.faultLp lp 1) (lpsIn 1)
    | .ptp => s.postInfra 0x0211 0 (toLe 8 (devWord s.clock.lastAdjust).toNat)
    | .host l => if (s.link l).up then s.linkLost l false else s.modLink l (fun k => { k with training := false })

/-- REFCLK_LOSS (R561). -/
def execRefclkLoss (clk : RefClk) (s : State) : Outcome := done (s.refclkLoss clk)

/-- How long a clock must be good before it counts, in ns (R561). DEDUCED (log 93). -/
def clkSettle : RefClk → Nat
  | .sysWest => 10000000
  | .sysEast => 10000000
  | .ptp => 1000000000
  | _ => 0

/-- A half's clock is good again: the half leaves its reset, or the device starts. -/
def State.sysClkBack (h : Nat) (env : HalfEnv) (s : State) : State :=
  if s.badHalf h then s.halfFinish h 2 env else if h = 1 then s.eastUp env else s.unhold

/-- REFCLK_RETURN (R289, R561): the clock has been good for `dt`; `env` is what the release of a half that comes back finds. -/
def execRefclkReturn (clk : RefClk) (dt : Nat) (s : State) (env : HalfEnv := {}) : Outcome :=
  let s := s.advance dt
  if !s.clkLost clk || decide (dt < clkSettle clk) then done s
  else
    let s := { s with clock := { s.clock with missing := s.clock.missing.filter (· != clk) } }
    match clk with
    | .sysWest => done (s.sysClkBack 0 env)
    | .sysEast => done (s.sysClkBack 1 env)
    | .host l => done (if (s.link l).perst || (s.link l).up then s else s.perstOff l)
    | .stby => done (if s.boot.stbyGood then s.hearthStart else s)
    | _ => done s

end Sys2Proof.Machine
end

