-- ==== Sys2Proof/Machine/Molgori.lean ====
section
/-! DEFINITION. Hearth's management bindings (R495 to R497), MCTP control messages, and the Molgori management messages with their tokens
(R472, R477, R498, R499). -/

namespace Sys2Proof.Machine

open Sys2Proof

/-! ## Bindings (R495, R496) -/

/-- What a message is, as far as R496 and R467 tell messages apart. -/
inductive MsgKind where
  | control | pldmBase | pldmUpdate | spdm | ncsi | molgori | board
  deriving DecidableEq, Repr

/-- The number of a binding's endpoint: 0 I3C, 1 SMBus, 2 + link. -/
def bindNo : Binding → Nat
  | .i3c _ => 0 | .smbus _ _ => 1 | .vdm l _ => 2 + l.val

/-- Hearth's interfaces answer: standby power and its clock are there. -/
def State.mgmtOn (s : State) : Bool := s.boot.stage != .off && !s.clock.missing.contains .stby

/-- The kinds of message a binding takes (R496). DEDUCED (log 94). -/
def State.kindOpen (s : State) (b : Binding) (k : MsgKind) : Bool := match b with
  | .i3c _ | .smbus _ _ => true
  | .vdm l _ =>
    (s.link l).up &&
    (if (s.fn (pfOfLink l)).priv == .infra then k != .ncsi && k != .board
     else k == .control || k == .pldmBase || k == .spdm)

/-- The recovery loader serves MCTP control messages, PLDM for update and SPDM, and nothing else (R467). DEDUCED (log 94). -/
def State.stageServes (s : State) (k : MsgKind) : Bool :=
  s.boot.stage != .recovery || k == .control || k == .pldmUpdate || k == .spdm

/-- A message reaches Hearth: on I3C under the dynamic address that has been assigned, on SMBus under the strapped one and with its PEC right, in a
TLP that passes its checks (R42, R495, R565). -/
def State.reaches (s : State) : Binding → Bool
  | .i3c a => s.mgmt.i3cAddr.isSome && (a.isNone || a.map (·.toNat) == s.mgmt.i3cAddr)
  | .smbus a pec => pec && (a.isNone || a.map (·.toNat) == some (0x60 + s.boot.mgmtAddr))
  | .vdm _ c => c == .ok

/-- A message is taken: it reaches Hearth, the binding is open to it, and without an endpoint ID only MCTP control is answered (R496). DEDUCED (log
94). -/
def State.takes (s : State) (b : Binding) (k : MsgKind) : Bool :=
  s.mgmtOn && s.reaches b && s.stageServes k && s.kindOpen b k && (k == .control || s.mgmt.eids.any (fun e => e.1 == bindNo b))

/-- A TLP of a function's link that fails a check is discarded: a failed ECRC is reported through AER and in HIF_ERR (R42, R47), a parity error of a
clocked crossing counted (R528). -/
def State.tlpFails (fid : Nat) (check : TlpCheck) (s : State) : State :=
  let l := s.linkOf fid
  match check with
  | .ok => s
  | .ecrc => (s.hifErr l 1).modLink l (fun k => { k with aerEcrc := true })
  | .fifo => s.integrityDrop (halfOfFid fid) 2

/-- What becomes of a message that does not reach Hearth: a VDM whose checks fail is reported as any TLP is (R42, R528). -/
def State.misses (b : Binding) (s : State) : State := match b with
  | .vdm l c => if (s.link l).up then s.tlpFails (pfOfLink l) c else s
  | _ => s

/-- Serves a message that a binding takes; any other is discarded (R496). -/
def State.serve (b : Binding) (k : MsgKind) (f : State → State) (s : State) : State := if s.takes b k then f s else s.misses b
/-- Serves a message with `n` bytes of payload: one longer than 4,096 bytes with its header is not assembled (R495). -/
def State.serveLen (n : Nat) (b : Binding) (k : MsgKind) (f : State → State) (s : State) : State :=
  s.serve b k (fun s => if n + 8 ≤ 4096 then f s else s)

def State.modMgmt (f : Mgmt → Mgmt) (s : State) : State := { s with mgmt := f s.mgmt }

/-! ## MCTP control (R495, R496) -/

/-- Bytes of a management response that no rule states. DESIGN CHOICE (log 8). -/
def mgmtBytes (item n : Nat) : Bytes := (List.range n).map (Config.mgmtByte item)

/-- SET_ENDPOINT_ID (R496): 0 and 0xFF are no endpoint IDs. DEDUCED (log 94). -/
def State.setEid (b : Binding) (eid : Byte) (s : State) : State :=
  if eid = 0 ∨ eid = 0xFF then s.mgmtSend b [1, 2]
  else (s.modMgmt (fun m => { m with eids := Tab.set (bindNo b) eid.toNat m.eids })).mgmtSend b [1, 0, 0, eid, 0]

/-- SET_ENDPOINT_ID (R496). -/
def execSetEndpointId (b : Binding) (eid : Byte) (s : State) : Outcome := done (s.serve b .control (State.setEid b eid))

/-- The message types a binding takes: MCTP control, PLDM, NC-SI, SPDM and vendor-defined by enterprise number. -/
def State.msgTypes (s : State) (b : Binding) : Bytes :=
  [0, 1] ++ (if s.kindOpen b .ncsi then [2] else []) ++ [5] ++ (if s.kindOpen b .molgori then [0x7F] else [])

/-- The answer to an MCTP control message: its command, a completion code, and its data. PRESUMED (log 62). -/
def State.controlAnswer (s : State) (b : Binding) (c : Byte) : Bytes :=
  let t := s.msgTypes b
  if c = 2 then [c, 0, BitVec.ofNat 8 (s.mgmt.eids.getD (bindNo b) 0), 0, 0]
  else if c = 3 then [c, 0] ++ mgmtBytes 1 16
  else if c = 4 then [c, 0, 1] ++ mgmtBytes 2 4
  else if c = 5 then [c, 0, BitVec.ofNat 8 t.length] ++ t
  else if c = 6 then [c, 0, 0xFF] ++ mgmtBytes 3 7
  else [c, 5]

/-- MCTP_CONTROL_MESSAGE (R496). -/
def execMctpControlMessage (b : Binding) (command : Byte) (s : State) : Outcome :=
  done (s.serve b .control (fun s => s.mgmtSend b (s.controlAnswer b command)))

/-- I3C_DYNAMIC_ADDRESS (R495). -/
def execI3cDynamicAddress (addr : BitVec 7) (s : State) : Outcome :=
  if s.mgmtOn then done (s.modMgmt (fun m => { m with i3cAddr := some addr.toNat })) else done s

/-! ## Answers (R498) -/

/-- A response: COMMAND, bit 0 of byte 1, the status, the payload. -/
def State.molAnswer (b : Binding) (cmd : Byte) (status : Nat) (payload : Bytes) (s : State) : State :=
  s.mgmtSend b ([cmd, 1] ++ toLe 2 status ++ payload)

/-- Answers with the first check that fails, or goes on. -/
def State.molChecks (b : Binding) (cmd : Byte) (checks : List (Bool × Nat × Nat)) (k : State → State) (s : State) : State :=
  match firstFail checks with
  | some (st, _) => s.molAnswer b cmd st []
  | none => k s

/-- CHALLENGE_GET (R472, R498): 32 fresh bytes of the device's random source. DESIGN CHOICE (log 1). -/
def State.challengeGet (b : Binding) (s : State) : State :=
  let c := toLe 8 (Config.freeWord s.free).toNat ++ toLe 8 (Config.freeWord (s.free + 1)).toNat ++
    toLe 8 (Config.freeWord (s.free + 2)).toNat ++ toLe 8 (Config.freeWord (s.free + 3)).toNat
  ({ s with free := s.free + 4, boot := { s.boot with challenge := some c } }).molAnswer b 1 stOk c

/-- CHALLENGE_GET (R498). -/
def execChallengeGet (b : Binding) (s : State) : Outcome := done (s.serve b .molgori (State.challengeGet b))

/-! ## Tokens (R472, R499) -/

/-- A token carries the device's serial and the latest challenge, its reserved bytes are zero, and no update is ARMED or on TRIAL. DEDUCED
(log 95). -/
def State.tokenFits (s : State) (t : Bytes) (kind arg : Nat) : Bool :=
  t.length == 284 && le t 0 1 == kind && le t 1 1 == arg && le t 2 2 == 0 && le t 4 8 == s.boot.serial.toNat &&
  s.boot.challenge == some (slice t 12 32) && s.upd.state != 3 && s.upd.state != 4

/-- The token's key has this digest, and its signature over bytes 0 to 91 verifies. -/
def tokenSigned (t digest : Bytes) : Bool :=
  sha384 (slice t 188 96) == digest && ecdsaVerify (slice t 188 96) (slice t 0 92) (slice t 92 96)
/-- Signed with the owner key. -/
def State.ownerToken (s : State) (t : Bytes) : Bool := match s.boot.owner with
  | none => false
  | some d => tokenSigned t d
/-- Signed with a Molgori root key whose slot is not revoked (R458). -/
def State.rootToken (s : State) (t : Bytes) : Bool :=
  s.boot.roots.any (fun e => decide (e.1 < 4) && !bit s.boot.revoked e.1 && tokenSigned t e.2)

/-- A challenge is consumed by any token that carries it (R499). DEDUCED (log 95). -/
def State.spend (t : Bytes) (s : State) : State :=
  if s.boot.challenge == some (slice t 12 32) then { s with boot := { s.boot with challenge := none } } else s

/-! ## Life-cycle transitions (R470, R471, R472) -/

/-- The signer that R471 names for a transition signs the token; false for a transition it does not list. A move to RETURNED with an owner
digest installed carries a second token, of the owner, behind the first. DESIGN CHOICE (log 96). -/
def State.lcSigned (s : State) (t : Bytes) (old new : Nat) : Bool :=
  let one := t.take 284
  let two := t.drop 284
  let zero := allZero (slice one 44 48)
  let single := two.isEmpty
  if old = 0 ∧ new = 1 then single && zero && s.rootToken one
  else if old = 1 ∧ new = 2 then single && allZero (slice one 92 96)
  else if old = 2 ∧ new = 3 ∨ old = 3 ∧ new = 2 ∨ (old = 2 ∨ old = 3) ∧ new = 1 then single && zero && s.ownerToken one
  else if (old = 1 ∨ old = 2 ∨ old = 3) ∧ new = 4 then
    zero && if s.boot.owner.isNone then single && s.rootToken one
      else allZero (slice two 44 48) && s.tokenFits two 1 4 && (s.rootToken one && s.ownerToken two || s.ownerToken one && s.rootToken two)
  else if old = 4 ∧ new = 1 then single && zero && s.rootToken one
  else if old < 5 ∧ new = 5 then single && zero && (s.rootToken one || s.ownerToken one)
  else false

/-- The production and analysis microcode keys are written (R470, R471): their generation and bytes are the factory's. DESIGN CHOICE (log 3,
96). -/
def State.writeMcKeys (s : State) : State :=
  let g := (Config.freeWord s.free).toNat % 65536
  let k := fun (i : Nat) => (List.range 32).map (Config.freeBytes (s.free + i))
  ({ s with free := s.free + 3 }).flashOp
    (fun s => { s with boot := { s.boot with mcKeys := Tab.set (2 * 65536 + g) (k 2) (Tab.set (65536 + g) (k 1) s.boot.mcKeys) } })

/-- The fuses of a transition are burnt: one step more, the new state, and the owner's digest it carries; the move out of BLANK also writes the
keys and sets the write protection of the recovery region (R449, R470, R471). -/
def State.lcBurn (t : Bytes) (old new : Nat) (s : State) : State :=
  let s := if old = 0 ∧ new = 1 then s.writeMcKeys else s
  s.flashOp (fun s => { s with boot := { s.boot with
    lcNew := some new, lcSteps := s.boot.lcSteps + 1, recoverWp := s.boot.recoverWp || (old == 0 && new != 0)
    owner := if old = 1 ∧ new = 2 then some (slice t 44 48) else s.boot.owner } })

/-- A transition: the fuses are burnt, erasures done, the record written and out of Hearth's buffer, and the whole device reset as at POR,
Hearth included; the first stage that follows takes the new state (R472). DESIGN CHOICE (log 96). -/
def State.lcMove (t : Bytes) (new : Nat) (s : State) : State :=
  let old := s.boot.lc
  let s := (((s.lcBurn t old new).lcErase old new).ledgerAdd 0x0023 0 (toLe 1 old ++ toLe 1 new)).ledgerFlush
  { (s.restart true) with mgmt := {} }

/-- LC_TRANSITION (R471, R472, R498). -/
def State.lcTransition (b : Binding) (t : Bytes) (s : State) : State :=
  if t.length ≠ 284 ∧ t.length ≠ 568 then s.molAnswer b 2 stBadLength []
  else
    let new := le t 1 1
    let ok := s.tokenFits (t.take 284) 1 new && s.lcSigned t s.boot.lc new
    let s := (s.spend t).spend (t.drop 284)
    if ok then (s.molAnswer b 2 stOk []).lcMove t new else s.molAnswer b 2 stDenied []

/-- LC_TRANSITION (R472). -/
def execLcTransition (b : Binding) (token : Bytes) (s : State) (cut : Option (Nat × Cut) := none) : Outcome :=
  done (s.orCut cut (State.serveLen token.length b .board (State.lcTransition b token)))

/-! ## OWNER_LOCK, KIKs and root revocation (R477, R499) -/

/-- OWNER_LOCK_SET (R477). DEDUCED (log 95). -/
def State.ownerLockSet (b : Binding) (t : Bytes) (s : State) : State :=
  let arg := le t 1 1
  let ok := s.tokenFits t 2 arg && decide (arg ≤ 1) && allZero (slice t 44 48) && s.ownerToken t
  let lc := s.boot.lc
  (s.spend t).molChecks b 3 [(t.length != 284, stBadLength, 284), (!ok, stDenied, 0), (lc != 2 && lc != 3, stLifeCycle, lc)] fun s =>
    ({ s with sets := { s.sets with ownerLock := arg == 1 } }).molAnswer b 3 stOk []

/-- OWNER_LOCK_SET (R477). -/
def execOwnerLockSet (b : Binding) (token : Bytes) (s : State) : Outcome := done (s.serveLen token.length b .board (State.ownerLockSet b token))

/-- KIK_INSTALL (R498, R499): accepted only in OWNED. DEDUCED (log 95). -/
def State.kikInstall (b : Binding) (p : Bytes) (s : State) : State :=
  let t := p.drop 36
  let key := slice p 4 32
  let k := le p 0 1
  let ok := s.tokenFits t 3 k && slice t 44 48 == sha384 key && s.ownerToken t
  let lc := s.boot.lc
  (s.spend t).molChecks b 4 [(p.length != 320, stBadLength, 320), bad (decide (3 < k)) 0, bad (le p 1 3 != 0) 1, (lc != 2, stLifeCycle, lc),
      (!ok, stDenied, 0)] fun s =>
    ({ s with cry := { s.cry with kiks := Tab.set k key s.cry.kiks } }).molAnswer b 4 stOk []

/-- KIK_INSTALL (R499). -/
def execKikInstall (b : Binding) (payload : Bytes) (s : State) : Outcome := 
  done (s.serveLen payload.length b .board (State.kikInstall b payload))

/-- ROOT_REVOKE (R458, R499): burns a revocation fuse, in any state except RETIRED. DEDUCED (log 95). -/
def State.rootRevoke (b : Binding) (t : Bytes) (s : State) : State :=
  let k := le t 1 1
  let ok := s.tokenFits t 4 k && decide (k < 4) && allZero (slice t 44 48) && s.rootToken t
  let lc := s.boot.lc
  (s.spend t).molChecks b 6 [(t.length != 284, stBadLength, 284), (!ok, stDenied, 0), (lc == 5, stLifeCycle, lc)] fun s =>
    ({ s with boot := { s.boot with revoked := s.boot.revoked ||| 2 ^ k } }).molAnswer b 6 stOk []

/-- ROOT_REVOKE (R498). -/
def execRootRevoke (b : Binding) (token : Bytes) (s : State) : Outcome := done (s.serveLen token.length b .board (State.rootRevoke b token))

/-! ## Board data (R39, R93, R169, R277, R498) -/

/-- The length of an item's value. -/
def itemLen (item : Nat) : Nat := if item = 1 then 16 else if item = 3 then 12 else 2

/-- BOARD_DATA_SET's effect: items 1 and 3 are in force from the next start, item 2 from the next POR, item 4 as R46 says. -/
def State.boardEffect (item : Nat) (v : Bytes) (s : State) : State :=
  if item = 1 then s.putSetting (.media ((List.range 16).map (fun i => (i, le v i 1))))
  else if item = 2 then s.putSetting (.bifs ((List.range 8).filter (bit (le v 0 2))))
  else if item = 3 then { s with sets := { s.sets with prefixNext := slice v 0 12 } }
  else ({ s with hif := { s.hif with infra := le v 0 2 } }).putSetting (.infra (le v 0 2))

/-- The value of an item is right: MEDIA 0 to 3, host ports 0 to 7, a list that R93 allows. DEDUCED (log 97). -/
def State.boardOk (s : State) (item : Nat) (v : Bytes) : Bool :=
  if item = 1 then (List.range 16).all (fun i => decide (le v i 1 ≤ 3))
  else if item = 2 then decide (le v 0 2 < 256)
  else if item = 3 then true
  else le v 0 2 != 0 && !(List.range 8).any (fun h => bit (le v 0 2) (2 * h + 1) && !s.bif h)

/-- BOARD_DATA_SET (R498). -/
def State.boardDataSet (b : Binding) (p : Bytes) (s : State) : State :=
  let item := le p 0 1
  let v := p.drop 4
  s.molChecks b 5 [(decide (p.length < 4), stBadLength, 0xFFFF), bad (item == 0 || decide (4 < item)) 0, bad (le p 1 3 != 0) 1,
      (v.length != itemLen item, stBadLength, 4 + itemLen item), bad (!s.boardOk item v) 4, (s.boot.lc == 5, stLifeCycle, s.boot.lc),
      (s.sets.ownerLock, stOwnerLock, 0)] fun s =>
    (s.boardEffect item v).molAnswer b 5 stOk []

/-- BOARD_DATA_SET (R498). -/
def execBoardDataSet (b : Binding) (payload : Bytes) (s : State) : Outcome := 
  done (s.serveLen payload.length b .board (State.boardDataSet b payload))

/-! ## The power cap, the Ledger, aborts and status (R498, R509) -/

/-- CAP_SET: the fields of POWER_CAP_SET (R128); of two agents' caps the later commit holds (R497). DEDUCED (log 98). -/
def State.capSet (b : Binding) (p : Bytes) (s : State) : State :=
  let w := le p 0 2
  let m := le p 2 1
  s.molChecks b 7 [(p.length != 4, stBadLength, 4), bad (w != 0 && (decide (w < 400) || decide (850 < w))) 0, bad (m != 1 && m != 2) 2,
      bad (le p 3 1 != 0) 3] fun s => (s.setCap w m).molAnswer b 7 stOk []

/-- CAP_SET (R509). -/
def execCapSet (b : Binding) (payload : Bytes) (s : State) : Outcome := done (s.serveLen payload.length b .molgori (State.capSet b payload))

/-- LEDGER_GET: as LEDGER_READ (R88), with COUNT at most 60. DEDUCED (log 98). -/
def State.ledgerGet (b : Binding) (p : Bytes) (s : State) : State :=
  let n := le p 4 1
  s.molChecks b 8 ([(p.length != 8, stBadLength, 8), bad (n == 0 || decide (60 < n)) 4] ++ reserved p 5 3) fun s =>
    let x := s.ledger.from_ (le p 0 4) n
    s.molAnswer b 8 stOk (toLe 4 x.2 ++ [0, 0, 0, 0] ++ x.1.flatten)

/-- LEDGER_GET (R498). -/
def execLedgerGet (b : Binding) (payload : Bytes) (s : State) : Outcome := 
  done (s.serveLen payload.length b .molgori (State.ledgerGet b payload))

/-- FN_ABORT_REQ: aborts a function with reason MGMT under the generation rule of R54. DEDUCED (log 98). -/
def State.fnAbortReq (b : Binding) (p : Bytes) (s : State) : State :=
  let t := le p 0 2
  let f := s.fn t
  s.molChecks b 9 [(p.length != 4, stBadLength, 4), bad (le p 3 1 != 0) 3, (!s.fidOk t, stNotFound, 0),
      (le p 2 1 != f.gen.toNat, stStaleGen, f.gen.toNat), (f.state != .active, stBadState, f.state.code)] fun s =>
    (s.beginAbort t 7 .none).molAnswer b 9 stOk []

/-- FN_ABORT_REQ (R498). -/
def execFnAbortReq (b : Binding) (payload : Bytes) (s : State) : Outcome := 
  done (s.serveLen payload.length b .board (State.fnAbortReq b payload))

/-- The payload of STATUS_GET. -/
def State.statusBytes (s : State) : Bytes :=
  toLe 1 s.hif.devState ++ toLe 1 s.power.pmode ++ toLe 1 s.boot.lc ++ toLe 1 s.upd.state ++ toLe 1 s.power.level ++
  toLe 1 (b2n s.rel.split + 2 * b2n (!s.boot.holdupN)) ++ toLe 2 s.power.capW ++ toLe 4 s.runningSeq

/-- STATUS_GET (R498). -/
def execStatusGet (b : Binding) (s : State) : Outcome :=
  done (s.serve b .molgori (fun s => s.molAnswer b 0x0A stOk s.statusBytes))

/-- UPDATE_COMMIT_REQ: UPDATE_COMMIT with its checks (R127, R476, R484). -/
def State.commitReq (b : Binding) (s : State) : State :=
  match s.commitRefusal with
  | some (st, _) => s.molAnswer b 0x0B st []
  | none => s.updCommit.molAnswer b 0x0B stOk []

/-- UPDATE_COMMIT_REQ (R498). -/
def execUpdateCommitReq (b : Binding) (s : State) (cut : Option (Nat × Cut) := none) : Outcome :=
  done (s.orCut cut (State.serve b .molgori (State.commitReq b)))

end Sys2Proof.Machine
end

