-- ==== Sys2Proof/Machine/Pldm.lean ====
section
/-! DEFINITION. PLDM types 0, 2 and 5 as Hearth answers them (R495, R500, R501). A message is written as its type, its command, and for a
response its completion code. -/

namespace Sys2Proof.Machine

open Sys2Proof

/-- A PLDM response: type, command, completion code and data (R500, R501). PRESUMED (log 62). -/
def State.pldm (b : Binding) (type cmd cc : Byte) (data : Bytes) (s : State) : State := s.mgmtSend b ([type, cmd, cc] ++ data)

/-! ## Type 0 (R495) -/

/-- GET_TID (R495). -/
def execGetTid (b : Binding) (s : State) : Outcome := done (s.serve b .pldmBase (State.pldm b 0 2 0 (mgmtBytes 4 1)))

/-- The PLDM types a binding takes. -/
def State.pldmTypes (s : State) (b : Binding) : List Nat :=
  (if s.stageServes .pldmBase then [0, 2] else []) ++ (if s.kindOpen b .pldmUpdate then [5] else [])
/-- The commands of a type: requests to Hearth, and those Hearth sends. PRESUMED (log 62). -/
def pldmCmds (type : Nat) : List Nat :=
  if type = 0 then [2, 3, 4, 5]
  else if type = 2 then [0x10, 0x11, 0x21, 0x50, 0x51]
  else if type = 5 then [0x10, 0x13, 0x14, 0x15, 0x16, 0x17, 0x18, 0x1A, 0x1B, 0x1D]
  else []

/-- GET_PLDM_VERSION (R495): the version numbers are not stated. -/
def execGetPldmVersion (b : Binding) (type : Byte) (s : State) : Outcome :=
  done (s.serve b .pldmBase (fun s =>
    if (s.pldmTypes b).contains type.toNat then s.pldm b 0 3 0 (toLe 4 0 ++ [5] ++ mgmtBytes (16 + type.toNat) 8) else s.pldm b 0 3 0x83 []))

/-- GET_PLDM_TYPES (R495). -/
def execGetPldmTypes (b : Binding) (s : State) : Outcome :=
  done (s.serve b .pldmBase (fun s => s.pldm b 0 4 0 (toLe 8 (maskOf (s.pldmTypes b)))))

/-- GET_PLDM_COMMANDS (R495). -/
def execGetPldmCommands (b : Binding) (type : Byte) (s : State) : Outcome :=
  done (s.serve b .pldmBase (fun s =>
    if (s.pldmTypes b).contains type.toNat then s.pldm b 0 5 0 (toLe 32 (maskOf (pldmCmds type.toNat))) else s.pldm b 0 5 0x83 []))

/-! ## Type 2 (R500) -/

/-- A numeric sensor of R500: package input power, or a SENSOR of R505. -/
def numericSensor (id : Nat) : Bool := id == 0xFF || (decide (0x100 ≤ id) && decide (id < 0x100 + 190))
/-- The latest sample of a numeric sensor; none before its first (R506). -/
def State.numericReading (s : State) (id : Nat) : Option Int :=
  if id = 0xFF then (s.power.recent.getLast?).map (fun w => (w : Int)) else (Tab.find (id - 0x100) s.power.samples).map (·.1)

/-- GET_SENSOR_READING (R500): state enabled, disabled or, before its first sample, unavailable, and a signed 32-bit reading. DEDUCED (log
101). -/
def State.sensorReading (b : Binding) (id : Nat) (s : State) : State :=
  if !numericSensor id then s.pldm b 2 0x11 0x80 []
  else
    let v := s.numericReading id
    let op : Byte := if s.mgmt.disabled.contains id then 1 else if v.isNone then 2 else 0
    s.pldm b 2 0x11 0 ([5, op] ++ mgmtBytes 5 4 ++ toLe 4 (unsigned 32 (v.getD 0)))

/-- GET_SENSOR_READING (R500). -/
def execGetSensorReading (b : Binding) (id : BitVec 16) (s : State) : Outcome := done (s.serve b .pldmBase (State.sensorReading b id.toNat))

/-- GET_STATE_SENSOR_READINGS (R500): sensor 0x0050 is the thermal level. -/
def execGetStateSensorReadings (b : Binding) (id : BitVec 16) (s : State) : Outcome :=
  done (s.serve b .pldmBase (fun s =>
    if id = 0x50 then s.pldm b 2 0x21 0 ([1, 0] ++ toLe 1 s.power.level ++ mgmtBytes 6 2) else s.pldm b 2 0x21 0x80 []))

/-- The records of the repository, by handle from 1: package power, the numeric sensors, the state sensor. DEDUCED (log 101). -/
def pdrSensor (h : Nat) : Nat := if h = 1 then 0xFF else if h ≤ 191 then 0x100 + (h - 2) else 0x50
def pdrCount : Nat := 192
/-- A record: its header, and the sensor it describes; the rest of its body is not stated. -/
def pdrBytes (h : Nat) : Bytes :=
  let body := mgmtBytes 7 2 ++ toLe 2 (pdrSensor h) ++ mgmtBytes (256 + h) 40
  toLe 4 h ++ [1, if h = pdrCount then 4 else 2] ++ [0, 0] ++ toLe 2 body.length ++ body

/-- GET_PDR (R495, R500): handle 0 is the first record. DEDUCED (log 101). -/
def State.getPdr (b : Binding) (handle : Nat) (s : State) : State :=
  let h := max handle 1
  if pdrCount < h then s.pldm b 2 0x51 0x82 []
  else
    let r := pdrBytes h
    s.pldm b 2 0x51 0 (toLe 4 (if h = pdrCount then 0 else h + 1) ++ toLe 4 0 ++ [5] ++ toLe 2 r.length ++ r)

/-- GET_PDR (R495). -/
def execGetPdr (b : Binding) (handle : BitVec 32) (s : State) : Outcome := done (s.serve b .pldmBase (State.getPdr b handle.toNat))

/-- GET_PDR_REPOSITORY_INFO (R495). -/
def execGetPdrRepositoryInfo (b : Binding) (s : State) : Outcome :=
  done (s.serve b .pldmBase (State.pldm b 2 0x50 0
    ([0] ++ mgmtBytes 8 26 ++ toLe 4 pdrCount ++ toLe 4 (pdrCount * (pdrBytes 1).length) ++ toLe 4 (pdrBytes 1).length ++ mgmtBytes 9 1)))

/-- SET_NUMERIC_SENSOR_ENABLE (R495): a sensor is enabled, or disabled until it is enabled again. -/
def State.sensorEnable (b : Binding) (id state : Nat) (s : State) : State :=
  if !numericSensor id then s.pldm b 2 0x10 0x80 []
  else if 2 < state then s.pldm b 2 0x10 0x81 []
  else
    (s.modMgmt (fun m => { m with disabled := m.disabled.filter (· != id) ++ (if state = 0 then [] else [id]) })).pldm b 2 0x10 0 []

/-- SET_NUMERIC_SENSOR_ENABLE (R495). -/
def execSetNumericSensorEnable (b : Binding) (id : BitVec 16) (state : Byte) (s : State) : Outcome :=
  done (s.serve b .pldmBase (State.sensorEnable b id.toNat state.toNat))

/-! ## Type 5 (R501) -/

/-- PLDM's number as an agent (R473, R487). -/
def agentPldm : Nat := 1

/-- The refusal of an update request: the completion code for not ready or busy, of which the manual does not choose (R501). DEDUCED (log
100). -/
def State.notReady (b : Binding) (cmd : Byte) (s : State) : State :=
  let d := s.draw
  d.2.pldm b 5 cmd (if d.1.getLsbD 0 then 4 else 0x86) []

/-- A type 5 request with the refusal R476 gives it. The recovery loader takes requests too; its transfer is a row of its own (R467).
DEDUCED (log 100). -/
def State.pldmUpd (b : Binding) (cmd : Byte) (r : Option (Nat × Nat)) (data : Bytes) (k : State → State) (s : State) : State :=
  if s.boot.stage == .recovery then s.pldm b 5 cmd 0 data
  else if r.isSome then s.notReady b cmd
  else k s

/-- The checks of R476 for UPDATE_BEGIN, before the image is named: an update of this agent can go on. -/
def State.requestRefusal (s : State) : Option (Nat × Nat) :=
  let u := s.upd.state
  s.updRefusal (u == 0 || u == 5 || u == 6 || (u == 1 && s.agentIs agentPldm)) true true

/-- REQUEST_UPDATE (R501). -/
def execRequestUpdate (b : Binding) (s : State) : Outcome :=
  done (s.serve b .pldmUpdate (fun s => s.pldmUpd b 0x10 s.requestRefusal [0, 0, 0] (State.pldm b 5 0x10 0 [0, 0, 0])))

/-- The identifier of the one component (R501). -/
def componentId : BitVec 16 := 0x5120

/-- PASS_COMPONENT_TABLE (R501): another component is answered as one that is not supported. PRESUMED (log 62). -/
def execPassComponentTable (b : Binding) (s : State) (component : BitVec 16 := 0x5120) : Outcome :=
  let ok : Bytes := if component = componentId then [0, 0] else [1, 6]
  done (s.serve b .pldmUpdate (fun s => s.pldmUpd b 0x13 s.requestRefusal ok (State.pldm b 5 0x13 0 ok)))

/-- The next piece: 4,032 bytes from NEXT_OFFSET, or what is left. -/
def State.pieceLen (s : State) : Nat := min 4032 (s.updTotal - s.upd.next)
/-- Hearth asks for the next piece. -/
def State.askPiece (b : Binding) (s : State) : State := s.mgmtSend b ([5, 0x15] ++ toLe 4 s.upd.next ++ toLe 4 s.pieceLen)

/-- UPDATE_COMPONENT: UPDATE_BEGIN as the agent PLDM, and the first request for data (R501). DEDUCED (log 100). -/
def State.updateComponent (b : Binding) (size stamp : Nat) (s : State) : State :=
  let tag := BitVec.ofNat 64 stamp
  if s.boot.stage != .recovery && (size == 0 || decide (12582912 < size)) then s.pldm b 5 0x14 2 []
  else
    s.pldmUpd b 0x14 (s.beginRefusal size tag agentPldm) (List.replicate 8 0) fun s =>
      ((s.updBegin size tag agentPldm).pldm b 5 0x14 0 (List.replicate 8 0)).askPiece b

/-- UPDATE_COMPONENT (R501): another component is answered as one that is not supported, and nothing begins. PRESUMED (log 62). -/
def execUpdateComponent (b : Binding) (imageSize stamp : BitVec 32) (s : State) (component : BitVec 16 := 0x5120)
    (cut : Option (Nat × Cut) := none) : Outcome :=
  done (s.orCut cut (State.serve b .pldmUpdate (fun s =>
    if component = componentId then s.updateComponent b imageSize.toNat stamp.toNat else s.pldm b 5 0x14 0 [1, 6, 0, 0, 0, 0, 0, 0])))

/-- A response to RequestFirmwareData: the piece asked for is staged as UPDATE_STAGE; a piece of another length, or one whose page fails its
read-back, is asked for again. At STAGED, TransferComplete, VerifyComplete and ApplyComplete are sent (R501). DEDUCED (log 100). -/
def State.firmwareData (b : Binding) (data : Bytes) (readBack : Bool) (badPage : Nat) (s : State) : State :=
  if s.boot.stage == .recovery || (s.stageRefusal agentPldm).isSome then s
  else if data.length ≠ s.pieceLen then s.askPiece b
  else
    let r := s.updStage data readBack badPage
    if r.2 && r.1.upd.state == 2 then ((r.1.mgmtSend b [5, 0x16, 0]).mgmtSend b [5, 0x17, 0]).mgmtSend b [5, 0x18, 0, 0, 0]
    else r.1.askPiece b

/-- REQUEST_FIRMWARE_DATA (R501). -/
def execRequestFirmwareData (b : Binding) (data : Bytes) (readBack : Bool) (s : State) (badPage : Nat := 0) (cut : Option (Nat × Cut) := none) :
    Outcome :=
  done (s.orCut cut (State.serveLen data.length b .pldmUpdate (State.firmwareData b data readBack badPage)))

/-- ACTIVATE_FIRMWARE: UPDATE_ARM with SEQ one above the running one; self-contained activation is not supported (R501). DEDUCED (log 100).
-/
def State.activateFirmware (b : Binding) (selfContained : Bool) (s : State) : State :=
  if selfContained then s.pldm b 5 0x1A 0x8C []
  else s.pldmUpd b 0x1A (s.armRefusal agentPldm) [0, 0] fun s => (s.updArm ((s.runningSeq + 1) % 4294967296)).pldm b 5 0x1A 0 [0, 0]

/-- ACTIVATE_FIRMWARE (R501). -/
def execActivateFirmware (b : Binding) (selfContained : Bool) (s : State) (cut : Option (Nat × Cut) := none) : Outcome :=
  done (s.orCut cut (State.serve b .pldmUpdate (State.activateFirmware b selfContained)))

/-- CANCEL_UPDATE: UPDATE_CANCEL (R501). DEDUCED (log 100). -/
def State.cancelUpdate (b : Binding) (s : State) : State :=
  let d := List.replicate 9 (0 : Byte)
  if s.boot.stage == .recovery then s.pldm b 5 0x1D 0 d
  else if s.cancelRefusal.isSome then s.pldm b 5 0x1D 0x80 []
  else s.updCancel.pldm b 5 0x1D 0 d

/-- CANCEL_UPDATE (R501). -/
def execCancelUpdate (b : Binding) (s : State) (cut : Option (Nat × Cut) := none) : Outcome :=
  done (s.orCut cut (State.serve b .pldmUpdate (State.cancelUpdate b)))

/-- GET_STATUS: the update state in PLDM's terms: download, transfer ready once STAGED, activate once ARMED, otherwise idle (R501). -/
def State.pldmState (s : State) : Byte := if s.upd.state = 1 then 3 else if s.upd.state = 2 then 2 else if s.upd.state = 3 then 6 else 0
/-- The percentage of a download that has arrived. -/
def State.pldmProgress (s : State) : Nat := if s.upd.state = 1 then s.upd.next * 100 / (max 1 s.updTotal) else 0x65

/-- GET_STATUS (R501). -/
def execGetStatus (b : Binding) (s : State) : Outcome :=
  done (s.serve b .pldmUpdate (fun s => s.pldm b 5 0x1B 0 ([s.pldmState] ++ mgmtBytes 10 3 ++ toLe 1 s.pldmProgress ++ mgmtBytes 11 5)))

end Sys2Proof.Machine
end

