-- ==== Sys2Proof/Machine/Spdm.lean ====
section
/-! DEFINITION. SPDM as Hearth answers it: negotiation, certificates, challenges, measurements and chunks (R502). A message is written as its
version, its code, its two parameters and its data. -/

namespace Sys2Proof.Machine

open Sys2Proof

/-- The SPDM version of a binding's answers: 1.3, or 1.2 for a requester that speaks it (R495). -/
def State.spdmVer (s : State) (b : Binding) : Byte := if s.mgmt.spdm12.contains (bindNo b) then 0x12 else 0x13
/-- An answer; one larger than 4,096 bytes is kept for CHUNK_GET, and the requester told so. PRESUMED (log 62). -/
def State.spdm (b : Binding) (code p1 p2 : Byte) (data : Bytes) (s : State) : State :=
  let m : Bytes := [s.spdmVer b, code, p1, p2] ++ data
  if m.length ≤ 4096 then s.mgmtSend b m
  else (s.modMgmt (fun g => { g with large := Tab.set (bindNo b) m g.large })).mgmtSend b [s.spdmVer b, 0x7F, 0x0F, 0, 0]
/-- An error: 1 InvalidRequest, 4 UnexpectedRequest, 7 UnsupportedRequest. -/
def State.spdmError (b : Binding) (code : Byte) (s : State) : State := s.mgmtSend b [s.spdmVer b, 0x7F, code, 0]

/-- Requests after the negotiation: one that comes before it is unexpected. DEDUCED (log 102). -/
def State.negotiated (b : Binding) (f : State → State) (s : State) : State :=
  if s.mgmt.spdmOk.contains (bindNo b) then f s else s.spdmError b 4

/-- The device identity key is at hand (R470). DEDUCED (log 102). -/
def State.hasIdentity (s : State) : Bool := s.boot.lc == 1 || s.boot.lc == 2 || s.boot.lc == 3
/-- A signature with the identity key, and the draw after it. DESIGN CHOICE (log 3). -/
def State.signature (s : State) : Bytes × State := ((List.range 96).map (Config.freeBytes s.free), { s with free := s.free + 1 })
/-- A fresh nonce. DESIGN CHOICE (log 3). -/
def State.nonce (s : State) : Bytes × State := ((List.range 32).map (Config.freeBytes s.free), { s with free := s.free + 1 })

/-! ## Negotiation (R495, R502) -/

/-- GET_VERSION (R495): 1.3 and 1.2; the negotiation begins anew. -/
def State.getVersion (b : Binding) (s : State) : State :=
  (s.modMgmt (fun m => { m with
    spdmOk := m.spdmOk.filter (· != bindNo b), spdm12 := m.spdm12.filter (· != bindNo b), large := Tab.del (bindNo b) m.large })).mgmtSend b
    [0x10, 4, 0, 0, 0, 2, 0, 0x12, 0, 0x13]

/-- GET_VERSION (R502). -/
def execGetVersion (b : Binding) (s : State) : Outcome := done (s.serve b .spdm (State.getVersion b))

/-- GET_CAPABILITIES (R495, R502): certificates, challenges, signed measurements and chunks; no sessions and no mutual authentication. The
requester's version, 1.2 with `v12`, is that of the answers from here on. DEDUCED (log 102). -/
def State.getCaps (b : Binding) (v12 : Bool) (s : State) : State :=
  (s.modMgmt (fun m => { m with spdm12 := m.spdm12.filter (· != bindNo b) ++ (if v12 then [bindNo b] else []) })).spdm b 0x61 0 0
    (mgmtBytes 12 4 ++ toLe 4 0x00020016 ++ toLe 4 4096 ++ mgmtBytes 13 4)

/-- GET_CAPABILITIES (R502). -/
def execGetCapabilities (b : Binding) (s : State) (v12 : Bool := false) : Outcome := done (s.serve b .spdm (State.getCaps b v12))

/-- NEGOTIATE_ALGORITHMS (R502): only ECDSA P-384 with SHA-384. -/
def State.negotiate (b : Binding) (both : Bool) (s : State) : State :=
  if both then
    (s.modMgmt (fun m => { m with spdmOk := m.spdmOk.filter (· != bindNo b) ++ [bindNo b] })).spdm b 0x63 0 0
      (toLe 2 36 ++ [1, 0] ++ toLe 4 4 ++ toLe 4 0x80 ++ toLe 4 2 ++ List.replicate 16 0)
  else s.spdmError b 1

/-- NEGOTIATE_ALGORITHMS (R502). -/
def execNegotiateAlgorithms (b : Binding) (ecdsaP384 sha384 : Bool) (s : State) : Outcome :=
  done (s.serve b .spdm (State.negotiate b (ecdsaP384 && sha384)))

/-! ## Certificates (R502) -/

/-- GET_DIGESTS (R502): slot 0 alone is filled. -/
def execGetDigests (b : Binding) (s : State) : Outcome :=
  done (s.serve b .spdm (State.negotiated b (State.spdm b 1 0 1 (sha384 Config.certChain))))

/-- GET_CERTIFICATE (R502): a portion of slot 0's chain. -/
def State.getCertificate (b : Binding) (slot off n : Nat) (s : State) : State :=
  if slot ≠ 0 ∨ Config.certChain.length ≤ off then s.spdmError b 1
  else
    let p := (Config.certChain.drop off).take n
    s.spdm b 2 0 0 (toLe 2 p.length ++ toLe 2 (Config.certChain.length - off - p.length) ++ p)

/-- GET_CERTIFICATE (R502). -/
def execGetCertificate (b : Binding) (slot : Byte) (offset length : BitVec 16) (s : State) : Outcome :=
  done (s.serve b .spdm (State.negotiated b (State.getCertificate b slot.toNat offset.toNat length.toNat)))

/-- CHALLENGE (R502): refused while the identity key is absent or withheld; otherwise signed over a fresh nonce. -/
def State.challengeAuth (b : Binding) (slot : Nat) (s : State) : State :=
  if !s.hasIdentity then s.spdmError b 7
  else if slot ≠ 0 then s.spdmError b 1
  else
    let n := s.nonce
    let g := n.2.signature
    g.2.spdm b 3 0 1 (sha384 Config.certChain ++ n.1 ++ toLe 2 0 ++ g.1)

/-- CHALLENGE (R502). -/
def execChallenge (b : Binding) (slot : Byte) (_nonce : Bytes) (s : State) : Outcome :=
  done (s.serve b .spdm (State.negotiated b (State.challengeAuth b slot.toNat)))

/-! ## Measurements (R502) -/

/-- Measurement `i` with its value type: 0 immutable ROM, 1 mutable firmware, 2 hardware and 3 firmware configuration; none while it has not
been taken. Under the recovery loader there are only 1 and 9. DEDUCED (log 102). -/
def State.measurement (s : State) (i : Nat) : Option (Nat × Bytes) :=
  if i = 1 then some (0, sha384 (s.flashRead 0 0x80000))
  else if i = 9 then (if s.boot.hwMeas.isEmpty then none else some (2, s.boot.hwMeas))
  else if s.boot.stage == .recovery then none
  else if 2 ≤ i ∧ i ≤ 7 then (if bit s.boot.parts (i - 1) then some (1, sha384 (s.partBytes s.boot.slot (i - 1))) else none)
  else if i = 8 then
    if s.boot.parts = 0 then none
    else
      let base := slotBase s.boot.slot
      some (3, sha384 (s.flashRead base 0x3C00) ++ s.flashRead (base + 0x3C00) 4 ++ toLe 1 (b2n (s.manifest s.boot.slot).ownerSigned))
  else if i = 10 then (if s.boot.fwMeas.isEmpty then none else some (3, s.boot.fwMeas))
  else none

/-- A measurement block: a digest, or a raw value with bit 7 of its type. -/
def measBlock (i : Nat) (m : Nat × Bytes) : Bytes :=
  let t := if m.1 ≤ 1 then m.1 else 128 + m.1
  toLe 1 i ++ [1] ++ toLe 2 (m.2.length + 3) ++ toLe 1 t ++ toLe 2 m.2.length ++ m.2

/-- The measurements present, by index. -/
def State.measurements (s : State) : List (Nat × Nat × Bytes) :=
  (List.range 11).filterMap (fun i => (s.measurement i).map (fun m => (i, m)))

/-- GET_MEASUREMENTS (R502): index 0 asks for their number and 0xFF for all; a signed answer needs the identity key. -/
def State.getMeasurements (b : Binding) (index : Nat) (signed : Bool) (s : State) : State :=
  let all := s.measurements
  let pick := if index = 0xFF then all else all.filter (fun e => e.1 == index)
  if signed && !s.hasIdentity then s.spdmError b 7
  else if index ≠ 0 ∧ pick.isEmpty then s.spdmError b 1
  else
    let rec_ := if index = 0 then [] else (pick.map (fun e => measBlock e.1 e.2)).flatten
    let n := s.nonce
    let body := toLe 1 (if index = 0 then 0 else pick.length) ++ toLe 3 rec_.length ++ rec_ ++ n.1 ++ toLe 2 0
    let p1 : Byte := if index = 0 then BitVec.ofNat 8 all.length else 0
    if signed then
      let g := n.2.signature
      g.2.spdm b 0x60 p1 0 (body ++ g.1)
    else n.2.spdm b 0x60 p1 0 body

/-- GET_MEASUREMENTS (R502). -/
def execGetMeasurements (b : Binding) (index : Byte) (signed : Bool) (_nonce : Bytes) (s : State) : Outcome :=
  done (s.serve b .spdm (State.negotiated b (State.getMeasurements b index.toNat signed)))

/-! ## Chunks (R502) -/

/-- Bytes of a large answer in each chunk. DEDUCED (log 102). -/
def chunkLen : Nat := 4080

/-- CHUNK_GET (R502): a chunk of the large answer, which is forgotten with its last chunk. -/
def State.chunkGet (b : Binding) (n : Nat) (s : State) : State :=
  match Tab.find (bindNo b) s.mgmt.large with
  | none => s.spdmError b 4
  | some m =>
    let c := (m.drop (n * chunkLen)).take chunkLen
    let last := decide (m.length ≤ (n + 1) * chunkLen)
    if c.isEmpty then s.spdmError b 1
    else
      let s := if last then s.modMgmt (fun g => { g with large := Tab.del (bindNo b) g.large }) else s
      s.mgmtSend b ([s.spdmVer b, 6, BitVec.ofNat 8 (b2n last), 0] ++ toLe 2 n ++ [0, 0] ++ toLe 4 c.length ++
        (if n = 0 then toLe 4 m.length else []) ++ c)

/-- CHUNK_GET (R502). -/
def execChunkGet (b : Binding) (seqNo : BitVec 32) (s : State) : Outcome :=
  done (s.serve b .spdm (State.negotiated b (State.chunkGet b seqNo.toNat)))

end Sys2Proof.Machine
end

