-- ==== Sys2Proof/Machine/Ncsi.lean ====
section
/-! DEFINITION. NC-SI and its passthrough (R503, R504), and the frames that arrive from the wire (R28, R173, R174). -/

namespace Sys2Proof.Machine

open Sys2Proof

/-! ## Commands (R503) -/

def State.ncChan (s : State) (c : Nat) : Option NcsiChan := Tab.find c s.mgmt.chans
def State.modNcsi (c : Nat) (f : NcsiChan → NcsiChan) (s : State) : State := s.modMgmt (fun m => { m with chans := m.chans.upd c {} f })

/-- The command codes of the NC-SI standard. PRESUMED (log 62). -/
def ncsiCode : NcsiCmd → Byte
  | .clearInitialState => 0x00 | .selectPackage => 0x01 | .deselectPackage => 0x02 | .enableChannel => 0x03 | .disableChannel => 0x04
  | .resetChannel => 0x05 | .enableTx => 0x06 | .disableTx => 0x07 | .aenEnable _ => 0x08 | .setLink => 0x09 | .getLinkStatus => 0x0A
  | .setVlanFilter _ _ _ => 0x0B | .enableVlan on => if on then 0x0C else 0x0D | .setMac _ _ _ => 0x0E
  | .broadcastFilter on => if on then 0x10 else 0x11 | .multicastFilter on => if on then 0x12 else 0x13
  | .getVersion => 0x15 | .getCapabilities => 0x16 | .getParameters => 0x17 | .other c => c

/-- A response: its code with bit 7, the channel, the response and reason codes, and data. -/
def State.ncsiAnswer (b : Binding) (c : Nat) (cmd : NcsiCmd) (resp reason : Nat) (data : Bytes) (s : State) : State :=
  s.mgmtSend b ([ncsiCode cmd ||| 0x80, BitVec.ofNat 8 c] ++ toBe 2 resp ++ toBe 2 reason ++ data)

/-- Enabling a channel disables the one that had passthrough (R503). -/
def State.passOn (c : Nat) (s : State) : State :=
  let s := match s.mgmt.pass with
    | some o => if o = c then s else s.modNcsi o (fun x => { x with on := false })
    | none => s
  (s.modNcsi c (fun x => { x with on := true })).modMgmt (fun m => { m with pass := some c })
def State.passOff (c : Nat) (s : State) : State := s.modMgmt (fun m => { m with pass := if m.pass = some c then none else m.pass })

/-- What the configuring commands change. -/
def State.ncsiEffect (c : Nat) (cmd : NcsiCmd) (s : State) : State :=
  match cmd with
  | .clearInitialState => s.modNcsi c id
  | .selectPackage => s.modMgmt (fun m => { m with pkgOn := true })
  | .deselectPackage => s.modMgmt (fun m => { m with pkgOn := false })
  | .enableChannel => s.passOn c
  | .disableChannel => (s.modNcsi c (fun x => { x with on := false })).passOff c
  | .resetChannel => (s.passOff c).modMgmt (fun m => { m with chans := Tab.del c m.chans })
  | .enableTx => s.modNcsi c (fun x => { x with tx := true })
  | .disableTx => s.modNcsi c (fun x => { x with tx := false })
  | .aenEnable on => s.modNcsi c (fun x => { x with aen := on })
  | .setVlanFilter i vid on => s.modNcsi c (fun x => { x with vlans := if on then Tab.set i (vid % 4096) x.vlans else Tab.del i x.vlans })
  | .enableVlan on => s.modNcsi c (fun x => { x with vlanOn := on })
  | .setMac i mac on => s.modNcsi c (fun x => { x with macs := if on then Tab.set i (slice mac 0 6) x.macs else Tab.del i x.macs })
  | .broadcastFilter on => s.modNcsi c (fun x => { x with bcast := on })
  | .multicastFilter on => s.modNcsi c (fun x => { x with mcast := on })
  | _ => s

/-- Link status: bit 0 says that the LP of the channel is UP; its own word gives the LP state (R175, R503). PRESUMED (log 62). -/
def State.linkStatus (s : State) (c : Nat) : Bytes :=
  let st := (s.lp (8 * c)).state
  toBe 4 (b2n (st == .up)) ++ toBe 4 0 ++ toBe 4 st.code

/-- The parameters of a channel: what it holds. -/
def State.chanInfo (s : State) (c : Nat) : Bytes :=
  let x := (s.ncChan c).getD {}
  toLe 1 x.macs.length ++ toLe 1 (maskOf (x.macs.map (·.1))) ++ toLe 1 x.vlans.length ++ toLe 1 (maskOf (x.vlans.map (·.1))) ++
  toLe 1 (b2n x.bcast) ++ toLe 1 (b2n x.mcast) ++ toLe 1 (b2n x.vlanOn) ++ toLe 1 (b2n x.on + 2 * b2n x.tx + 4 * b2n x.aen) ++
  (x.macs.map (·.2)).flatten ++ (x.vlans.map (fun v => toBe 2 v.2)).flatten

/-- NCSI_COMMAND (R503): a channel takes commands after Clear Initial State; Set Link is answered and the ports stay as PORT_CONFIG has them
(R171); a command that is not supported is answered so. DEDUCED (log 103). -/
def State.ncsi (b : Binding) (c : Nat) (cmd : NcsiCmd) (s : State) : State :=
  let s := s.modMgmt (fun m => { m with aenOn := some b })
  let early := match cmd with
    | .clearInitialState | .selectPackage | .deselectPackage => true
    | _ => false
  if !early && (s.ncChan c).isNone then s.ncsiAnswer b c cmd 1 1 []
  else
    match cmd with
    | .other _ => s.ncsiAnswer b c cmd 3 0x7FFF []
    | .getLinkStatus => s.ncsiAnswer b c cmd 0 0 (s.linkStatus c)
    | .getVersion => s.ncsiAnswer b c cmd 0 0 (mgmtBytes 14 36)
    | .getCapabilities => s.ncsiAnswer b c cmd 0 0 (mgmtBytes 15 20 ++ [2, 0, 0, 4] ++ [0, 0, 0, 16])
    | .getParameters => s.ncsiAnswer b c cmd 0 0 (s.chanInfo c)
    | _ => (s.ncsiEffect c cmd).ncsiAnswer b c cmd 0 0 []

/-- NCSI_COMMAND (R503). -/
def execNcsiCommand (b : Binding) (channel : Fin 16) (cmd : NcsiCmd) (s : State) : Outcome := done (s.serve b .ncsi (State.ncsi b channel cmd))

/-! ## Passthrough (R504) -/

/-- A channel's filters take a frame: its destination is a unicast filter, broadcast or multicast; with VLAN filtering on, a tagged frame
also carries a VLAN of the filters. DEDUCED (log 103). -/
def NcsiChan.takes (x : NcsiChan) (f : Bytes) : Bool :=
  let dst := slice f 0 6
  let bc := dst == List.replicate 6 0xFF
  let mac := x.macs.any (fun m => m.2 == dst) || (x.bcast && bc) || (x.mcast && !bc && bit (le f 0 1) 0)
  mac && (!x.vlanOn || be f 12 2 != 0x8100 || x.vlans.any (fun v => v.2 == be f 14 2 % 4096))

/-- A frame received on the LP of the enabled channel goes to the BMC alone (R504). -/
def State.passTakes (s : State) (lp : Nat) (f : Bytes) : Bool := match s.mgmt.pass with
  | none => false
  | some c => lp == 8 * c && ((s.ncChan c).getD {}).takes f

/-- Bytes in the passthrough buffer, which empties at 100 Mb/s: one byte each 80 ns (R504). DEDUCED (log 103). -/
def State.passHeld (s : State) : Nat := s.mgmt.passLevel - (s.clock.now - s.mgmt.passAt) / 80

/-- Passes a frame of `n` bytes with FCS to the BMC: longer than 1,522 bytes, or without room in 64 KiB, it is dropped and counted (R504).
DEDUCED (log 103). -/
def State.passRx (lp : Nat) (f : Bytes) (n : Nat) (s : State) : State :=
  let held := s.passHeld
  if 1522 < n ∨ 65536 < held + n then s.bump 1 lp 48
  else (s.modMgmt (fun m => { m with passLevel := held + n, passAt := s.clock.now })).emit (.bmcFrame f)

/-- NCSI_TX_PASSTHROUGH (R504): sent on the LP of the enabled channel while it is UP and the channel's transmit is enabled, at most 1,522
bytes, one frame per 10 µs and 100 Mb/s. DEDUCED (log 103). -/
def State.passTx (frame : Bytes) (s : State) : State :=
  match s.mgmt.pass with
  | none => s
  | some c =>
    let lp := 8 * c
    let f := padTo60 frame
    let n := f.length + 4
    if !((s.ncChan c).getD {}).tx || (s.lp lp).state != .up || decide (1522 < n) || decide (s.clock.now < s.mgmt.txAt) then s
    else
      (((s.modMgmt (fun m => { m with txAt := s.clock.now + max 10000 (n * 80) })).bump 1 lp 7).bumpBy 1 lp 8 n).emit (.frame lp (f ++ fcsOf f))

/-- NCSI_TX_PASSTHROUGH (R504). -/
def execNcsiTxPassthrough (frame : Bytes) (s : State) : Outcome := if s.mgmtOn then done (s.passTx frame) else done s

/-! ## Frames from the wire (R28, R173, R174) -/

/-- A frame arrives on an UP LP: the MAC judges it, NC-SI takes its own, the rest enters the receive FIFO. DEDUCED (log 110). -/
def State.frameIn (lp : Nat) (frame : Bytes) (fcsOk : Bool) (s : State) : State :=
  if !s.lpExists lp || (s.lp lp).state != .up then s
  else
    match s.macCheck lp frame fcsOk with
    | (s, none) => s
    | (s, some f) => if s.passTakes lp f then s.passRx lp f frame.length else s.rxEnqueue lp f

/-- What error correction found in the codewords of a frame: FEC_CW_CORRECTED of the LP, LANE_SYMBOL_ERR of the lanes (R168, R183). DESIGN
CHOICE (log 107). -/
def State.fecCount (lp corrected : Nat) (symbols : List (Fin 8 × Nat)) (s : State) : State :=
  (s.bumpBy 1 lp 11 corrected).each (fun (e : Fin 8 × Nat) s => s.bumpBy 1 (lp / 8 * 8 + e.1.val) 32 e.2) symbols

/-- FRAME_RECEIVE (R173, R183). -/
def execFrameReceive (lp : LpId) (frame : Bytes) (fcsOk : Bool) (corrected : Nat) (symbols : List (Fin 8 × Nat)) (s : State) : Outcome :=
  if !s.lpExists lp || (s.lp lp).state != .up then done s else done ((s.fecCount lp corrected symbols).frameIn lp frame fcsOk)

end Sys2Proof.Machine
end

