-- ==== Sys2Proof/Machine/Flags.lean ====
section
/-! DEFINITION. The status and control words of the register spaces, put together from the fields of the state: BAR0 (R47), the engines (R442),
Hearth's boot registers (R461) and PPL_RELEASE (R462). Reserved fields read zero (R10). -/

namespace Sys2Proof.Machine

open Sys2Proof

/-! ## BAR0 (R47) -/

/-- MBX_CTRL: OWNER, IRQ_EN, VECTOR. -/
def Fn.mbxCtrl (f : Fn) : Nat := b2n f.owner + 256 * b2n f.irqEn + 65536 * f.vector.toNat
/-- MBX_STATUS: DB_WHILE_OWNED, REFUSED, CP_UNAVAILABLE, RESP_SEQ. DEDUCED (log 24). -/
def State.mbxStatus (s : State) (fid : Nat) : Nat :=
  let f := s.fn fid
  b2n f.dbOwned + 2 * b2n (f.state != .active) + 4 * b2n (s.cpOf fid).unavailable + 256 * f.respSeq.toNat
/-- FN_ID: FID, GEN, PRIV. -/
def State.fnId (s : State) (fid : Nat) : Nat := fid % 8192 + 65536 * (s.fn fid).gen.toNat + 16777216 * (s.fn fid).priv.code
/-- FN_STATE: STATE, REASON, GEN. -/
def Fn.stateWord (f : Fn) : Nat := f.state.code + 16 * (f.reason % 16) + 256 * f.gen.toNat
/-- FN_ABORT_STATUS: IN_PROGRESS, DONE, ENGINE_RESET, HOST_SILENT, ELAPSED_US. -/
def Fn.abortWord (f : Fn) : Nat :=
  b2n f.abInProgress + 2 * b2n f.abDone + 4 * b2n f.abEngReset + 8 * b2n f.abHostSilent + 65536 * min f.abElapsed 0xFFFF
/-- HIF_VERSION: DEVICE, STEPPING, IFACE, which is 0 while CP_UNAVAILABLE. DESIGN CHOICE (log 6). -/
def State.hifVersion (s : State) (fid : Nat) : Nat :=
  0x5120 + 65536 * (s.boot.stepping % 256) + 16777216 * (if (s.cpOf fid).unavailable then 0 else Config.iface.toNat)
/-- HIF_LINK: RATE, WIDTH, BIFURCATED, LINK_B, FLIT. DEDUCED (log 73). -/
def State.hifLink (s : State) (fid : Nat) : Nat :=
  let l := s.linkOf fid
  let k := s.link l
  k.rate % 4 + 4 * (k.width % 32) + 128 * b2n (s.bif (hpOf fid)) + 256 * (l % 2) + 512 * b2n (decide (2 ≤ k.rate))
/-- HIF_DEV_STATE: DEVSTATE, PMODE. -/
def State.hifDevState (s : State) : Nat := s.hif.devState % 16 + 16 * (s.power.pmode % 4)

/-! ## Engines (R442) -/

/-- The value of an engine's STATE. -/
def EngRun.code : EngRun → Nat
  | .stopped => 0 | .running => 1 | .faulted => 2 | .resetting => 3
/-- ENG_CTRL: RUN, CS_WE, BCAST, AUTO_RESTART. DEDUCED (log 74). -/
def Engine.ctrlWord (x : Engine) : Nat := b2n (x.run != .stopped) + 4 * b2n x.csWe + 8 * b2n x.bcast + 32 * b2n x.autoRun
/-- ENG_STATUS: STATE, WAITING, IN_OP, CHECK_BUSY, PC. -/
def Engine.statusWord (x : Engine) : Nat :=
  x.run.code + 4 * b2n x.waiting + 8 * b2n x.inOp + 16 * b2n x.checking + 256 * (x.pc % 8192)

/-! ## Boot (R461, R462) -/

/-- HRT_IMAGE_SEQ: SEQ of the running image, once the start has one. -/
def State.hrtSeq (s : State) : Nat := if s.boot.release = 0 then 0 else s.runningSeq
/-- PPL_RELEASE of a half. -/
def State.pplWord (s : State) (h : Nat) : Nat :=
  maskOf ((List.range 8).filter (fun i => (s.pipe (8 * h + i)).released)) + 256 * b2n (if h = 0 then s.boot.coresW else s.boot.coresE)

end Sys2Proof.Machine
end

