-- ==== Sys2Proof/Machine/Registers.lean ====
section
/-! DEFINITION. Register accesses: BAR0 of a function (R14, R15, R47 to R50, R65, R67, R141), its configuration space (R38 to R42, R50) and the
control processor's registers (R441 to R443, R460 to R462). -/

namespace Sys2Proof.Machine

open Sys2Proof

/-! ## BAR0: what an offset is (R47, R48) -/

/-- The regions of BAR0: the mailbox area, a register with its width in bytes and whether it is write-only, a place of a register page where
no register lies, the rest of a doorbell page, the MSI-X table, the pending bits, and nothing. -/
inductive Place where
  | area (off : Nat)
  | reg (base width : Nat) (wo : Bool)
  | hole
  | spare
  | msixTable (off : Nat)
  | pba (off : Nat)
  | nothing
  deriving DecidableEq, Repr

/-- The registers of the MBX, FN and HIF pages: offset, width in bytes, write-only. -/
def pageRegs : List (Nat × Nat × Bool) :=
  [(0x1000, 4, false), (0x1008, 4, true), (0x1010, 4, false), (0x2000, 4, false), (0x2008, 4, false), (0x2010, 8, true), (0x2018, 4, false),
   (0x2020, 4, false), (0x2028, 4, false), (0x2030, 8, true), (0x3000, 4, false), (0x3008, 4, false), (0x3010, 4, false), (0x3018, 4, false),
   (0x3020, 8, false)]

/-- What lies at an offset of a function's BAR0. DEDUCED (log 73). -/
def State.placeOf (s : State) (fid off : Nat) : Place :=
  if off < 0x1000 then .area off
  else if off < 0x4000 then
    match pageRegs.find? (fun r => decide (r.1 ≤ off) && decide (off < r.1 + r.2.1)) with
    | some r => .reg r.1 r.2.1 r.2.2
    | none => .hole
  else if 0x10000 ≤ off ∧ off < 0x50000 then (if off % 4096 < 8 then .reg 0x10000 8 true else .spare)
  else if 0x60000 ≤ off ∧ off < 0x60000 + 16 * s.vectors fid then .msixTable (off - 0x60000)
  else if 0x70000 ≤ off ∧ off < 0x70000 + s.vectors fid / 8 then .pba (off - 0x70000)
  else .nothing

/-- The access rules of R48: a naturally aligned access of the register's own width, or of 32 bits to either half of a 64-bit register that is
not write-only. Answers the bit offset within the register. -/
def allowed (base width : Nat) (wo : Bool) (off size : Nat) : Option Nat :=
  let o := if base = 0x10000 then off % 4096 else off - base
  if size = width ∧ o = 0 then some 0
  else if width = 8 ∧ !wo ∧ size = 4 ∧ (o = 0 ∨ o = 4) then some (8 * o)
  else none

/-- FN_ERR.MMIO_BAD (R48). DEDUCED (log 73). -/
def State.mmioBad (fid : Nat) (s : State) : State := s.modFn fid (fun f => { f with err := f.err ||| 1 })

/-! ## Reads (R14, R15, R47, R50, R67) -/

/-- The value of a register; write-only ones read zero, and a VF reads zero from what it does not see. -/
def State.regValue (s : State) (fid base : Nat) : Nat :=
  let f := s.fn fid
  if base = 0x1000 then f.mbxCtrl
  else if base = 0x1010 then s.mbxStatus fid
  else if base = 0x2000 then s.fnId fid
  else if base = 0x2008 then f.stateWord
  else if base = 0x2018 then f.abortWord
  else if base = 0x2020 then f.err.toNat
  else if base = 0x2028 then f.dbReject
  else if base = 0x3000 then s.hifVersion fid
  else if base = 0x3008 then s.hifLink fid
  else if base = 0x3010 then s.hifDevState
  else if base = 0x3018 ∧ s.isPf fid = true then (s.link (s.linkOf fid)).err.toNat
  else if base = 0x3020 ∧ s.isPf fid = true then (s.link (s.linkOf fid)).scratch.toNat
  else 0

/-- The 16 bytes of an MSI-X table entry. -/
def MsixEntry.bytes (e : MsixEntry) : Bytes := toLe 8 e.addr.toNat ++ toLe 4 e.data.toNat ++ toLe 4 e.ctrl.toNat

/-- The RC registers of a read: FN_DB_REJECT_CNT goes to what coincided with the read (R15). DEDUCED (log 73). -/
def State.clearRc (fid base coincident : Nat) (s : State) : State :=
  if base = 0x2028 then s.modFn fid (fun f => { f with dbReject := min coincident 0xFFFFFFFF }) else s

/-- A read of BAR0 of `n` bytes: its value, and what the read changes. DEDUCED (log 73). -/
def State.barRead (fid off n coincident : Nat) (s : State) : Nat × State :=
  let f := s.fn fid
  match s.placeOf fid off with
  | .area o => (leNat (Mem.read 0 f.area o (min n (4096 - o))), s)
  | .reg base width wo =>
    match allowed base width wo off n with
    | some sh => (bits (s.regValue fid base) sh (8 * n), s.clearRc fid base coincident)
    | none => (0, s.mmioBad fid)
  | .hole => (0, s.mmioBad fid)
  | .spare => (0, s)
  | .msixTable o => (le ((List.range (n / 16 + 2)).flatMap (fun i => (f.msix.getD (o / 16 + i) {}).bytes)) (o % 16) n, s)
  | .pba o => (bits (maskOf f.msixPend) (8 * o) (8 * n), s)
  | .nothing => (0, s)

/-! ## Writes (R14, R15, R48 to R50, R67) -/

/-- A write of `v` to W1C bits: a bit whose condition occurs in the same step stays set (R15). -/
def w1c (old : BitVec 4) (v coincident : Nat) : BitVec 4 := (old &&& ~~~ (BitVec.ofNat 4 v)) ||| BitVec.ofNat 4 coincident

/-- A write to a register of the MBX, FN and HIF pages, by its access code; `v` carries the bytes written at bit `sh`, `co` the W1C bits whose
condition coincides. -/
def State.regWrite (fid base sh n : Nat) (v co : Nat) (s : State) : State :=
  let w := BitVec.ofNat 64 v
  let l := s.linkOf fid
  if base = 0x1000 then s.modFn fid (fun f => { f with irqEn := bit v 8, vector := BitVec.ofNat 8 (bits v 16 8) })
  else if base = 0x1008 then s.mbxDoorbell fid
  else if base = 0x1010 then s.modFn fid (fun f => { f with dbOwned := f.dbOwned && !bit v 0 || bit co 0 })
  else if base = 0x2010 then s.fnAbortWrite fid w
  else if base = 0x2020 then s.modFn fid (fun f => { f with err := w1c f.err v co })
  else if base = 0x2030 then s.fnVfAbortWrite fid w
  else if base = 0x3018 then (if s.isPf fid then s.modLink l (fun k => { k with err := w1c k.err v co }) else s)
  else if base = 0x3020 then
    if s.isPf fid then
      s.modLink l (fun k => { k with scratch :=
        if n = 8 then w else (k.scratch &&& ~~~ (0xFFFFFFFF#64 <<< sh)) ||| (BitVec.ofNat 64 (v % 4294967296) <<< sh) })
    else s
  else if base = 0x10000 then s.dbWrite fid w
  else s

/-- A write to the MSI-X table: an entry whose mask is cleared sends the message that waits for it (R50). PRESUMED (log 23). -/
def State.msixWrite (fid off n v : Nat) (s : State) : State :=
  let i := off / 16
  let o := off % 16
  let put := fun (e : MsixEntry) =>
    let b := putBytes e.bytes o (toLe n v)
    ({ addr := BitVec.ofNat 64 (le b 0 8), data := BitVec.ofNat 32 (le b 8 4), ctrl := BitVec.ofNat 32 (le b 12 4) } : MsixEntry)
  if (n = 4 ∨ n = 8) ∧ o % n = 0 then
    let s := s.modFn fid (fun f => { f with msix := f.msix.upd i {} put })
    let f := s.fn fid
    if f.msixPend.contains i && !(f.msix.getD i {}).ctrl.getLsbD 0 && !f.msixMask then
      (s.modFn fid (fun f => { f with msixPend := f.msixPend.filter (· != i) })).sendMsi fid i
    else s
  else s

/-- A write of `n` bytes to BAR0. DEDUCED (log 73). -/
def State.barWrite (fid off n v co : Nat) (s : State) : State :=
  let f := s.fn fid
  match s.placeOf fid off with
  | .area o => if f.owner then s else s.modFn fid (fun f => { f with area := Mem.write 0 f.area o (toLe (min n (4096 - o)) v) })
  | .reg base width wo =>
    match allowed base width wo off n with
    | some sh => s.regWrite fid base sh n v co
    | none => s.mmioBad fid
  | .hole => s.mmioBad fid
  | .msixTable o => s.msixWrite fid o n v
  | _ => s

/-- A function's BAR0 answers: it exists, and it is not DISABLED, or it is the PF of a link that is up before the device is READY (R463). -/
def State.barOn (s : State) (fid : Nat) : Bool :=
  s.fidOk fid && ((s.fn fid).state != .disabled || (s.isPf fid && (s.link (s.linkOf fid)).up && s.linksServe))

/-! ## Configuration space (R38 to R42, R50, R463) -/

/-- The least time of each completion timeout range of Device Control 2, by its code; at the default value 10 ms (R38). PRESUMED (log 135). -/
def cplRanges : List (Nat × Nat) := [(0, 10000000), (1, 50000), (2, 1000000), (5, 16000000), (6, 65000000)]

/-- The code of a payload or request size: 0 for 128 bytes, one more for each doubling. PRESUMED (log 135). -/
def sizeCode (n : Nat) : Nat := Nat.log2 (n / 128)

/-- A register of a function's configuration space as 32 bits (R38, R40, R42, R50). A VF sees its identifiers, class code and MSI-X control; what
acts on the link stands in its PF. PRESUMED (log 135). -/
def State.cfgValue (s : State) (fid : Nat) (r : CfgReg) : Nat :=
  let pf := s.isPf fid
  let k := s.link (s.linkOf fid)
  let f := s.fn fid
  let own := fun (v : Nat) => if pf then v else 0
  match r with
  | .ids => Config.vendorId.toNat + (if pf then 0x5120 else 0x5121) * 65536
  | .classRev => s.boot.stepping % 256 + 0x020000 * 256
  | .devCtl => own (sizeCode k.mps * 32 + sizeCode k.mrrs * 4096)
  | .devCtl2 => own (((cplRanges.find? (fun c => c.2 == k.cplTimeout)).map (·.1)).getD 0)
  | .aerStatus => own (b2n k.aerEcrc * 2 ^ 19)
  | .aerCtl => own (0x20 + b2n k.ecrcGen * 0x40 + 0x80 + b2n k.ecrcChk * 0x100)
  | .msixCtl => (s.vectors fid - 1) * 65536 + b2n f.msixMask * 2 ^ 30 + b2n f.msixOn * 2 ^ 31

/-- Messages that waited while MSI-X was masked are sent as far as they may be now (R50). PRESUMED (log 23). -/
def State.flushMsix (fid : Nat) (s : State) : State :=
  let f := s.fn fid
  if !f.msixOn || f.msixMask then s
  else
    let go := f.msixPend.filter (fun v => !(f.msix.getD v {}).ctrl.getLsbD 0)
    s.each (fun v s => (s.modFn fid (fun f => { f with msixPend := f.msixPend.filter (· != v) })).sendMsi fid v) go

/-- A write to a register of configuration space: options that R38 does not list leave the setting as it is. PRESUMED (log 135). -/
def State.cfgWrite (fid : Nat) (r : CfgReg) (v co : Nat) (s : State) : State :=
  let l := s.linkOf fid
  let own := fun (f : Link → Link) => if s.isPf fid then s.modLink l f else s
  match r with
  | .ids => s
  | .classRev => s
  | .devCtl =>
    let p := bits v 5 3
    let q := bits v 12 3
    own (fun k => { k with mps := if p ≤ 2 then 128 * 2 ^ p else k.mps, mrrs := if q ≤ 5 then 128 * 2 ^ q else k.mrrs })
  | .devCtl2 => own (fun k => { k with cplTimeout := match cplRanges.find? (fun c => c.1 == v % 16) with
      | some c => c.2
      | none => k.cplTimeout })
  | .aerStatus => own (fun k => { k with aerEcrc := k.aerEcrc && !bit v 19 || bit co 19 })
  | .aerCtl => own (fun k => { k with ecrcGen := bit v 6, ecrcChk := bit v 8 })
  | .msixCtl => (s.modFn fid (fun f => { f with msixMask := bit v 30, msixOn := bit v 31 })).flushMsix fid

/-! ## The control processor's registers (R441 to R443, R460 to R462) -/

/-- The engine and the offset within its block of registers. -/
def engPlace (off : Nat) : Option (Nat × Nat) :=
  let o := off % 65536
  let n := o / 256
  if off / 65536 = 0x400 ∧ n < 16 then some (n, o % 256)
  else if off / 65536 = 0x401 ∧ n < 32 then some (16 + n, o % 256)
  else if off / 65536 = 0x402 ∧ n < 2 then some (48 + n, o % 256)
  else none

/-- A write to an engine's register. RESET leaves the engine STOPPED whatever RUN says. DEDUCED (log 74). -/
def State.engWrite (e off v : Nat) (s : State) : State :=
  if off = 0 then
    let s := s.modEngine e (fun x => { x with csWe := bit v 2, bcast := bit v 3, autoRun := bit v 5 })
    let s := if bit v 0 then s.runEngine e else s
    let s := if bit v 1 then s.resetEngine e false else s
    if bit v 4 then s.startCheck e else s
  else if off = 0x0C then
    let s := if bit v 1 then s.engRequest e 1 else s
    if bit v 2 then s.engRequest e 2 else s
  else if off = 0x20 then s.csAddrWrite e (BitVec.ofNat 32 v)
  else if off = 0x24 then s.csDataWrite e (BitVec.ofNat 32 v)
  else s

/-- A read of an engine's register, with what it changes: the fault count is RC, the data window moves on (R441, R443). -/
def State.engRead (e off n coincident : Nat) (s : State) : Nat × State :=
  let x := s.engine e
  if off = 0 then (x.ctrlWord, s)
  else if off = 4 then (x.statusWord, s)
  else if off = 8 then (x.reqs.toNat, s)
  else if off = 0x10 then (x.fault.toNat % 2 ^ (8 * n), s)
  else if off = 0x14 then (x.fault.toNat / 4294967296, s)
  else if off = 0x18 then (x.faults, s.modEngine e (fun x => { x with faults := min coincident 0xFFFFFFFF }))
  else if off = 0x20 then (x.csAddr, s)
  else if off = 0x24 then
    let r := s.csDataRead e
    (r.1.toNat, r.2)
  else if off = 0x28 then (x.csCrc.toNat, s)
  else (0, s)

/-- A write to a register of the control processor's space. DEDUCED (log 74). -/
def State.cpWrite (off v : Nat) (s : State) : State :=
  match engPlace off with
  | some (e, o) => s.engWrite e o v
  | none =>
    if off = 0x04030000 then s.pplWrite 0 (BitVec.ofNat 32 v)
    else if off = 0x04030100 then s.pplWrite 1 (BitVec.ofNat 32 v)
    else if off = 0x05000010 then s.cpStatusWrite (BitVec.ofNat 32 v)
    else if off = 0x05000014 then s.modCp 0 (fun c => { c with lastBeat := s.clock.now })
    else s

/-- A read of a register of the control processor's space. DEDUCED (log 74). -/
def State.cpRead (off n coincident : Nat) (s : State) : Nat × State :=
  match engPlace off with
  | some (e, o) => s.engRead e o n coincident
  | none =>
    if off = 0x04030000 then (s.pplWord 0, s)
    else if off = 0x04030100 then (s.pplWord 1, s)
    else if off = 0x05000000 then (s.boot.release, s)
    else if off = 0x05000004 then (s.bootInfo, s)
    else if off = 0x05000008 then (s.boot.parts, s)
    else if off = 0x0500000C then (s.hrtSeq, s)
    else if off = 0x05000010 then (s.boot.cpStatus.toNat, s)
    else (0, s)

/-! ## The rows -/

/-- The completion of a register read leaves on the function's link; that of FN_ABORT_STATUS has both ordering attributes clear (R58). DESIGN CHOICE
(log 126). -/
def State.regReply (fid : Nat) (offset : BitVec 32) (v n : Nat) (s : State) : State :=
  let a := if offset = 0x2018 then 0 else Config.readAttr offset
  s.tlp fid (.reg (BitVec.ofNat 64 v) (a.getLsbD 0) (a.getLsbD 1) (toLe (n - 8) (v / 2 ^ 64)))

/-- The number that a write carries: its first eight bytes, and the others (R48). -/
def wideValue (value : BitVec 64) (more : Bytes) : Nat := value.toNat + 2 ^ 64 * leNat more

/-- REGISTER_WRITE (R14, R15, R42, R48, R463): acts by the register's access code; a write that is not allowed is discarded with MMIO_BAD. -/
def execRegisterWrite (space : RegSpace) (offset : BitVec 32) (size : Nat) (value : BitVec 64) (s : State) (coincident : BitVec 64 := 0)
    (check : TlpCheck := .ok) (more : Bytes := []) : Outcome :=
  match space with
  | .bar0 fid =>
    if !s.barOn fid then done s
    else if check != .ok then done (s.tlpFails fid check)
    else done (s.barWrite fid offset.toNat size (wideValue value more % 2 ^ (8 * size)) coincident.toNat)
  | .config fid reg =>
    if s.cfgRetry fid then done (s.tlp fid .retry)
    else if !s.cfgOn fid then done s
    else if check != .ok then done (s.tlpFails fid check)
    else done (s.cfgWrite fid reg value.toNat coincident.toNat)
  | .cp => done (s.cpWrite offset.toNat value.toNat)

/-- RC_REGISTER_READ (R14, R15, R42, R58, R463): a register is read, and one with access RC cleared; `coincident` settings that coincide with the read
remain. -/
def execRcRegisterRead (space : RegSpace) (offset : BitVec 32) (size coincident : Nat) (s : State) (check : TlpCheck := .ok) : Outcome :=
  match space with
  | .bar0 fid =>
    if !s.barOn fid then done s
    else if check != .ok then done (s.tlpFails fid check)
    else
      let r := s.barRead fid offset.toNat size coincident
      done (r.2.regReply fid offset r.1 size)
  | .config fid reg =>
    if s.cfgRetry fid then done (s.tlp fid .retry)
    else if !s.cfgOn fid then done s
    else if check != .ok then done (s.tlpFails fid check)
    else
      done (s.tlp fid (.reg (BitVec.ofNat 64 (s.cfgValue fid reg)) ((Config.readAttr offset).getLsbD 0) ((Config.readAttr offset).getLsbD 1)))
  | .cp =>
    let r := s.cpRead offset.toNat size coincident
    done (r.2.emit (.reg (BitVec.ofNat 64 r.1) false false))

/-! ## The debug port (R469) -/

/-- The row of R469 an access belongs to. -/
def reachRow : DebugReach → Nat
  | .boundary => 0 | .runControl => 1 | .engineRegs => 2 | .secrets => 3

/-- What the debug port reaches: as the first stage has fixed it; before that, what every state reaches (R459, R469). -/
def State.debugMask (s : State) : Nat := match s.boot.debugLc with
  | none => 1
  | some lc => reachMask lc

/-- What an access within reach does: run control halts or resumes a thread as THREAD_CTRL does, or a control processor, and registers of the control
processor's space are written and read. What boundary scan and the secrets' row do, R469 leaves to the tool. DESIGN CHOICE (log 141). -/
def State.debugDo (reach : DebugReach) (act : DebugAct) (s : State) : State :=
  match reach, act with
  | .runControl, .halt t => if threadOpFits 2 (s.thread t).state then s.threadOp 2 t 0 else s
  | .runControl, .resume t => if threadOpFits 3 (s.thread t).state then s.threadOp 3 t 0 else s
  | .runControl, .haltCp h => s.modCp h (fun c => { c with halted := c.running })
  | .runControl, .resumeCp h => (s.modCp h (fun c => { c with halted := false })).answerHeld
  | .engineRegs, .write off _ v => s.cpWrite off.toNat v.toNat
  | .engineRegs, .read off n =>
    let r := s.cpRead off.toNat n 0
    r.2.emit (.debug (BitVec.ofNat 64 r.1))
  | _, _ => s

/-- DEBUG_PORT_ACCESS (R370, R469): an access outside the reach of the state raises DEBUG_INTRUSION. DEDUCED (log 99). DESIGN CHOICE (log
141). -/
def execDebugPortAccess (reach : DebugReach) (s : State) (act : DebugAct := .none) : Outcome :=
  if s.boot.stage == .off then done s
  else if !bit s.debugMask (reachRow reach) then done (s.alarm .debugIntrusion)
  else if s.boot.mainGood then done (s.debugDo reach act)
  else done s

end Sys2Proof.Machine
end

