-- ==== Sys2Proof/Machine/Dispatch.lean ====
section
/-! DEFINITION. The dispatch of commands to their meanings: one arm for each constructor of `Instr`. -/

namespace Sys2Proof.Machine

open Sys2Proof

def exec (i : Instr) (s : State) : Host.Outcome State Fault Refusal :=
  match i with
  | .mbxDoorbell fid => Sys2Proof.Machine.execMbxDoorbell fid s
  | .cpUnavailableAnswer fid => Sys2Proof.Machine.execCpUnavailableAnswer fid s
  | .cpHeartbeatTimeout half dt => Sys2Proof.Machine.execCpHeartbeatTimeout half dt s
  | .cpRestart half => Sys2Proof.Machine.execCpRestart half s
  | .hrtHeartbeat half value => Sys2Proof.Machine.execHrtHeartbeat half value s
  | .ticketWorkEnd fid ticket => Sys2Proof.Machine.execTicketWorkEnd fid ticket s
  | .devQuery fid => Sys2Proof.Machine.execDevQuery fid s
  | .ticketQuery fid => Sys2Proof.Machine.execTicketQuery fid s
  | .faultQuery fid => Sys2Proof.Machine.execFaultQuery fid s
  | .sensorRead fid => Sys2Proof.Machine.execSensorRead fid s
  | .ledgerRead fid => Sys2Proof.Machine.execLedgerRead fid s
  | .resetRequest fid => Sys2Proof.Machine.execResetRequest fid s
  | .powerCapSet fid => Sys2Proof.Machine.execPowerCapSet fid s
  | .fnCreate fid => Sys2Proof.Machine.execFnCreate fid s
  | .fnDestroy fid => Sys2Proof.Machine.execFnDestroy fid s
  | .fnQuery fid => Sys2Proof.Machine.execFnQuery fid s
  | .hpGrantSet fid => Sys2Proof.Machine.execHpGrantSet fid s
  | .infraListSet fid => Sys2Proof.Machine.execInfraListSet fid s
  | .serviceHold fid => Sys2Proof.Machine.execServiceHold fid s
  | .ringCreate fid => Sys2Proof.Machine.execRingCreate fid s
  | .ringDestroy fid => Sys2Proof.Machine.execRingDestroy fid s
  | .ringQuery fid => Sys2Proof.Machine.execRingQuery fid s
  | .ringReset fid => Sys2Proof.Machine.execRingReset fid s
  | .ringModify fid => Sys2Proof.Machine.execRingModify fid s
  | .pipeConfig fid => Sys2Proof.Machine.execPipeConfig fid s
  | .ruleInsert fid => Sys2Proof.Machine.execRuleInsert fid s
  | .ruleDelete fid => Sys2Proof.Machine.execRuleDelete fid s
  | .tableInsert fid => Sys2Proof.Machine.execTableInsert fid s
  | .tableDelete fid => Sys2Proof.Machine.execTableDelete fid s
  | .tableLookup fid => Sys2Proof.Machine.execTableLookup fid s
  | .queueSet fid => Sys2Proof.Machine.execQueueSet fid s
  | .spreadSet fid => Sys2Proof.Machine.execSpreadSet fid s
  | .lrdConfig fid => Sys2Proof.Machine.execLrdConfig fid s
  | .tdKeySet fid => Sys2Proof.Machine.execTdKeySet fid s
  | .epBackingSet fid => Sys2Proof.Machine.execEpBackingSet fid s
  | .epCreate fid => Sys2Proof.Machine.execEpCreate fid s
  | .epDestroy fid => Sys2Proof.Machine.execEpDestroy fid s
  | .mrRegister fid => Sys2Proof.Machine.execMrRegister fid s
  | .mrDeregister fid => Sys2Proof.Machine.execMrDeregister fid s
  | .keyLoad fid => Sys2Proof.Machine.execKeyLoad fid s
  | .keyDestroy fid => Sys2Proof.Machine.execKeyDestroy fid s
  | .keyQuery fid => Sys2Proof.Machine.execKeyQuery fid s
  | .saCreate fid => Sys2Proof.Machine.execSaCreate fid s
  | .saDestroy fid => Sys2Proof.Machine.execSaDestroy fid s
  | .portConfig fid => Sys2Proof.Machine.execPortConfig fid s
  | .portQuery fid => Sys2Proof.Machine.execPortQuery fid s
  | .statsRead fid => Sys2Proof.Machine.execStatsRead fid s
  | .timeAdjust fid => Sys2Proof.Machine.execTimeAdjust fid s
  | .coreLoad fid image ecrcFails => Sys2Proof.Machine.execCoreLoad fid image s ecrcFails
  | .coreModeSet fid => Sys2Proof.Machine.execCoreModeSet fid s
  | .coreSlotsSet fid => Sys2Proof.Machine.execCoreSlotsSet fid s
  | .slotTableSwitch core => Sys2Proof.Machine.execSlotTableSwitch core s
  | .threadCtrl fid => Sys2Proof.Machine.execThreadCtrl fid s
  | .chanCreate fid => Sys2Proof.Machine.execChanCreate fid s
  | .chAbandon fid => Sys2Proof.Machine.execChAbandon fid s
  | .updateBegin fid cut => Sys2Proof.Machine.execUpdateBegin fid s cut
  | .updateStage fid readBack badPage cut => Sys2Proof.Machine.execUpdateStage fid readBack s badPage cut
  | .updateArm fid cut => Sys2Proof.Machine.execUpdateArm fid s cut
  | .updateCommit fid cut => Sys2Proof.Machine.execUpdateCommit fid s cut
  | .updateCancel fid cut => Sys2Proof.Machine.execUpdateCancel fid s cut
  | .updateQuery fid => Sys2Proof.Machine.execUpdateQuery fid s
  | .fnAbort fid value => Sys2Proof.Machine.execFnAbort fid value s
  | .fnVfAbort fid value => Sys2Proof.Machine.execFnVfAbort fid value s
  | .abortPass half => Sys2Proof.Machine.execAbortPass half s
  | .fenceTimeout engine dt => Sys2Proof.Machine.execFenceTimeout engine s dt
  | .abortPassDone half unsent dt => Sys2Proof.Machine.execAbortPassDone half unsent dt s
  | .sqDoorbell fid ring => Sys2Proof.Machine.execSqDoorbell fid ring s
  | .cqDoorbell fid ring => Sys2Proof.Machine.execCqDoorbell fid ring s
  | .eqDoorbell fid ring => Sys2Proof.Machine.execEqDoorbell fid ring s
  | .cqArm fid ring => Sys2Proof.Machine.execCqArm fid ring s
  | .eqArm fid ring => Sys2Proof.Machine.execEqArm fid ring s
  | .indexBlockReadDone kind ring hostIdx => Sys2Proof.Machine.execIndexBlockReadDone kind ring hostIdx s
  | .fetchVisit engine => Sys2Proof.Machine.execFetchVisit engine s
  | .descriptorReadDone ring descs => Sys2Proof.Machine.execDescriptorReadDone ring descs s
  | .tx ring data => Sys2Proof.Machine.execTx ring data s
  | .rxPost ring => Sys2Proof.Machine.execRxPost ring s
  | .nop ring => Sys2Proof.Machine.execNop ring s
  | .hostReadCompletion link tag status => Sys2Proof.Machine.execHostReadCompletion link tag status s
  | .completionTimeout link tag dt => Sys2Proof.Machine.execCompletionTimeout link tag s dt
  | .completionWrite cq pick => Sys2Proof.Machine.execCompletionWrite cq pick s
  | .rxPacketDelivery ring check mem => Sys2Proof.Machine.execRxPacketDelivery ring s check mem
  | .eqModerationTimer eq dt => Sys2Proof.Machine.execEqModerationTimer eq dt s
  | .registerWrite space offset size value coincident check more => Sys2Proof.Machine.execRegisterWrite space offset size value s coincident check more
  | .rcRegisterRead space offset size coincident check => Sys2Proof.Machine.execRcRegisterRead space offset size coincident s check
  | .flr fid => Sys2Proof.Machine.execFlr fid s
  | .pfFlr link => Sys2Proof.Machine.execPfFlr link s
  | .vfEnable link numVfs => Sys2Proof.Machine.execVfEnable link numVfs s
  | .vfDisable link numVfs => Sys2Proof.Machine.execVfDisable link numVfs s
  | .linkDown link => Sys2Proof.Machine.execLinkDown link s
  | .hotReset link => Sys2Proof.Machine.execHotReset link s
  | .perstAssert link => Sys2Proof.Machine.execPerstAssert link s
  | .perstDeassert link => Sys2Proof.Machine.execPerstDeassert link s
  | .linkRetrain link => Sys2Proof.Machine.execLinkRetrain link s
  | .linkUp link rate width degraded => Sys2Proof.Machine.execLinkUp link rate width degraded s
  | .quarantineEnd fid dt => Sys2Proof.Machine.execQuarantineEnd fid dt s
  | .frameReceive lp frame fcsOk corrected symbols => Sys2Proof.Machine.execFrameReceive lp frame fcsOk corrected symbols s
  | .frameTransmit lp check mem => Sys2Proof.Machine.execFrameTransmit lp check s mem
  | .trainingAttemptDone lp => Sys2Proof.Machine.execTrainingAttemptDone lp s
  | .trainingAttemptFail lp lanes symbols => Sys2Proof.Machine.execTrainingAttemptFail lp lanes s symbols
  | .localFault lp lanes symbols => Sys2Proof.Machine.execLocalFault lp lanes s symbols
  | .remoteFault lp => Sys2Proof.Machine.execRemoteFault lp s
  | .highBer lp codewords symbols => Sys2Proof.Machine.execHighBer lp codewords s symbols
  | .timeHoldover dt => Sys2Proof.Machine.execTimeHoldover dt s
  | .ingressSlot pipe check mem => Sys2Proof.Machine.execIngressSlot pipe check s mem
  | .deepParseDone pipe slot procError vectorOk => Sys2Proof.Machine.execDeepParseDone pipe slot procError s vectorOk
  | .learnRequestProcess pipe => Sys2Proof.Machine.execLearnRequestProcess pipe s
  | .agingPass pipe dt => Sys2Proof.Machine.execAgingPass pipe dt s
  | .egressPass pipe mem => Sys2Proof.Machine.execEgressPass pipe s mem
  | .spreaderDispatch group => Sys2Proof.Machine.execSpreaderDispatch group s
  | .reorderTimeout group steps => Sys2Proof.Machine.execReorderTimeout group steps s
  | .tcamScrub pipe differing mem => Sys2Proof.Machine.execTcamScrub pipe differing s mem
  | .write ring data => Sys2Proof.Machine.execWrite ring data s
  | .read ring => Sys2Proof.Machine.execRead ring s
  | .writeNotify ring data => Sys2Proof.Machine.execWriteNotify ring data s
  | .pacerSend half node => Sys2Proof.Machine.execPacerSend half node s
  | .writePacket seq => Sys2Proof.Machine.execWritePacket seq s
  | .readReq seq data ecrcFails => Sys2Proof.Machine.execReadReq seq data s ecrcFails
  | .readResp seq => Sys2Proof.Machine.execReadResp seq s
  | .ack seq => Sys2Proof.Machine.execAck seq s
  | .nak seq => Sys2Proof.Machine.execNak seq s
  | .release seq => Sys2Proof.Machine.execRelease seq s
  | .contextFetchDone ep ok => Sys2Proof.Machine.execContextFetchDone ep ok s
  | .contextEviction ep => Sys2Proof.Machine.execContextEviction ep s
  | .keyDerivationDone seq => Sys2Proof.Machine.execKeyDerivationDone seq s
  | .retransmitTimer ep msg dt => Sys2Proof.Machine.execRetransmitTimer ep msg dt s
  | .backoffEnd ep msg dt => Sys2Proof.Machine.execBackoffEnd ep msg dt s
  | .messageLifetimeExpiry ep msg dt => Sys2Proof.Machine.execMessageLifetimeExpiry ep msg dt s
  | .ackTimer half node ep msg dt => Sys2Proof.Machine.execAckTimer half node ep msg dt s
  | .recordExpiry half node ep msg dt => Sys2Proof.Machine.execRecordExpiry half node ep msg dt s
  | .releasedRecordExpiry half node ep msg dt => Sys2Proof.Machine.execReleasedRecordExpiry half node ep msg dt s
  | .pathUpdateInterval half node dt => Sys2Proof.Machine.execPathUpdateInterval half node dt s
  | .sendingKeySwitch td dt => Sys2Proof.Machine.execSendingKeySwitch td dt s
  | .startGuardEnd dt => Sys2Proof.Machine.execStartGuardEnd dt s
  | .cipherDispatch half => Sys2Proof.Machine.execCipherDispatch half s
  | .encrypt ring input => Sys2Proof.Machine.execEncrypt ring input s
  | .decrypt ring input tag => Sys2Proof.Machine.execDecrypt ring input tag s
  | .keyUnwrapDone slot ok => Sys2Proof.Machine.execKeyUnwrapDone slot ok s
  | .cipherJobDone core => Sys2Proof.Machine.execCipherJobDone core s
  | .knownAnswerTest core pass => Sys2Proof.Machine.execKnownAnswerTest core pass s
  | .katRetest core pass => Sys2Proof.Machine.execKatRetest core pass s
  | .cipherAlarm source volts => Sys2Proof.Machine.execCipherAlarm source s volts
  | .alarmRecovery dt => Sys2Proof.Machine.execAlarmRecovery dt s
  | .instruction thread hw => Sys2Proof.Machine.execInstruction thread hw s
  | .lysWait thread rd rs1 => Sys2Proof.Machine.execLysWait thread rd rs1 s
  | .lysPoll thread rd rs1 => Sys2Proof.Machine.execLysPoll thread rd rs1 s
  | .lysSignal thread rd rs1 rs2 => Sys2Proof.Machine.execLysSignal thread rd rs1 rs2 s
  | .lysTimer thread rs1 => Sys2Proof.Machine.execLysTimer thread rs1 s
  | .lysEvclr thread rs1 => Sys2Proof.Machine.execLysEvclr thread rs1 s
  | .lysChput thread rd rs1 rs2 => Sys2Proof.Machine.execLysChput thread rd rs1 rs2 s
  | .lysChrecv thread rd rs1 rs2 hw => Sys2Proof.Machine.execLysChrecv thread rd rs1 rs2 s hw
  | .lysChstat thread rd rs1 => Sys2Proof.Machine.execLysChstat thread rd rs1 s
  | .lysLookup thread rd rs1 rs2 hw => Sys2Proof.Machine.execLysLookup thread rd rs1 rs2 s hw
  | .lysPktget thread rd => Sys2Proof.Machine.execLysPktget thread rd s
  | .lysPktput thread rd rs1 rs2 => Sys2Proof.Machine.execLysPktput thread rd rs1 rs2 s
  | .lysPktnew thread rd => Sys2Proof.Machine.execLysPktnew thread rd s
  | .lysTstart thread rd rs1 rs2 => Sys2Proof.Machine.execLysTstart thread rd rs1 rs2 s
  | .lysTstop thread rd rs1 => Sys2Proof.Machine.execLysTstop thread rd rs1 s
  | .lysTread thread rd rs1 rs2 => Sys2Proof.Machine.execLysTread thread rd rs1 rs2 s
  | .lysByrebind thread rd rs1 rs2 => Sys2Proof.Machine.execLysByrebind thread rd rs1 rs2 s
  | .threadWake thread => Sys2Proof.Machine.execThreadWake thread s
  | .signalDelivery thread => Sys2Proof.Machine.execSignalDelivery thread s
  | .evTimer thread dt => Sys2Proof.Machine.execEvTimer thread dt s
  | .lookupDone thread slot => Sys2Proof.Machine.execLookupDone thread slot s
  | .chBusyTimeout thread => Sys2Proof.Machine.execChBusyTimeout thread s
  | .stallSentinel core => Sys2Proof.Machine.execStallSentinel core s
  | .microwordStep engine env => Sys2Proof.Machine.execMicrowordStep engine env s
  | .waitLimit engine dt env => Sys2Proof.Machine.execWaitLimit engine s dt env
  | .engineTimer engine steps => Sys2Proof.Machine.execEngineTimer engine steps s
  | .engineReset engine bad => Sys2Proof.Machine.execEngineReset engine s bad
  | .engineAutoRestart engine => Sys2Proof.Machine.execEngineAutoRestart engine s
  | .engRun engine => Sys2Proof.Machine.execEngRun engine s
  | .engCtrlReset engine => Sys2Proof.Machine.execEngCtrlReset engine s
  | .csCheck engine => Sys2Proof.Machine.execCsCheck engine s
  | .csCheckDone engine => Sys2Proof.Machine.execCsCheckDone engine s
  | .quiesce engine => Sys2Proof.Machine.execQuiesce engine s
  | .control engine => Sys2Proof.Machine.execControl engine s
  | .engCsDataWrite engine value => Sys2Proof.Machine.execEngCsDataWrite engine value s
  | .engCsDataRead engine => Sys2Proof.Machine.execEngCsDataRead engine s
  | .engCsAddrWrite engine value => Sys2Proof.Machine.execEngCsAddrWrite engine value s
  | .csScrub engine addr err => Sys2Proof.Machine.execCsScrub engine addr err s
  | .csReload engine bad => Sys2Proof.Machine.execCsReload engine s bad
  | .stbyPwrgdRise mgmtAddr failed worn => Sys2Proof.Machine.execStbyPwrgdRise mgmtAddr failed s worn
  | .firstStage recoveryReqN badReads cut => Sys2Proof.Machine.execFirstStage recoveryReqN s badReads cut
  | .partVerified kind badRead cut => Sys2Proof.Machine.execPartVerified kind s badRead cut
  | .mainPwrgdRise => Sys2Proof.Machine.execMainPwrgdRise s
  | .porNPulse ns taken => Sys2Proof.Machine.execPorNPulse ns taken s
  | .hrtRelease env => Sys2Proof.Machine.execHrtRelease env s
  | .hrtCpStatus value => Sys2Proof.Machine.execHrtCpStatus value s
  | .readyTimeout dt => Sys2Proof.Machine.execReadyTimeout dt s
  | .pplRelease half value => Sys2Proof.Machine.execPplRelease half value s
  | .recoveryLoader image cut => Sys2Proof.Machine.execRecoveryLoader image s cut
  | .mainPwrgdFall => Sys2Proof.Machine.execMainPwrgdFall s
  | .stbyPwrgdFall => Sys2Proof.Machine.execStbyPwrgdFall s
  | .pwrHoldupN => Sys2Proof.Machine.execPwrHoldupN s
  | .refclkLoss clk => Sys2Proof.Machine.execRefclkLoss clk s
  | .sensorSample sensor value => Sys2Proof.Machine.execSensorSample sensor value s
  | .powerWindow watts => Sys2Proof.Machine.execPowerWindow watts s
  | .slewDone => Sys2Proof.Machine.execSlewDone s
  | .hearthRestart watchdog => Sys2Proof.Machine.execHearthRestart watchdog s
  | .ledgerWrite readBack => Sys2Proof.Machine.execLedgerWrite readBack s
  | .challengeGet b => Sys2Proof.Machine.execChallengeGet b s
  | .lcTransition b token cut => Sys2Proof.Machine.execLcTransition b token s cut
  | .ownerLockSet b token => Sys2Proof.Machine.execOwnerLockSet b token s
  | .kikInstall b payload => Sys2Proof.Machine.execKikInstall b payload s
  | .boardDataSet b payload => Sys2Proof.Machine.execBoardDataSet b payload s
  | .rootRevoke b token => Sys2Proof.Machine.execRootRevoke b token s
  | .capSet b payload => Sys2Proof.Machine.execCapSet b payload s
  | .ledgerGet b payload => Sys2Proof.Machine.execLedgerGet b payload s
  | .fnAbortReq b payload => Sys2Proof.Machine.execFnAbortReq b payload s
  | .statusGet b => Sys2Proof.Machine.execStatusGet b s
  | .updateCommitReq b cut => Sys2Proof.Machine.execUpdateCommitReq b s cut
  | .setEndpointId b eid => Sys2Proof.Machine.execSetEndpointId b eid s
  | .requestUpdate b => Sys2Proof.Machine.execRequestUpdate b s
  | .passComponentTable b component => Sys2Proof.Machine.execPassComponentTable b s component
  | .updateComponent b imageSize stamp component cut => Sys2Proof.Machine.execUpdateComponent b imageSize stamp s component cut
  | .requestFirmwareData b data readBack badPage cut => Sys2Proof.Machine.execRequestFirmwareData b data readBack s badPage cut
  | .activateFirmware b selfContained cut => Sys2Proof.Machine.execActivateFirmware b selfContained s cut
  | .cancelUpdate b cut => Sys2Proof.Machine.execCancelUpdate b s cut
  | .getStatus b => Sys2Proof.Machine.execGetStatus b s
  | .getTid b => Sys2Proof.Machine.execGetTid b s
  | .getPldmVersion b type => Sys2Proof.Machine.execGetPldmVersion b type s
  | .getPldmTypes b => Sys2Proof.Machine.execGetPldmTypes b s
  | .getPldmCommands b type => Sys2Proof.Machine.execGetPldmCommands b type s
  | .getSensorReading b id => Sys2Proof.Machine.execGetSensorReading b id s
  | .getStateSensorReadings b id => Sys2Proof.Machine.execGetStateSensorReadings b id s
  | .getPdr b handle => Sys2Proof.Machine.execGetPdr b handle s
  | .getPdrRepositoryInfo b => Sys2Proof.Machine.execGetPdrRepositoryInfo b s
  | .setNumericSensorEnable b id state => Sys2Proof.Machine.execSetNumericSensorEnable b id state s
  | .getVersion b => Sys2Proof.Machine.execGetVersion b s
  | .getCapabilities b v12 => Sys2Proof.Machine.execGetCapabilities b s v12
  | .negotiateAlgorithms b ecdsaP384 sha384 => Sys2Proof.Machine.execNegotiateAlgorithms b ecdsaP384 sha384 s
  | .getDigests b => Sys2Proof.Machine.execGetDigests b s
  | .getCertificate b slot offset length => Sys2Proof.Machine.execGetCertificate b slot offset length s
  | .challenge b slot nonce => Sys2Proof.Machine.execChallenge b slot nonce s
  | .getMeasurements b index signed nonce => Sys2Proof.Machine.execGetMeasurements b index signed nonce s
  | .chunkGet b seqNo => Sys2Proof.Machine.execChunkGet b seqNo s
  | .ncsiCommand b channel cmd => Sys2Proof.Machine.execNcsiCommand b channel cmd s
  | .ncsiTxPassthrough frame => Sys2Proof.Machine.execNcsiTxPassthrough frame s
  | .bucketLeak resource dt => Sys2Proof.Machine.execBucketLeak resource dt s
  | .hbmMigrationDone resource lost => Sys2Proof.Machine.execHbmMigrationDone resource s lost
  | .d2dLinkLoss link => Sys2Proof.Machine.execD2dLinkLoss link s
  | .splitDeclare dt => Sys2Proof.Machine.execSplitDeclare dt s
  | .rejoin opens => Sys2Proof.Machine.execRejoin opens s
  | .halfUnhealthy half => Sys2Proof.Machine.execHalfUnhealthy half s
  | .halfReset half env => Sys2Proof.Machine.execHalfReset half s env
  | .datapathReset mask => Sys2Proof.Machine.execDatapathReset mask s
  | .deviceWarm => Sys2Proof.Machine.execDeviceWarm s
  | .d2dLaneLoss link dir lane replays => Sys2Proof.Machine.execD2dLaneLoss link dir lane replays s
  | .d2dLinkReturn link env => Sys2Proof.Machine.execD2dLinkReturn link s env
  | .refclkReturn clk dt env => Sys2Proof.Machine.execRefclkReturn clk dt s env
  | .holdupDeassert => Sys2Proof.Machine.execHoldupDeassert s
  | .ppsEdge dt => Sys2Proof.Machine.execPpsEdge dt s
  | .secondStageWatchdog => Sys2Proof.Machine.execSecondStageWatchdog s
  | .avsTargetRetry half reported => Sys2Proof.Machine.execAvsTargetRetry half reported s
  | .debugPortAccess reach act => Sys2Proof.Machine.execDebugPortAccess reach s act
  | .i3cDynamicAddress addr => Sys2Proof.Machine.execI3cDynamicAddress addr s
  | .mctpControlMessage b command => Sys2Proof.Machine.execMctpControlMessage b command s

end Sys2Proof.Machine
end

