-- ==== Sys2Proof/Machine/Step.lean ====
section
/-! DEFINITION. One step of the block: the command at the front of the queue takes effect on the rest. -/

namespace Sys2Proof.Machine

open Sys2Proof

/-- The block with nothing to do: its clocks go on by one nanosecond. DESIGN CHOICE (log 9). -/
def State.tick (s : State) : State := s.advance 1

/-- The command at the front of the queue, run on the state with the queue's rest; on an empty queue the block idles. DESIGN CHOICE (log 9,
10, 18). -/
def step (s : State) : Host.Outcome State Fault Refusal :=
  match s.pending with
  | [] => .next s.tick
  | c :: rest => exec c { s with pending := rest }

/-- The state with the command that a word spells put at the front of its queue; unchanged where it spells none. DESIGN CHOICE (log 10). -/
def State.withFetchWord (s : State) (nbits w : Nat) : State :=
  match decodeTableWord nbits w with
  | none => s
  | some c => { s with pending := c :: s.pending }

end Sys2Proof.Machine
end

