-- ==== Sys2Proof/WellFormed.lean ====
section
/-! DEFINITION. Which commands the outside can send at all: access sizes, trained rates and widths, list lengths. Every other operand is bounded
by its type. The meanings answer ill-formed commands too; statements about well-formed ones say so. -/

namespace Sys2Proof

/-- An access reads or writes 1 to 4,096 bytes (R48). -/
def sizeOk (n : Nat) : Bool := decide (1 ≤ n) && decide (n ≤ 4096)

/-- A resource that is an HBM pseudo-channel, or an SRAM row by half, bank and spare (R522, R523, R545). -/
def memRes (r : Nat) : Bool :=
  (r / 16777216 == 4 && decide (r % 16777216 < 256)) ||
  (r / 16777216 == 5 && decide (r % 16777216 / 4194304 < 2) && decide (r % 4194304 / 16 < 1280))

/-- A resource of R545: its index lies below the number of its kind. -/
def resOk (r : Nat) : Bool :=
  let i := r % 16777216
  match r / 16777216 with
  | 1 => decide (i < 128)
  | 2 => decide (i < 1040)
  | 6 => decide (i < 40)
  | 7 => decide (i < 128)
  | 8 => decide (i < 16)
  | 9 => decide (i < 32)
  | 10 => decide (i < 2)
  | 11 => decide (i < 544)
  | 12 => decide (i < 16)
  | _ => memRes r

/-- A MAC filter is six bytes, a VLAN twelve bits (R503). -/
def NcsiCmd.wellFormed : NcsiCmd → Bool
  | .setMac _ mac _ => mac.length == 6
  | .setVlanFilter _ vid _ => decide (vid < 4096)
  | .clearInitialState | .selectPackage | .deselectPackage | .enableChannel | .disableChannel | .resetChannel | .enableTx | .disableTx => true
  | .aenEnable _ | .setLink | .getLinkStatus | .enableVlan _ | .broadcastFilter _ | .multicastFilter _ => true
  | .getVersion | .getCapabilities | .getParameters | .other _ => true

/-- An uncorrectable error met in a packet lies in a memory resource (R519, R528). -/
def PktCheck.wellFormed : PktCheck → Bool
  | .buffer row => memRes row.toNat
  | .ok | .fifo | .vector | .carry => true

/-- The errors that a command meets lie in memory resources (R519, R528). -/
def MemEnv.wellFormed (m : MemEnv) : Bool :=
  m.errs.all (fun e => memRes e.resource.toNat)

/-- An error of an engine is none of other memory; one of other memory names its resource (R417, R440). -/
def HwError.ofEngine : HwError → Bool
  | .memory _ _ => false
  | .none | .corrected | .uncorrectable | .parity => true
def HwError.wellFormed : HwError → Bool
  | .memory r _ => memRes r.toNat
  | .none | .corrected | .uncorrectable | .parity => true
def EngEnv.wellFormed (env : EngEnv) : Bool := env.err.ofEngine && env.mem.all (fun m => memRes m.1.toNat)

/-- The operands of a command that its type does not bound. -/
def Instr.wellFormed : Instr → Bool
  | .descriptorReadDone _ descs => descs.all (fun d => d.1.length == 64)
  | .rxPacketDelivery _ check mem => check.wellFormed && check != .vector && check != .carry && mem.wellFormed
  | .registerWrite _ _ size value coincident _ more => sizeOk size && decide (value.toNat < 2 ^ (8 * size)) && decide (coincident.toNat < 2 ^ (8 * size)) && decide (more.length = size - 8)
  | .rcRegisterRead _ _ size _ _ => sizeOk size
  | .vfEnable _ numVfs => decide (numVfs ≤ 512)
  | .vfDisable _ numVfs => decide (numVfs ≤ 512)
  | .linkUp _ rate width _ => decide (1 ≤ rate) && decide (rate ≤ 3) && [4, 8, 16].contains width
  | .frameReceive _ frame _ _ _ => !frame.isEmpty
  | .frameTransmit _ check mem => check.wellFormed && check != .vector && mem.wellFormed
  | .ingressSlot _ check mem => check.wellFormed && check != .carry && mem.wellFormed
  | .egressPass _ mem => mem.wellFormed
  | .tcamScrub _ _ mem => mem.wellFormed
  | .decrypt _ _ tag => tag.length == 16
  | .instruction _ hw => hw.wellFormed
  | .lysChrecv _ _ _ _ hw => hw.wellFormed
  | .lysLookup _ _ _ _ hw => hw.wellFormed
  | .microwordStep _ env => env.wellFormed
  | .waitLimit _ _ env => env.wellFormed
  | .csScrub _ addr err => decide (addr < 8192) && err.ofEngine
  | .stbyPwrgdRise _ failed _ => failed.all (fun r => resOk r.toNat)
  | .firstStage _ badReads _ => badReads.all (fun e => decide (e.2.1 ≤ 1))
  | .hrtRelease env => decide (env.links ≤ 5) && env.badCores.all (fun c => decide (c < 40))
  | .sensorSample _ value => decide (-2147483648 ≤ value) && decide (value < 2147483648)
  | .challenge _ _ nonce => nonce.length == 32
  | .getMeasurements _ _ signed nonce => !signed || nonce.length == 32
  | .ncsiCommand _ _ cmd => cmd.wellFormed
  | .ncsiTxPassthrough frame => !frame.isEmpty
  | .mbxDoorbell _ | .cpUnavailableAnswer _ | .cpHeartbeatTimeout _ _ | .cpRestart _ | .hrtHeartbeat _ _ | .ticketWorkEnd _ _
  | .devQuery _ | .ticketQuery _ | .faultQuery _ | .sensorRead _ | .ledgerRead _ | .resetRequest _ | .powerCapSet _ | .fnCreate _
  | .fnDestroy _ | .fnQuery _ | .hpGrantSet _ | .infraListSet _ | .serviceHold _ | .ringCreate _ | .ringDestroy _ | .ringQuery _
  | .ringReset _ | .ringModify _ | .pipeConfig _ | .ruleInsert _ | .ruleDelete _ | .tableInsert _ | .tableDelete _ | .tableLookup _
  | .queueSet _ | .spreadSet _ | .lrdConfig _ | .tdKeySet _ | .epBackingSet _ | .epCreate _ | .epDestroy _ | .mrRegister _
  | .mrDeregister _ | .keyLoad _ | .keyDestroy _ | .keyQuery _ | .saCreate _ | .saDestroy _ | .portConfig _ | .portQuery _
  | .statsRead _ | .timeAdjust _ | .coreLoad _ _ _ | .coreModeSet _ | .coreSlotsSet _ | .slotTableSwitch _ | .threadCtrl _
  | .chanCreate _ | .chAbandon _ | .updateBegin _ _ | .updateStage _ _ _ _ | .updateArm _ _ | .updateCommit _ _ | .updateCancel _ _
  | .updateQuery _ | .fnAbort _ _ | .fnVfAbort _ _ | .abortPass _ | .fenceTimeout _ _ | .abortPassDone _ _ _ | .sqDoorbell _ _
  | .cqDoorbell _ _ | .eqDoorbell _ _ | .cqArm _ _ | .eqArm _ _ | .indexBlockReadDone _ _ _ | .fetchVisit _ | .tx _ _ | .rxPost _
  | .nop _ | .hostReadCompletion _ _ _ | .completionTimeout _ _ _ | .completionWrite _ _ | .eqModerationTimer _ _ | .flr _ | .pfFlr _
  | .linkDown _ | .hotReset _ | .perstAssert _ | .perstDeassert _ | .linkRetrain _ | .quarantineEnd _ _ | .trainingAttemptDone _
  | .trainingAttemptFail _ _ _ | .localFault _ _ _ | .remoteFault _ | .highBer _ _ _ | .timeHoldover _ | .deepParseDone _ _ _ _
  | .learnRequestProcess _ | .agingPass _ _ | .spreaderDispatch _ | .reorderTimeout _ _ | .write _ _ | .read _ | .writeNotify _ _
  | .pacerSend _ _ | .writePacket _ | .readReq _ _ _ | .readResp _ | .ack _ | .nak _ | .release _ | .contextFetchDone _ _
  | .contextEviction _ | .keyDerivationDone _ | .retransmitTimer _ _ _ | .backoffEnd _ _ _ | .messageLifetimeExpiry _ _ _
  | .ackTimer _ _ _ _ _ | .recordExpiry _ _ _ _ _ | .releasedRecordExpiry _ _ _ _ _ | .pathUpdateInterval _ _ _ | .sendingKeySwitch _ _
  | .startGuardEnd _ | .cipherDispatch _ | .encrypt _ _ | .keyUnwrapDone _ _ | .cipherJobDone _ | .knownAnswerTest _ _ | .katRetest _ _
  | .cipherAlarm _ _ | .alarmRecovery _ | .lysWait _ _ _ | .lysPoll _ _ _ | .lysSignal _ _ _ _ | .lysTimer _ _ | .lysEvclr _ _
  | .lysChput _ _ _ _ | .lysChstat _ _ _ | .lysPktget _ _ | .lysPktput _ _ _ _ | .lysPktnew _ _ | .lysTstart _ _ _ _ | .lysTstop _ _ _
  | .lysTread _ _ _ _ | .lysByrebind _ _ _ _ | .threadWake _ | .signalDelivery _ | .evTimer _ _ | .lookupDone _ _ | .chBusyTimeout _
  | .stallSentinel _ | .engineTimer _ _ | .engineReset _ _ | .engineAutoRestart _ | .engRun _ | .engCtrlReset _ | .csCheck _
  | .csCheckDone _ | .quiesce _ | .control _ | .engCsDataWrite _ _ | .engCsDataRead _ | .engCsAddrWrite _ _ | .csReload _ _
  | .partVerified _ _ _ | .mainPwrgdRise | .porNPulse _ _ | .hrtCpStatus _ | .readyTimeout _ | .pplRelease _ _ | .recoveryLoader _ _
  | .mainPwrgdFall | .stbyPwrgdFall | .pwrHoldupN | .refclkLoss _ | .powerWindow _ | .slewDone | .hearthRestart _ | .ledgerWrite _
  | .challengeGet _ | .lcTransition _ _ _ | .ownerLockSet _ _ | .kikInstall _ _ | .boardDataSet _ _ | .rootRevoke _ _ | .capSet _ _
  | .ledgerGet _ _ | .fnAbortReq _ _ | .statusGet _ | .updateCommitReq _ _ | .setEndpointId _ _ | .requestUpdate _
  | .passComponentTable _ _ | .updateComponent _ _ _ _ _ | .requestFirmwareData _ _ _ _ _ | .activateFirmware _ _ _ | .cancelUpdate _ _
  | .getStatus _ | .getTid _ | .getPldmVersion _ _ | .getPldmTypes _ | .getPldmCommands _ _ | .getSensorReading _ _
  | .getStateSensorReadings _ _ | .getPdr _ _ | .getPdrRepositoryInfo _ | .setNumericSensorEnable _ _ _ | .getVersion _
  | .getCapabilities _ _ | .negotiateAlgorithms _ _ _ | .getDigests _ | .getCertificate _ _ _ _ | .chunkGet _ _ | .bucketLeak _ _
  | .hbmMigrationDone _ _ | .d2dLinkLoss _ | .splitDeclare _ | .rejoin _ | .halfUnhealthy _ | .halfReset _ _ | .datapathReset _
  | .deviceWarm | .d2dLaneLoss _ _ _ _ | .d2dLinkReturn _ _ | .refclkReturn _ _ _ | .holdupDeassert | .ppsEdge _ | .secondStageWatchdog
  | .avsTargetRetry _ _ | .debugPortAccess _ _ | .i3cDynamicAddress _ | .mctpControlMessage _ _ => true

end Sys2Proof
end

