-- ==== Sys2Proof/Safety.lean ====
section
/-! DEFINITION. What counts as a safe run, and the words the statements use: completion, the canonical form of the flash, the fields of the
state and frames over them, requests that wait and pass, conditions that hold. -/

namespace Sys2Proof.Machine

open Sys2Proof

/-! ## Runs -/

/-- A step answers a next state. -/
def Completes (s : State) : Prop := ∃ t, step s = .next t

/-- The flash keeps its one form: rising addresses, and no byte listed that reads as erased (R449). -/
abbrev FlashOk (s : State) : Prop := Mem.wf 0xFF s.boot.flash = true

/-! ## Frames -/

/-- The fields of the state but for the selector of free values and the queue. -/
inductive Field where
  | clock | hif | links | fns | res | tickets | cpW | cpE | rings | work | net | rel | ledger | sets | lrd | cry | off | micro | boot | upd
  | power | mgmt | stats | out
  deriving DecidableEq, Repr

/-- A field is the same in two states. -/
def SameField (s t : State) : Field → Prop
  | .clock => t.clock = s.clock
  | .hif => t.hif = s.hif
  | .links => t.links = s.links
  | .fns => t.fns = s.fns
  | .res => t.res = s.res
  | .tickets => t.tickets = s.tickets
  | .cpW => t.cpW = s.cpW
  | .cpE => t.cpE = s.cpE
  | .rings => t.rings = s.rings
  | .work => t.work = s.work
  | .net => t.net = s.net
  | .rel => t.rel = s.rel
  | .ledger => t.ledger = s.ledger
  | .sets => t.sets = s.sets
  | .lrd => t.lrd = s.lrd
  | .cry => t.cry = s.cry
  | .off => t.off = s.off
  | .micro => t.micro = s.micro
  | .boot => t.boot = s.boot
  | .upd => t.upd = s.upd
  | .power => t.power = s.power
  | .mgmt => t.mgmt = s.mgmt
  | .stats => t.stats = s.stats
  | .out => t.out = s.out

/-- Nothing but the listed fields differs. -/
def OnlyIn (ps : List Field) (s t : State) : Prop := ∀ p, p ∉ ps → SameField s t p

/-! ## Rows that may be cut off (R466, R472, R493) -/

/-- The rows that write the flash or the fuses, by what cuts them off. -/
def cuttable (f : Fid) (k : Fin 7) (b : Binding) (d : Bytes) (ok : Bool) (n : Nat) (size stamp : BitVec 32) (component : BitVec 16)
    (read : Option Nat) (bad : List (Fin 2 × Nat × Nat)) : List (Option (Nat × Cut) → Instr) :=
  [fun c => .updateBegin f c, fun c => .updateStage f ok n c, fun c => .updateArm f c, fun c => .updateCommit f c, fun c => .updateCancel f c,
   fun c => .firstStage ok bad c, fun c => .partVerified k read c, fun c => .recoveryLoader d c, fun c => .lcTransition b d c,
   fun c => .updateCommitReq b c, fun c => .updateComponent b size stamp component c, fun c => .requestFirmwareData b d ok n c,
   fun c => .activateFirmware b ok c, fun c => .cancelUpdate b c]

/-! ## Mailbox requests (R73, R78) -/

/-- None of a list of checks fails. -/
abbrev Fits (cs : List (Bool × Nat × Nat)) : Prop := firstFail cs = none

/-- A request with this payload waits for the function and is the next to run (R78), its opcode is the row's, and it passes steps 1 to 5 of R73. -/
abbrev Passes (c : CmdSpec) (s : State) (fid : Nat) (r : Req) (p : Bytes) : Prop :=
  (s.fn fid).req = some r ∧ r.payload = p ∧ r.opcode = c.op ∧ s.mailboxHeld fid = false ∧ s.inTurn fid r = true ∧ s.preCheck c fid r none = none

/-- The request is answered ST_OK, with this payload, in the state that the command's effect leaves. -/
def AnsweredOk (o : Outcome) (fid : Nat) (r : Req) (payload : Bytes) (P : State → Prop) : Prop :=
  ∃ u, o = .next (u.respond fid r stOk 0 0 payload) ∧ P u

/-! ## Functions that leave ACTIVE (R50, R53 to R55) -/

/-- The function has left ACTIVE for ABORTING with a reason: when it left, no pending vectors, no hold on updates, no request in its mailbox,
and the same generation. -/
def LeftActive (s u : State) (fid reason : Nat) : Prop :=
  (u.fn fid).state = .aborting ∧ (u.fn fid).reason = reason ∧ (u.fn fid).leftAt = some s.clock.now ∧ (u.fn fid).abInProgress = true ∧
  (u.fn fid).msixPend = [] ∧ (u.fn fid).svcHold = false ∧ (u.fn fid).req = none ∧ (u.fn fid).gen = (s.fn fid).gen

/-- Where a reset that ends in DISABLED takes a function: through ABORTING if it is ACTIVE, an abort that runs goes on, every other state
leads there at once (R52). -/
def OnTheWayDown (before after : FnState) : Prop :=
  after = (if before = .active ∨ before = .aborting then .aborting else .disabled)

/-! ## Packets of the transport (R306) -/

/-- The packet `p` stands first among those of a sequencer whose tag has verified (R306, R307): `b` is its transport part, `pay` its
plaintext, and split mode does not cut it off from its endpoint (R327). -/
abbrev Taken (s : State) (seq : Nat) (p : Pkt) (b pay : Bytes) : Prop :=
  (s.net.opened.getD seq []).head? = some (p, pay) ∧ b = lrdBytes p ∧ s.lrdAcross seq b = false

/-! ## Offload threads (R377 to R416) -/

/-- A thread that has completed an instruction of `n` bytes: rd holds the value (x0 discards it), the PC is past the instruction, and
instret has advanced. -/
def Thread.past (rd : Nat) (v : BitVec 64) (n : Nat) (t : Thread) : Thread :=
  { t.setReg rd v with pc := t.pc + BitVec.ofNat 64 n, instret := t.instret + 1 }

/-- One thread is now `th`, and nothing else differs that a program can observe: no other thread, no channel, no Byre binding, no byte of
memory, no core's mode, owner or slot table, and nothing outside the offload cores. -/
def ThreadOnly (t : Nat) (th : Thread) (s u : State) : Prop :=
  u.thread t = th ∧ (∀ x, x ≠ t → u.thread x = s.thread x) ∧ u.off.chans = s.off.chans ∧ u.off.bind = s.off.bind ∧
  u.off.sharedW = s.off.sharedW ∧ u.off.sharedE = s.off.sharedE ∧
  (∀ c, (u.core c).scratch = (s.core c).scratch ∧ (u.core c).mem = (s.core c).mem ∧ (u.core c).mode = (s.core c).mode ∧
    (u.core c).owner = (s.core c).owner ∧ (u.core c).slots = (s.core c).slots ∧ (u.core c).next = (s.core c).next) ∧
  OnlyIn [.off] s u

/-- The thread may issue, and the instruction at its PC is `w`, in `n` bytes, fetched from scratch or private memory; `w` is what a
compressed instruction stands for. -/
abbrev Fetches (s : State) (t w n : Nat) : Prop :=
  s.issues t = true ∧ (s.thread t).pc.toNat % 2 = 0 ∧ fetchable (s.thread t).pc.toNat = true ∧
  ((n = 2 ∧ s.fetch16 t (s.thread t).pc.toNat % 4 ≠ 3 ∧ expandC (s.fetch16 t (s.thread t).pc.toNat) = some w) ∨
   (n = 4 ∧ s.fetch16 t (s.thread t).pc.toNat % 4 = 3 ∧ fetchable ((s.thread t).pc.toNat + 2) = true ∧
    w = s.fetch16 t (s.thread t).pc.toNat +
      65536 * ({ s with free := s.free + 1 } : State).fetch16 t ((s.thread t).pc.toNat + 2)))

end Sys2Proof.Machine
end

