-- ==== Sys2Proof/Certificates/Slice0/Obligations.lean ====
section
/-! DEFINITION. The statements for the provers: what each family of commands does, where it completes and what it leaves unchanged, and
what holds of every step. -/

open Sys2Proof Sys2Proof.Machine

/-! ## Mailbox commands -/

/-- The queries of the device group answer ST_OK with what the state holds, and change nothing but the mailbox (R84, R86, R87, R88, R127).
RESET_REQUEST schedules its reset 1 ms after the response; POWER_CAP_SET stores the cap, sets it where the boot has gone past step 8, and gives a
ticket; PORT_CONFIG gives a ticket, of an unchanged setting with no other effect, of another breakout with the new setting pending and the port's
LPs DOWN; TIME_ADJUST adjusts device time by the request's offset, frequency and STEP (R75, R89, R115, R118, R128, R171). -/
def Obligations.DeviceCommands : Prop :=
  ((∀ (fid : Fid) s r p, Passes { op := 0x0001 } s fid r p → exec (.devQuery fid) s = .next (s.respond fid r stOk 0 0 s.devInfo)) ∧
  (∀ (fid : Fid) s r p, Passes { op := 0x0003, issuer := 1 } s fid r p →
    exec (.faultQuery fid) s = .next (s.respond fid r stOk 0 0 s.faultInfo)) ∧
  (∀ (fid : Fid) s r p n v, Passes { op := 0x0004, issuer := 1, lenMin := 4, lenMax := 4 } s fid r p → le p 0 2 = n → n ≤ 189 →
    Fits (reserved p 2 2) → Tab.find n s.power.samples = some v →
    exec (.sensorRead fid) s = .next (s.respond fid r stOk 0 0
      (toLe 4 (unsigned 32 v.1) ++ toLe 1 (if n < 64 then 0 else if n < 160 then 1 else 2 + n % 2) ++ [0, 0, 0] ++ toLe 8 v.2.toNat))) ∧
  (∀ (fid : Fid) s r p, Passes { op := 0x0005, issuer := 2, east := false, lenMin := 8, lenMax := 8 } s fid r p → 1 ≤ le p 4 1 →
    le p 4 1 ≤ 63 → Fits (reserved p 5 3) →
    exec (.ledgerRead fid) s = .next (s.respond fid r stOk 0 0
      (toLe 4 (s.ledger.from_ (le p 0 4) (le p 4 1)).2 ++ [0, 0, 0, 0] ++ ((s.ledger.from_ (le p 0 4) (le p 4 1)).1).flatten))) ∧
  (∀ (fid : Fid) s r p, Passes { op := 0x0806, issuer := 1 } s fid r p →
    exec (.updateQuery fid) s = .next (s.respond fid r stOk 0 0 s.updInfo))) ∧
  ((∀ (fid : Fid) s r p, Passes { op := 0x0006, issuer := 2, east := false, lenMin := 8, lenMax := 8 } s fid r p → s.rel.split = false →
    le p 0 1 ≤ 2 → le p 1 1 ≤ 1 → (le p 0 1 = 2 → le p 2 2 ≠ 0) → Fits (reserved p 4 4) → s.hif.resetReq = none →
    exec (.resetRequest fid) s = .next
      (({ s with hif := { s.hif with resetReq := some ⟨le p 0 1, le p 1 1, le p 2 2, s.clock.now + 1000000⟩ } }).respond fid r stOk 0 0 [])) ∧
  (∀ (fid : Fid) s r p, Passes { op := 0x0007, cls := 1, issuer := 2, east := false, lenMin := 4, lenMax := 4 } s fid r p →
    (le p 0 2 = 0 ∨ (400 ≤ le p 0 2 ∧ le p 0 2 ≤ 850)) → (le p 2 1 = 1 ∨ le p 2 1 = 2) → le p 3 1 = 0 →
    ∃ u : State, exec (.powerCapSet fid) s = .next (u.issueTicket fid r .powerCap) ∧ u.power.capWait = some 0 ∧
      (s.capOn = true → u.power.capW = le p 0 2 ∧ u.power.limit = le p 2 1) ∧
      (s.capOn = false → u.power = { s.power with capWait := some 0 }) ∧ OnlyIn [.power, .sets, .boot] s u ∧
      u.sets = (s.putSetting (.cap (le p 0 2) (le p 2 1))).sets ∧ u.boot = (s.putSetting (.cap (le p 0 2) (le p 2 1))).boot) ∧
  (∀ (fid : Fid) s r p, Passes { op := 0x0601, cls := 2, issuer := 2, east := false, lenMin := 8, lenMax := 8 } s fid r p →
    s.rel.split = false → le p 0 1 ≤ 15 → le p 1 1 ≤ 3 → le p 2 1 = 1 → le p 3 1 ≤ 1 → Fits (reserved p 4 4) →
    s.objBusy (.port (le p 0 1)) = false → (s.np (le p 0 1)).breakout = le p 1 1 → (s.np (le p 0 1)).enable = (le p 3 1 == 1) →
    exec (.portConfig fid) s = .next (s.issueTicket fid r (.portConfig (le p 0 1) (le p 1 1) 1 (le p 3 1 == 1)))) ∧
  (∀ (fid : Fid) s r p, Passes { op := 0x0601, cls := 2, issuer := 2, east := false, lenMin := 8, lenMax := 8 } s fid r p →
    s.rel.split = false → le p 0 1 ≤ 15 → le p 1 1 ≤ 3 → le p 2 1 = 1 → le p 3 1 ≤ 1 → Fits (reserved p 4 4) →
    s.objBusy (.port (le p 0 1)) = false → (s.np (le p 0 1)).breakout ≠ le p 1 1 →
    ∃ u : State, exec (.portConfig fid) s = .next (u.issueTicket fid r (.portConfig (le p 0 1) (le p 1 1) 1 (le p 3 1 == 1))) ∧
      (u.np (le p 0 1)).pend = some ⟨le p 1 1, le p 3 1 == 1⟩ ∧
      ∀ lp ∈ lpsOf (le p 0 1) (s.np (le p 0 1)).breakout, (u.lp lp).state = .down) ∧
  (∀ (fid : Fid) s r p, Passes { op := 0x0604, issuer := 2, east := false, lenMin := 16, lenMax := 16 } s fid r p →
    le p 12 1 ≤ 1 → Fits (reserved p 13 3) → -500000 ≤ signed 32 (le p 8 4) → signed 32 (le p 8 4) ≤ 500000 →
    (le p 12 1 = 1 ∨ (-100000000 ≤ signed 64 (le p 0 8) ∧ signed 64 (le p 0 8) ≤ 100000000)) →
    exec (.timeAdjust fid) s = .next
      ((s.timeAdjust (signed 64 (le p 0 8)) (signed 32 (le p 8 4)) (le p 12 1 == 1)).respond fid r stOk 0 0 [])))

/-- TICKET_QUERY answers a ticket of its own, with the result of one that is done, and releases it where the request asks (R76, R85). PORT_QUERY,
STATS_READ, FN_QUERY, RING_QUERY, KEY_QUERY and TABLE_LOOKUP answer ST_OK with what the state holds, and change nothing but the mailbox (R92, R96,
R101, R112, R116, R117). -/
def Obligations.Queries : Prop :=
  (∀ (fid : Fid) s r p t, Passes { op := 0x0002, lenMin := 8, lenMax := 8 } s fid r p → le p 4 1 ≤ 1 → Fits (reserved p 5 3) →
    Tab.find (ticketKey fid (le p 0 4)) s.tickets = some t → t.done = true →
    exec (.ticketQuery fid) s = .next
      (({ s with tickets := if le p 4 1 = 1 then Tab.del (ticketKey fid (le p 0 4)) s.tickets else s.tickets }).respond fid r stOk 0 0
        ([1, 0] ++ toLe 2 t.opcode ++ toLe 2 t.status ++ toLe 2 t.detail ++ toLe 8 t.cookie.toNat ++ t.result))) ∧
  ((∀ (fid : Fid) s r p, Passes { op := 0x0602, lenMin := 4, lenMax := 4 } s fid r p → s.rel.split = false → le p 0 1 ≤ 127 →
    Fits (reserved p 1 3) → s.lpExists (le p 0 1) = true → s.objBusy (.port (le p 0 1 / 8)) = false →
    exec (.portQuery fid) s = .next (s.respond fid r stOk 0 0 (s.portInfo (le p 0 1)))) ∧
  (∀ (fid : Fid) s r p, Passes { op := 0x0603, lenMin := 8, lenMax := 8 } s fid r p → (s.fn fid).priv = .infra → le p 0 1 ≤ 4 →
    le p 1 1 = 0 → le p 2 2 ≤ statMax (le p 0 1) → 1 ≤ le p 6 2 → le p 6 2 ≤ 504 → s.rel.split = false →
    (le p 0 1 = 0 → s.objBusy (.function (le p 2 2)) = false) → (le p 0 1 = 1 → s.objBusy (.port (le p 2 2 / 8)) = false) →
    exec (.statsRead fid) s = .next (s.respond fid r stOk 0 0
      (toLe 8 s.devNow.toNat ++ ((List.range (le p 6 2)).map (fun k => toLe 8 (s.counter (le p 0 1) (le p 2 2) (le p 4 2 + k)))).flatten))) ∧
  (∀ (fid : Fid) s r p, Passes { op := 0x0103, lenMin := 4, lenMax := 4 } s fid r p → s.rel.split = false → le p 0 2 = 0xFFFF →
    Fits (reserved p 2 2) → s.fidOk fid = true → s.objBusy (.function fid) = false → exec (.fnQuery fid) s = .next (s.respond fid r stOk 0 0 (s.fnInfo fid))) ∧
  (∀ (fid : Fid) s r p x, Passes { op := 0x0204, lenMin := 8, lenMax := 8 } s fid r p → s.rel.split = false → le p 0 4 ≤ 262143 →
    le p 4 1 ≤ 2 → Fits (reserved p 5 3) → s.ring (ringOfReq p) = some x → s.ownsOr fid x.fid = true → s.objBusy (.ring (ringOfReq p)) = false →
    exec (.ringQuery fid) s = .next (s.respond fid r stOk 0 0
      (toLe 1 x.state.code ++ toLe 1 x.error ++ toLe 2 (if kindOfKey (ringOfReq p) = 1 then s.heldFor x.fid (numOfKey (ringOfReq p)) else 0) ++
        toLe 4 x.seen.toNat ++ toLe 4 x.dev.toNat ++ [0, 0, 0, 0]))) ∧
  (∀ (fid : Fid) s r p k, Passes { op := 0x0503, lenMin := 4, lenMax := 4 } s fid r p → s.rel.split = false →
    Fits (s.handleChecks (s.ownsOr fid) (le p 0 4) 0) → s.keyOf (handleSlot (le p 0 4)) = some k →
    exec (.keyQuery fid) s = .next (s.respond fid r stOk 0 0
      (toLe 8 k.used ++ toLe 8 k.limit ++ toLe 1 (b2n !k.fresh) ++ toLe 1 k.alg ++ List.replicate 6 0))) ∧
  (∀ (fid : Fid) s r p, Passes { op := 0x0306, issuer := 2, lenMin := 40, lenMax := 40 } s fid r p → s.rel.split = false →
    Fits (s.tableBad p true true) →
    exec (.tableLookup fid) s = .next (s.respond fid r stOk 0 0
      (s.lookupBytes (le p 2 1) (((maskBits 16 (le p 0 2)).head?).getD 0) (halfOfFid fid) (slice p 8 32)))))

/-- FN_CREATE takes an IDLE or ABORTED VF whose quarantine is over to ACTIVE with the grant asked for and the next generation; one whose quarantine
is not over gets a ticket. FN_DESTROY begins the abort of an ACTIVE VF with the goal IDLE and gives a ticket. HP_GRANT_SET, INFRA_LIST_SET and
SERVICE_HOLD store their setting and change nothing else but the settings store (R45, R52, R90, R91, R92, R93, R94). -/
def Obligations.FunctionCommands : Prop :=
  (∀ (fid : Fid) s r p t, Passes { op := 0x0101, cls := 1, issuer := 1, east := false, lenMin := 48, lenMax := 48 } s fid r p →
    s.rel.split = false → le p 0 2 = t → s.mayActOn fid t = true → s.fidOk t = true → s.isPf t = false → Fits (grantBad p) →
    Fits (reserved p 36 12) → s.objBusy (.function t) = false → ((s.fn t).state = .idle ∨ (s.fn t).state = .aborted) →
    Fits (overGrant (s.linkGrant (s.linkOf t)) (reqGrant p :: s.otherGrants t) stQuota) → s.quarantineOver t = true →
    AnsweredOk (exec (.fnCreate fid) s) fid r (toLe 2 t ++ toLe 1 (nextGen (s.fn t).gen).toNat ++ List.replicate 5 0) (fun u =>
      (u.fn t).state = .active ∧ (u.fn t).gen = nextGen (s.fn t).gen ∧ (u.fn t).grant = some (reqGrant p) ∧ OnlyIn [.fns, .res, .stats] s u ∧
      ∀ g, g ≠ t → u.fn g = s.fn g)) ∧
  (∀ (fid : Fid) s r p t, Passes { op := 0x0101, cls := 1, issuer := 1, east := false, lenMin := 48, lenMax := 48 } s fid r p →
    s.rel.split = false → le p 0 2 = t → s.mayActOn fid t = true → s.fidOk t = true → s.isPf t = false → Fits (grantBad p) →
    Fits (reserved p 36 12) → s.objBusy (.function t) = false → ((s.fn t).state = .idle ∨ (s.fn t).state = .aborted) →
    Fits (overGrant (s.linkGrant (s.linkOf t)) (reqGrant p :: s.otherGrants t) stQuota) → s.quarantineOver t = false →
    exec (.fnCreate fid) s = .next ((s.quarantine t .active).issueTicket fid r (.fnCreate t ((s.fn t).state == .idle) (reqGrant p)))) ∧
  (∀ (fid : Fid) s r p t, Passes { op := 0x0102, cls := 1, issuer := 1, east := false, lenMin := 4, lenMax := 4 } s fid r p →
    s.rel.split = false → le p 0 2 = t → s.mayActOn fid t = true → s.fidOk t = true → s.isPf t = false → le p 3 1 = 0 →
    s.objBusy (.function t) = false → le p 2 1 = (s.fn t).gen.toNat → (s.fn t).state = .active →
    exec (.fnDestroy fid) s = .next ((s.beginAbort t 2 .idle).issueTicket fid r (.fnDestroy t))) ∧
  (∀ (fid : Fid) s r p l, Passes { op := 0x0104, issuer := 2, east := false, lenMin := 36, lenMax := 36 } s fid r p → s.rel.split = false →
    le p 0 1 ≤ 7 → (le p 1 1 = 0 ∨ (le p 1 1 = 1 ∧ s.bif (le p 0 1) = true)) → l = 2 * le p 0 1 + le p 1 1 → Fits (grantBad p) →
    Fits (overGrant (reqGrant p) (s.grantsOn l) stBusy) → s.bufOfHalf (le p 0 1 / 4) l (reqGrant p) ≤ 20480 →
    AnsweredOk (exec (.hpGrantSet fid) s) fid r [] (fun u => u.hif = { s.hif with grants := Tab.set l (reqGrant p) s.hif.grants } ∧ OnlyIn [.hif, .sets, .boot] s u)) ∧
  (∀ (fid : Fid) s r p, Passes { op := 0x0105, issuer := 2, east := false, lenMin := 4, lenMax := 4 } s fid r p → le p 0 2 ≠ 0 →
    (∀ h, h < 8 → bit (le p 0 2) (2 * h + 1) = true → s.bif h = true) → Fits (reserved p 2 2) →
    AnsweredOk (exec (.infraListSet fid) s) fid r [] (fun u => u.hif = { s.hif with infra := le p 0 2 } ∧ OnlyIn [.hif, .sets, .boot] s u)) ∧
  (∀ (fid : Fid) s r p, Passes { op := 0x0106, issuer := 1, east := false, lenMin := 4, lenMax := 4 } s fid r p → le p 0 1 ≤ 1 →
    Fits (reserved p 1 3) →
    exec (.serviceHold fid) s = .next ((s.modFn fid (fun f => { f with svcHold := le p 0 1 == 1 })).respond fid r stOk 0 0 []))

/-- RING_CREATE makes a ring with the request's fields at the lowest free number of the function's port and writes the device's half of its index
block (the number chosen is the model's choice, log entry 12), for an SQ whose CQ holds no completions, and tells an INFRA PF that makes its EQ of
the update state (log entry 142); RING_DESTROY removes an EQ that nothing uses; RING_RESET takes a CQ or EQ from ERROR to RUNNING, clears its error
and writes its index block; RING_MODIFY of an SQ sets the WEIGHT and BURST that apply from the next arbitration round (R95, R96, R97, R130, R140).
-/
def Obligations.RingCommands : Prop :=
  (∀ (fid : Fid) s r p n, Passes { op := 0x0201, lenMin := 32, lenMax := 32 } s fid r p → s.rel.split = false → Fits (s.ringFieldsBad fid p) →
    (le p 0 1 = 0 → le p 25 1 ≤ (s.quotaOf fid).maxClass) → (le p 0 1 ≠ 2 → s.owned (ringKey (le p 0 1 + 1) (le p 4 4)) fid = true) →
    s.ringCount (le p 0 1) fid < (ringQuota (le p 0 1) (s.quotaOf fid)).1 → s.freeRing (le p 0 1) (hpOf fid) = some n →
    (le p 0 1 = 0 → s.cqHolding (le p 4 4) = false) →
    exec (.ringCreate fid) s = .next
      ((((s.setRing (ringKey (le p 0 1) n) (s.newRing fid p)).dmaWrite fid (BitVec.ofNat 64 (le p 16 8) + 32)
        (toLe 4 0 ++ [0, 0] ++ toLe 2 (if le p 0 1 = 1 then s.heldFor fid n else 0) ++ List.replicate 24 0)).when (le p 0 1 = 2)
          (State.tellUpdate fid)).respond fid r stOk 0 0 (toLe 4 n ++ [0, 0, 0, 0]))) ∧
  (∀ (fid : Fid) s r p x, Passes { op := 0x0202, cls := 1, lenMin := 8, lenMax := 8 } s fid r p → s.rel.split = false → le p 0 4 ≤ 262143 →
    le p 4 1 = 2 → Fits (reserved p 5 3) → s.ring (ringOfReq p) = some x → s.ownsOr fid x.fid = true →
    s.objBusy (.ring (ringOfReq p)) = false → s.ringUsed (ringOfReq p) = false →
    exec (.ringDestroy fid) s = .next
      (({ s with rings := Tab.del (ringOfReq p) s.rings, work := Tab.del (ringOfReq p) s.work } : State).respond fid r stOk 0 0 [])) ∧
  (∀ (fid : Fid) s r p x, Passes { op := 0x0205, lenMin := 8, lenMax := 8 } s fid r p → s.rel.split = false → le p 0 4 ≤ 262143 →
    (le p 4 1 = 1 ∨ le p 4 1 = 2) → Fits (reserved p 5 3) → s.ring (ringOfReq p) = some x → s.ownsOr fid x.fid = true →
    s.objBusy (.ring (ringOfReq p)) = false → x.state = .error →
    exec (.ringReset fid) s = .next
      (((s.setRing (ringOfReq p) { x with state := .running, error := 0 }).idxWrite (ringOfReq p)).respond fid r stOk 0 0 [])) ∧
  (∀ (fid : Fid) s r p x, Passes { op := 0x0203, lenMin := 16, lenMax := 16 } s fid r p → s.rel.split = false → le p 0 4 ≤ 262143 →
    le p 4 1 = 0 → le p 5 1 = 1 → 1 ≤ le p 6 1 → 1 ≤ le p 7 1 → le p 7 1 ≤ 64 → Fits (reserved p 12 4) → s.ring (ringOfReq p) = some x →
    s.ownsOr fid x.fid = true → s.objBusy (.ring (ringOfReq p)) = false →
    exec (.ringModify fid) s = .next
      ((s.setRing (ringOfReq p) { x with arbNext := some (le p 6 1, le p 7 1) }).respond fid r stOk 0 0 []))

/-- The commands of the pipelines take effect on the pipelines they name: PIPE_CONFIG of fixed-parse mode sets what the request gives and leaves the
tables as they are; RULE_INSERT of an ingress rule of an INFRA issuer puts it behind the rules that come before it in search order; RULE_DELETE
takes a rule out; QUEUE_SET of a class other than 7 sets the queue's weight and share; SPREAD_SET replaces a group's threads (R98, R99, R100, R102,
R103, R231, R233, R265). -/
def Obligations.PipelineCommands : Prop :=
  (∀ (fid : Fid) s r p, Passes { op := 0x0301, cls := 1, issuer := 2, east := false, lenMin := 32, lenMax := 32 } s fid r p →
    s.rel.split = false → le p 0 1 ≤ 15 → le p 1 1 = 0 → le p 2 1 ≤ 15 → le p 3 1 % 4 ≠ 3 → le p 3 1 ≤ 127 → Fits (actionBad false (slice p 4 16) 4) →
    (aVerb (slice p 4 16) = 0 → aKind (slice p 4 16) ≠ 3) →
    (s.actionBusy (slice p 4 16)).1 = false → le p 20 4 = 0x80000000 → Fits (reserved p 26 6) → (s.pipe (le p 0 1)).recFifo = [] →
    exec (.pipeConfig fid) s = .next ((s.modPipe (le p 0 1) (Pipe.configure p s.clock.dev)).respond fid r stOk 0 0 []) ∧
    ∀ q, ((Pipe.configure p s.clock.dev q).deep = false ∧ (Pipe.configure p s.clock.dev q).malAct.toNat = le p 3 1 ∧
      (Pipe.configure p s.clock.dev q).miss = slice p 4 16 ∧ (Pipe.configure p s.clock.dev q).noLearn = true ∧
      (Pipe.configure p s.clock.dev q).agingMs = le p 24 2 ∧ (Pipe.configure p s.clock.dev q).ways = q.ways ∧
      (Pipe.configure p s.clock.dev q).stash = q.stash)) ∧
  (∀ (fid : Fid) s r p, Passes { op := 0x0302, east := false, lenMin := 152, lenMax := 152 } s fid r p → s.rel.split = false →
    (s.fn fid).priv = .infra → le p 0 2 ≠ 0 → le p 2 1 = 0 → le p 3 1 = 0 → Fits (reserved p 6 2) → Fits (actionBad false (slice p 136 16) 136) →
    (s.actionBusy (slice p 136 16)).1 = false →
    s.ruleEntries fid + maskSize (le p 0 2) ≤ (s.quotaOf fid).rule → s.net.ruleSerial ≤ 0xFFFFFF → s.fullTcam (le p 0 2) false = none →
    AnsweredOk (exec (.ruleInsert fid) s) fid r (toLe 4 (BitVec.ofNat 32 (s.net.ruleSerial * 256 + (s.fn fid).gen.toNat)).toNat) (fun u =>
      ∃ x : Rule, u.net.rules = insertRule x s.net.rules ∧ x.id = BitVec.ofNat 32 (s.net.ruleSerial * 256 + (s.fn fid).gen.toNat) ∧
        x.egress = false ∧ x.priv = .infra ∧ x.fid = fid ∧ x.gen = (s.fn fid).gen ∧ x.mask = le p 0 2 ∧ x.prio = le p 4 2 ∧
        x.key = slice p 8 64 ∧ x.kmask = slice p 72 64 ∧ x.action = slice p 136 16 ∧ OnlyIn [.net] s u)) ∧
  (∀ (fid : Fid) s r p x, Passes { op := 0x0303, east := false, lenMin := 4, lenMax := 4 } s fid r p → s.rel.split = false →
    s.net.rules.find? (fun x => x.id.toNat == le p 0 4 && s.ownsOr fid x.fid) = some x →
    exec (.ruleDelete fid) s = .next
      (({ s with net := { s.net with rules := s.net.rules.filter (fun y => y.id != x.id) } }).respond fid r stOk 0 0 [])) ∧
  (∀ (fid : Fid) s r p, Passes { op := 0x0307, issuer := 2, east := false, lenMin := 16, lenMax := 16 } s fid r p → s.rel.split = false →
    le p 0 1 ≤ 127 → le p 1 1 < 7 → le p 2 1 ≠ 0 → le p 3 1 = 0 → le p 4 4 % 64 = 0 → le p 8 2 = 0 → Fits (reserved p 10 6) →
    s.lpExists (le p 0 1) = true → s.objBusy (.port (le p 0 1 / 8)) = false →
    s.portShares (le p 0 1 / 8) (le p 0 1 * 8 + le p 1 1) + le p 4 4 ≤ 4096 →
    exec (.queueSet fid) s = .next ((s.modEgq (le p 0 1 * 8 + le p 1 1) (fun q => { q with
      weight := le p 2 1, shareKib := some (le p 4 4), permille := q.permille })).respond fid r stOk 0 0 [])) ∧
  (∀ (fid : Fid) s r p n ts, Passes { op := 0x0308, issuer := 2, east := false, lenMin := 136, lenMax := 136 } s fid r p →
    s.rel.split = false → le p 0 2 ≤ 1023 → le p 2 1 = n → 1 ≤ n → n ≤ 64 → Fits (reserved p 3 5) →
    ts = (List.range n).map (fun i => le p (8 + 2 * i) 2) → (∀ t ∈ ts, t ≤ 2047) → (∀ i, n ≤ i → i < 64 → le p (8 + 2 * i) 2 = 0) →
    exec (.spreadSet fid) s = .next
      (((s.modSpread (le p 0 2) (fun x => { x with defined := true, threads := ts, rot := 0 })).each State.coreTidy
        (((s.spread (le p 0 2)).threads ++ ts).map coreOf)).respond fid r stOk 0 0 []))

/-- TABLE_INSERT into the host route table puts a new entry into both halves' copies, TABLE_DELETE takes an entry out of them; TABLE_INSERT of a new
exact-match entry that one pipeline has room for puts it there, records it and answers the pipeline's bit; TABLE_DELETE of a key that one pipeline
does not hold answers that it found it in none (R101, R245, R254). -/
def Obligations.TableCommands : Prop :=
  (∀ (fid : Fid) s r p e, Passes { op := 0x0304, issuer := 2, east := false, lenMin := 40, lenMax := 40 } s fid r p → s.rel.split = false →
    slice p 8 32 = e → Fits (s.tableBad p false false) → le p 2 1 = 1 → s.net.routesW.any (fun x => routeKey x == routeKey e) = false →
    s.net.routesW.countP (fun x => Config.routeBucket (routeKey x) == Config.routeBucket (routeKey e)) < 8 →
    AnsweredOk (exec (.tableInsert fid) s) fid r [0, 0, 0, 0] (fun u =>
      u.net.routesW = routeDel (routeKey e) s.net.routesW ++ [e] ∧ u.net.routesE = routeDel (routeKey e) s.net.routesE ++ [e] ∧
      OnlyIn [.net] s u)) ∧
  (∀ (fid : Fid) s r p k, Passes { op := 0x0305, issuer := 2, east := false, lenMin := 40, lenMax := 40 } s fid r p → s.rel.split = false →
    routeKey (slice p 8 32) = k → Fits (s.tableBad p true false) → le p 2 1 = 1 → s.net.routesW.any (fun x => routeKey x == k) = true →
    AnsweredOk (exec (.tableDelete fid) s) fid r [0, 0, 0, 0] (fun u =>
      u.net.routesW = routeDel k s.net.routesW ∧ u.net.routesE = routeDel k s.net.routesE ∧ OnlyIn [.net] s u)) ∧
  (∀ (fid : Fid) s r p e n, Passes { op := 0x0304, issuer := 2, east := false, lenMin := 40, lenMax := 40 } s fid r p → s.rel.split = false →
    putBytes (slice p 8 32) 1 (toLe 1 (b2n (emStatic (slice p 8 32)))) = e → Fits (s.tableBad p false false) → le p 2 1 = 0 → n < 16 →
    maskBits 16 (le p 0 2) = [n] → (emKind e = 2 → s.objBusy (.ring (sqKey (emDest e))) = false) →
    (emKind e = 1 → s.objBusy (.port (emDest e / 8)) = false) → (s.pipe n).find (emKeyBytes e) = none →
    ((s.pipe n).insertNew { bytes := e, cmd := true }).full = false →
    exec (.tableInsert fid) s = .next
      (((s.emApply n ((s.pipe n).insertNew { bytes := e, cmd := true })).emRecord n e).respond fid r stOk 0 0 (toLe 2 (2 ^ n) ++ toLe 2 0))) ∧
  (∀ (fid : Fid) s r p n, Passes { op := 0x0305, issuer := 2, east := false, lenMin := 40, lenMax := 40 } s fid r p → s.rel.split = false →
    Fits (s.tableBad p true false) → le p 2 1 = 0 → maskBits 16 (le p 0 2) = [n] → (s.pipe n).find (emKeyBytes (slice p 8 32)) = none →
    AnsweredOk (exec (.tableDelete fid) s) fid r [0, 0, 0, 0] (fun u => ∀ m, u.pipe m = s.pipe m))

/-- The commands of the transport take effect: LRD_CONFIG, the first key of a domain under TD_KEY_SET, EP_BACKING_SET, EP_CREATE, EP_DESTROY of an
endpoint with nothing outstanding, MR_REGISTER, MR_DEREGISTER (R104 to R110, R285). That the lowest free number is given, and that a window index
begins at generation 1, is the model's choice (log entries 12 and 129). -/
def Obligations.TransportCommands : Prop :=
  (∀ (fid : Fid) s r p, Passes { op := 0x0401, issuer := 2, east := false, lenMin := 16, lenMax := 16 } s fid r p → le p 0 4 ≠ 0 →
    le p 0 4 ≠ 0xFFFFFFFF → 100 ≤ le p 4 2 → le p 4 2 ≤ 1500 → Fits (reserved p 6 2) → Fits (reserved p 12 4) →
    (le p 0 4 = s.lrd.nodeId ∨ s.lrd.eps = []) →
    exec (.lrdConfig fid) s = .next
      ((s.modLrd (fun l => { l with nodeId := le p 0 4, lifeUs := le p 4 2, target := le p 8 4 })).respond fid r stOk 0 0 [])) ∧
  (∀ (fid : Fid) s r p, Passes { op := 0x0402, issuer := 2, east := false, lenMin := 72, lenMax := 72 } s fid r p → s.rel.split = false →
    le p 0 2 ≤ 4095 → (s.td 0 (le p 0 2)).cur = none → (s.td 0 (le p 0 2)).switchAt = none → le p 4 1 = 0 → Fits (reserved p 5 3) →
    Fits (reserved p 40 32) → 1 ≤ s.boot.lc → s.boot.lc ≤ 3 → s.cry.state = .ready →
    exec (.tdKeySet fid) s = .next ((s.tdInstall (le p 0 2) ⟨le p 2 2, slice p 8 32⟩ [0, 1]).respond fid r stOk 0 0 [])) ∧
  (∀ (fid : Fid) s r p, Passes { op := 0x0403, lenMin := 16, lenMax := 16 } s fid r p → le p 0 8 % 4096 = 0 →
    ((s.quotaOf fid).ep * 256 + 1023) / 1024 ≤ le p 8 4 → Fits (reserved p 12 4) → (s.resOf fid).backing = none →
    exec (.epBackingSet fid) s = .next
      ((s.modRes fid (fun x => { x with backing := some (BitVec.ofNat 64 (le p 0 8), le p 8 4) })).respond fid r stOk 0 0 [])) ∧
  (∀ (fid : Fid) s r p n q, Passes { op := 0x0404, lenMin := 12, lenMax := 12 } s fid r p → s.rel.split = false → le p 0 2 ≤ 4095 →
    1 ≤ le p 2 2 → le p 2 2 ≤ 4096 → le p 4 4 ≤ 262143 → le p 8 4 ≤ 262143 → (s.td 0 (le p 0 2)).cur.isSome = true →
    s.ring (sqKey (le p 4 4)) = some q → q.fid = fid → q.use = .lrd → s.owned (cqKey (le p 8 4)) fid = true →
    s.objBusy (.ring (sqKey (le p 4 4))) = false → s.epOfSq (le p 4 4) = none → (s.resOf fid).backing.isSome = true → s.lrd.nodeId ≠ 0 → s.epCount fid < (s.quotaOf fid).ep → le p 2 2 ≤ (s.quotaOf fid).msg →
    lowestFree s.epTaken (s.epRange fid).1 (s.epRange fid).2 = some n →
    exec (.epCreate fid) s = .next ((s.epMake fid n p).respond fid r stOk 0 0
      (toLe 4 n ++ toLe 2 fid ++ toLe 1 (s.fn fid).gen.toNat ++ [0] ++ toLe 4 s.lrd.nodeId))) ∧
  (∀ (fid : Fid) s r p e, Passes { op := 0x0405, cls := 1, lenMin := 4, lenMax := 4 } s fid r p → s.rel.split = false →
    s.ep (le p 0 4) = some e → s.ownsOr fid e.fid = true → s.objBusy (.ep (le p 0 4)) = false → s.epBusy (le p 0 4) = false →
    exec (.epDestroy fid) s = .next ((s.removeEp (le p 0 4)).respond fid r stOk 0 0 [])) ∧
  (∀ (fid : Fid) s r p i (w : Win), Passes { op := 0x0406, lenMin := 24, lenMax := 24 } s fid r p → s.rel.split = false → 1 ≤ le p 8 8 →
    le p 8 8 ≤ 1099511627776 → 1 ≤ le p 16 1 → le p 16 1 ≤ 3 → Fits (reserved p 17 3) → le p 20 4 = 0xFFFFF →
    s.lrd.wins.countV (fun _ w => w.live && w.fid == fid.val) < (s.quotaOf fid).mr → lowestFree s.winTaken 0 16777216 = some i →
    Tab.find i s.lrd.wins = none →
    w = { gen := 1, fid := fid, addr := le p 0 8, len := le p 8 8, access := le p 16 1, ep := none } →
    exec (.mrRegister fid) s = .next
      ((s.modLrd (fun l => { l with wins := Tab.set i w l.wins })).respond fid r stOk 0 0 (toLe 4 (i * 256 + 1)))) ∧
  (∀ (fid : Fid) s r p w (v : Win), Passes { op := 0x0407, cls := 1, lenMin := 4, lenMax := 4 } s fid r p → s.rel.split = false →
    Tab.find (le p 0 4 / 256) s.lrd.wins = some w → s.ownsOr fid w.fid = true → w.gen.toNat = le p 0 4 % 256 → w.live = true →
    v = { w with gen := nextGen w.gen, live := false, freed := some s.clock.now } →
    exec (.mrDeregister fid) s = .next
      ((s.modLrd (fun l => { l with wins := Tab.set (le p 0 4 / 256) v l.wins })).respond fid r stOk 0 0 []))

/-- KEY_LOAD of a raw key fills the lowest free slot of the port (the slot chosen is the model's choice, log entry 12) with the request's key;
KEY_DESTROY of a key that no association names and no job is about to read for zeroes the slot, and with no job queued or running under the key
advances its generation and changes nothing but the cipher engine; SA_CREATE makes an inbound association and SA_DESTROY of one with no packet in
the scheduler removes it (R111, R112, R113, R114, R339). -/
def Obligations.KeyCommands : Prop :=
  (∀ (fid : Fid) s r p n i, Passes { op := 0x0501, lenMin := 96, lenMax := 96 } s fid r p → le p 0 1 ≤ 4 → le p 1 1 = 0 → Fits (reserved p 2 2) →
    Fits (reserved p 16 16) → n = aeadKeyLen (le p 0 1) → Fits (reserved p (32 + n) (64 - n)) → 1 ≤ s.boot.lc → s.boot.lc ≤ 3 →
    s.cry.state = .ready → s.keysOf fid < (s.quotaOf fid).key → lowestFree (fun i => (s.keyOf i).isSome) (hpOf fid * 32768) 32768 = some i →
    ∃ (u : State) (h : Nat), exec (.keyLoad fid) s = .next (u.respond fid r stOk 0 0 (toLe 4 h)) ∧ h = keyHandle i (s.slot i) ∧ OnlyIn [.cry] s u ∧
      ∃ k : KeyInfo, u.keyOf i = some k ∧ k.fid = fid ∧ k.fgen = (s.fn fid).gen ∧ k.alg = le p 0 1 ∧ k.key = slice p 32 n ∧ k.used = 0 ∧
        k.limit = (if le p 8 8 = 0 then 281474976710656 else le p 8 8)) ∧
  (∀ (fid : Fid) s r p, Passes { op := 0x0502, lenMin := 4, lenMax := 4 } s fid r p → s.rel.split = false →
    Fits (s.handleChecks (s.ownsOr fid) (le p 0 4) 0) → s.cry.sas.anyV (fun _ a => a.slot == handleSlot (le p 0 4)) = false →
    s.slotTaken (handleSlot (le p 0 4)) = false → s.keyComing (handleSlot (le p 0 4)) = false →
    ∃ u : State, exec (.keyDestroy fid) s = .next (u.respond fid r stOk 0 0 []) ∧ u.keyOf (handleSlot (le p 0 4)) = none ∧
      (s.cry.cores.all (fun e => e.2.slot != handleSlot (le p 0 4)) = true →
        (s.bulkQ (halfOfSlot (handleSlot (le p 0 4)))).all (fun j => j.slot != handleSlot (le p 0 4)) = true →
        (u.slot (handleSlot (le p 0 4))).gen = nextGen (s.slot (handleSlot (le p 0 4))).gen ∧ OnlyIn [.cry] s u)) ∧
  (∀ (fid : Fid) s r p i (a : Sa), Passes { op := 0x0504, lenMin := 96, lenMax := 96 } s fid r p → s.rel.split = false → le p 0 4 ≠ 0 → le p 4 1 = 0 →
    le p 5 1 ≤ 1 → le p 6 1 = 0 → le p 7 1 = 0 → replayWins.contains (le p 12 2) = true → Fits (reserved p 14 18) →
    Fits (s.handleChecks (· == fid.val) (le p 8 4) 8) → s.cry.state = .ready →
    s.cry.sas.anyV (fun _ a => a.fid == fid.val && !a.out && a.spi == le p 0 4) = false → s.keysOf fid < (s.quotaOf fid).key →
    lowestFree (fun i => (s.sa i).isSome) (hpOf fid * 16384) 16384 = some i →
    a = { fid := fid, spi := le p 0 4, out := false, tunnel := le p 5 1 == 1, esn := false, hdr := [], slot := handleSlot (le p 8 4), win := le p 12 2 } →
    exec (.saCreate fid) s = .next ((s.setSa i a).respond fid r stOk 0 0 (toLe 4 i))) ∧
  (∀ (fid : Fid) s r p a, Passes { op := 0x0505, lenMin := 4, lenMax := 4 } s fid r p → s.rel.split = false → s.sa (le p 0 4) = some a →
    s.ownsOr fid a.fid = true → (∀ j, InlJob.esp j ∈ s.inlQ (halfOfSlot a.slot) → j.pkt.sa ≠ some (le p 0 4)) →
    ∃ u : State, exec (.saDestroy fid) s = .next (u.respond fid r stOk 0 0 []) ∧ u.sa (le p 0 4) = none)

/-- The commands of the offload cores: CORE_LOAD of at least one byte to private memory reads the image from the issuer's memory and loads it into
the cores of the range, CORE_MODE_SET sets their mode, CORE_SLOTS_SET the table that takes effect at the next rotation, THREAD_CTRL STOP stops a
running or waiting thread, CHAN_CREATE makes a channel of a given number and CH_ABANDON drops what a halted holder had assembled and flags the
holder (R119, R120, R121, R122, R123). -/
def Obligations.CoreCommands : Prop :=
  (∀ (fid : Fid) img s r p, Passes { op := 0x0701, cls := 1, issuer := 2, east := false, lenMin := 24, lenMax := 24 } s fid r p →
    s.rel.split = false → Fits (coreRangeBad p) → Fits (reserved p 2 2) → 1 ≤ le p 4 4 → le p 4 4 ≤ 1048576 → le p 16 8 + le p 4 4 ≤ 0x40000 →
    (∀ c ∈ coreRange p, (s.core c).mode = 0 ∧ s.isRetired 7 c = false) →
    exec (.coreLoad fid (some img)) s = .next
      ((((s.issueRead fid (BitVec.ofNat 64 (le p 8 8)) (le p 4 4) .image).endRead fid .image).each
        (State.loadCore (le p 16 8) fid (slice img 0 (le p 4 4))) (coreRange p)).respond fid r stOk 0 0 [])) ∧
  (∀ (fid : Fid) s r p, Passes { op := 0x0703, cls := 1, issuer := 2, east := false, lenMin := 4, lenMax := 4 } s fid r p →
    s.rel.split = false → Fits (coreRangeBad p) → le p 2 1 ≤ 3 → le p 3 1 = 0 → (∀ c ∈ coreRange p, s.isRetired 7 c = false) →
    exec (.coreModeSet fid) s = .next ((s.each (State.setMode (le p 2 1)) (coreRange p)).respond fid r stOk 0 0 [])) ∧
  (∀ (fid : Fid) s r p c t, Passes { op := 0x0702, issuer := 2, east := false, lenMin := 68, lenMax := 68 } s fid r p → s.rel.split = false →
    le p 0 1 = c → c ≤ 127 → Fits (reserved p 1 3) → t = (slice p 4 64).map (·.toNat) → (∀ v ∈ t, v ≤ 15 ∨ v = 0xFF) → 0 ∈ t →
    s.isRetired 7 c = false →
    exec (.coreSlotsSet fid) s = .next ((s.modCore c (fun x => { x with next := some t })).respond fid r stOk 0 0 [])) ∧
  (∀ (fid : Fid) s r p, Passes { op := 0x0704, issuer := 2, lenMin := 16, lenMax := 16 } s fid r p → s.rel.split = false → le p 0 2 ≤ 2047 →
    le p 2 1 = 1 → Fits (reserved p 3 5) → ((s.thread (le p 0 2)).state = .running ∨ (s.thread (le p 0 2)).state = .waiting) →
    exec (.threadCtrl fid) s = .next ((s.quitThread (le p 0 2) .stopped).respond fid r stOk 0 0 [])) ∧
  (∀ (fid : Fid) s r p, Passes { op := 0x0705, issuer := 2, east := false, lenMin := 4, lenMax := 4 } s fid r p → s.rel.split = false →
    le p 0 2 ≤ 4095 → le p 2 2 ≤ 2047 → s.chan (le p 0 2) = none → s.isRetired 7 (coreOf (le p 2 2)) = false →
    exec (.chanCreate fid) s = .next ((s.setChan (le p 0 2) { reader := le p 2 2 }).respond fid r stOk 0 0 (toLe 2 (le p 0 2) ++ [0, 0]))) ∧
  (∀ (fid : Fid) s r p x t, Passes { op := 0x0706, issuer := 2, lenMin := 4, lenMax := 4 } s fid r p → s.rel.split = false → le p 0 2 ≤ 4095 →
    Fits (reserved p 2 2) → s.chan (le p 0 2) = some x → x.holder = some t → (s.thread t).state = .halted →
    exec (.chAbandon fid) s = .next (((s.flagThread t (le p 0 2) 3).dropPartial (le p 0 2)).respond fid r stOk 0 0 []))

/-- The update commands of a mailbox take effect where R476 lets them: a new image under UPDATE_BEGIN starts RECEIVING at offset 0 and its BEGIN
record enters the journal, UPDATE_STAGE of a piece whose pages read back takes it, UPDATE_ARM writes the arm record and goes to ARMED, UPDATE_COMMIT
to COMMITTED, UPDATE_CANCEL to IDLE (R124 to R127, R475). -/
def Obligations.UpdateCommands : Prop :=
  (∀ (fid : Fid) s r p n tag, Passes { op := 0x0801, issuer := 2, east := false, lenMin := 16, lenMax := 16 } s fid r p → le p 0 4 = n → 1 ≤ n →
    n ≤ 12582912 → Fits (reserved p 4 4) → tag = BitVec.ofNat 64 (le p 8 8) → s.beginRefusal n tag 0 = none → s.upd.state ≠ 1 →
    s.boot.flashLeft = none → s.upd.worn.contains s.upd.jpos = false →
    ∃ u : State, exec (.updateBegin fid) s = .next (u.respond fid r stOk 0 0 (toLe 4 0 ++ [1, 0, 0, 0])) ∧ u.upd.state = 1 ∧ u.upd.next = 0 ∧
      Tab.find s.upd.jpos u.upd.journal = some ({
        jseq := s.upd.jseq, type := 1, slot := s.inactive, agent := 0, tag := tag, total := n
        oldSeq := (s.eraseRecord s.inactive).runningSeq } : JRec).bytes) ∧
  (∀ (fid : Fid) s r p n, Passes { op := 0x0802, cls := 1, issuer := 2, east := false, lenMin := 16, lenMax := 4064, piece := true } s fid r p →
    le p 4 2 = n → 1 ≤ n → n ≤ 4032 → Fits (reserved p 6 10) → s.stageRefusal 0 = none → le p 0 4 = s.upd.next → s.upd.next + n ≤ s.updTotal →
    ∃ u : State, exec (.updateStage fid true) s = .next (u.respond fid r stOk 0 0 (toLe 4 u.upd.next)) ∧ u = (s.updStage (slice p 16 n) true 0).1 ∧
      u.upd.next = s.upd.next + n) ∧
  (∀ (fid : Fid) s r p, Passes { op := 0x0803, cls := 1, issuer := 2, east := false, lenMin := 4, lenMax := 4 } s fid r p →
    seqNewer (le p 0 4) s.runningSeq = true → s.armRefusal 0 = none →
    ∃ u : State, exec (.updateArm fid) s = .next (u.respond fid r stOk 0 0 []) ∧ u = s.updArm (le p 0 4) ∧ u.upd.state = 3) ∧
  (∀ (fid : Fid) s r p, Passes { op := 0x0804, cls := 1, issuer := 2, east := false } s fid r p → s.commitRefusal = none →
    ∃ u : State, exec (.updateCommit fid) s = .next (u.respond fid r stOk 0 0 []) ∧ u = s.updCommit ∧ u.upd.state = 5) ∧
  (∀ (fid : Fid) s r p, Passes { op := 0x0805, cls := 1, issuer := 2, east := false } s fid r p → (s.upd.state = 1 ∨ s.upd.state = 2 ∨ s.upd.state = 3) →
    ∃ u : State, exec (.updateCancel fid) s = .next (u.respond fid r stOk 0 0 []) ∧ u = s.updCancel ∧ u.upd.state = 0 ∧ u.upd.next = 0)

/-! ## Functions, links and aborts -/

/-- The registers that abort: FN_ABORT with the key and the generation of an ACTIVE function takes it to ABORTING with reason SELF, and FN_VF_ABORT
of a PF takes a VF of its link there with reason PF; a write that fails a condition changes nothing but FN_ERR.ABORT_IGNORED of the writer;
FN_VF_ABORT of a VF ignores writes, as log entry 48 reads R47 (R50, R53, R54). The passes of the abort sequencer: ABORT_PASS takes the ABORTING
functions of the half and requests the fence of every engine that holds work for them; FENCE_TIMEOUT resets an engine that has not met its fence for
300 µs and sets ENGINE_RESET of the functions of the pass it holds work for, and does nothing before; ABORT_PASS_DONE ends the pass, retires the
function's rings and takes a function whose abort leads nowhere else from ABORTING to ABORTED with DONE set; QUARANTINE_END takes a function whose
quarantine leads to ACTIVE there 4 ms after it left ACTIVE, and does nothing before (R45, R52, R56, R57). -/
def Obligations.Aborts : Prop :=
  ((∀ (fid : Fid) v s, bits v.toNat 48 16 = 0xAB07 → bits v.toNat 40 8 = (s.fn fid).gen.toNat → (s.fn fid).state = .active →
    ∃ u : State, exec (.fnAbort fid v) s = .next u ∧ LeftActive s u fid 1 ∧ OnlyIn [.fns, .tickets, .rings, .net, .lrd] s u) ∧
  (∀ (fid : Fid) v s, (bits v.toNat 48 16 ≠ 0xAB07 ∨ bits v.toNat 40 8 ≠ (s.fn fid).gen.toNat ∨ (s.fn fid).state ≠ .active) →
    exec (.fnAbort fid v) s = .next (s.modFn fid (fun f => { f with err := f.err ||| 2 }))) ∧
  (∀ (fid : Fid) v s t, s.isPf fid = true → t = hpOf fid * 1024 + v.toNat % 1024 → s.fidOk t = true → s.isPf t = false →
    s.linkOf t = s.linkOf fid → bits v.toNat 48 16 = 0xAB07 → bits v.toNat 40 8 = (s.fn t).gen.toNat → (s.fn t).state = .active →
    ∃ u : State, exec (.fnVfAbort fid v) s = .next u ∧ LeftActive s u t 2 ∧ OnlyIn [.fns, .tickets, .rings, .net, .lrd] s u) ∧
  (∀ (fid : Fid) v s t, s.isPf fid = true → t = hpOf fid * 1024 + v.toNat % 1024 →
    (s.fidOk t = false ∨ s.isPf t = true ∨ s.linkOf t ≠ s.linkOf fid ∨ bits v.toNat 48 16 ≠ 0xAB07 ∨ bits v.toNat 40 8 ≠ (s.fn t).gen.toNat ∨
      (s.fn t).state ≠ .active) →
    exec (.fnVfAbort fid v) s = .next (s.modFn fid (fun f => { f with err := f.err ||| 2 }))) ∧
  (∀ (fid : Fid) v s, s.isPf fid = false → exec (.fnVfAbort fid v) s = .next s)) ∧
  ((∀ (half : Half) s fids, fids = s.fns.keysWhere (fun fid f => halfOfFid fid == half.val && f.state == .aborting) → fids ≠ [] →
    s.passOf half = none →
    ∃ u : State, exec (.abortPass half) s = .next u ∧ u.passOf half = some fids ∧
      (∀ e, e ∈ s.enginesFor fids → (u.engine e).reqs.getLsbD 0 = true) ∧ (∀ e, e ∉ s.enginesFor fids → u.engine e = s.engine e) ∧
      OnlyIn [.hif, .micro] s u) ∧
  (∀ (half : Half) un dt s fids, s.passOf half = some fids → ((s.advance dt).enginesFor fids).any (s.advance dt).fenced = false →
    ∃ u : State, exec (.abortPassDone half un dt) s = .next u ∧ u.passOf half = none ∧
      ∀ fid ∈ fids, (s.fn fid).state = .aborting → (s.fn fid).goal = .none →
        (u.fn fid).state = .aborted ∧ (u.fn fid).abDone = true ∧ (u.fn fid).abInProgress = false ∧ (u.fn fid).gen = (s.fn fid).gen ∧
        ∀ k r, u.ring k = some r → r.fid ≠ fid) ∧
  (∀ (engine : EngineId) dt s fids, fids = (s.advance dt).inPass.filter ((s.advance dt).engineHolds engine) → fids ≠ [] →
    s.fenced engine = true → (s.engine engine).fenceAt + 300000 ≤ s.clock.now + dt →
    exec (.fenceTimeout engine dt) s = .next
      (((s.advance dt).each (fun fid => State.modFn fid (fun f => { f with abEngReset := true })) fids).recoverEngine engine)) ∧
  (∀ (engine : EngineId) dt s, (s.fenced engine = false ∨ s.clock.now + dt < (s.engine engine).fenceAt + 300000) →
    exec (.fenceTimeout engine dt) s = .next (s.advance dt)) ∧
  (∀ (fid : Fid) dt s t, (s.fn fid).state = .quarantine → (s.fn fid).leftAt = some t → t + 4000000 ≤ s.clock.now + dt → (s.fn fid).goal = .active →
    (s.fn fid).across = false →
    ∃ u : State, exec (.quarantineEnd fid dt) s = .next u ∧ (u.fn fid).state = .active ∧ (u.fn fid).gen = nextGen (s.fn fid).gen ∧
      OnlyIn [.clock, .fns, .res, .stats] s u) ∧
  (∀ (fid : Fid) dt s t, (s.fn fid).leftAt = some t → s.clock.now + dt < t + 4000000 →
    exec (.quarantineEnd fid dt) s = .next (s.advance dt)))

/-- Resets of functions, which are configuration writes: an FLR of an ACTIVE VF takes it to ABORTING with reason FLR on the way back to ACTIVE, one
in ABORTED whose quarantine is over goes straight to ACTIVE with the next generation, one of a VF whose abort runs sets where that abort leads, and
in every other state an FLR changes nothing; an FLR of a PF is PF_FLR, which clears VF Enable and HIF_SCRATCH, aborts an ACTIVE PF and sends every
VF of the link towards DISABLED; VF_ENABLE takes the DISABLED VFs that come to exist to IDLE; VF_DISABLE, which clears VF Enable or lowers NumVFs,
sends the VFs that cease towards DISABLED. A function that does not answer configuration requests takes none of them: before step 9 of the boot the
write is answered with a retry, on a link that is down it does not arrive (R45, R52, R53, R61, R62, R463). -/
def Obligations.FunctionResets : Prop :=
  (∀ (fid : Fid) s, s.cfgOn fid = true → s.isPf fid = false → (s.fn fid).state = .active →
    ∃ u : State, exec (.flr fid) s = .next u ∧ LeftActive s u fid 3 ∧ OnlyIn [.fns, .tickets, .rings, .net, .lrd] s u ∧
      ((∀ w ∈ s.openTickets fid, w ≠ .fnDestroy fid ∧ ∀ i g, w ≠ .fnCreate fid i g) → (u.fn fid).goal = .active)) ∧
  (∀ (fid : Fid) s, s.cfgOn fid = true → s.isPf fid = false → (s.fn fid).state = .aborted → s.quarantineOver fid = true →
    (s.fn fid).across = false →
    ∃ u : State, exec (.flr fid) s = .next u ∧ (u.fn fid).state = .active ∧ (u.fn fid).gen = nextGen (s.fn fid).gen ∧ (u.fn fid).serial = 1 ∧
      OnlyIn [.fns, .res, .stats] s u) ∧
  (∀ (fid : Fid) s, s.cfgOn fid = true → s.isPf fid = false → (s.fn fid).state = .aborting →
    exec (.flr fid) s = .next (if (s.fn fid).goal = .disabled then s else s.modFn fid (fun f => { f with goal := .active }))) ∧
  (∀ (fid : Fid) s, s.cfgOn fid = true → s.isPf fid = false →
    ((s.fn fid).state = .idle ∨ (s.fn fid).state = .quarantine ∨ (s.fn fid).state = .disabled) → exec (.flr fid) s = .next s) ∧
  (∀ (fid : Fid) (link : LinkId) s, s.isPf fid = true → s.linkOf fid = link.val → exec (.flr fid) s = exec (.pfFlr link) s) ∧
  (∀ (link : LinkId) s, s.linkOk link = true → s.cfgOn (pfOfLink link.val) = true →
    ∃ u : State, exec (.pfFlr link) s = .next u ∧ (u.link link).vfEnable = false ∧ (u.link link).numVfs = 0 ∧ (u.link link).scratch = 0 ∧
      ((s.fn (pfOfLink link.val)).state = .active → LeftActive s u (pfOfLink link.val) 3) ∧
      ∀ fid, s.linkOf fid = link.val → pfOfLink link.val < fid → (s.fn fid).state ≠ .disabled → OnTheWayDown (s.fn fid).state (u.fn fid).state) ∧
  (∀ (link : LinkId) n s, s.linkOk link = true → s.cfgOn (pfOfLink link.val) = true → n ≤ (if s.bif (link.val / 2) then 256 else 512) →
    ∃ u : State, exec (.vfEnable link n) s = .next u ∧ (u.link link).vfEnable = true ∧ (u.link link).numVfs = n ∧
      ∀ i, i < n → (s.fn (pfOfLink link.val + 1 + i)).state = .disabled → (u.fn (pfOfLink link.val + 1 + i)).state = .idle) ∧
  (∀ (link : LinkId) s, s.linkOk link = true → s.cfgOn (pfOfLink link.val) = true →
    ∃ u : State, exec (.vfDisable link 0) s = .next u ∧ (u.link link).vfEnable = false ∧ (u.link link).numVfs = 0 ∧
    ∀ fid, s.linkOf fid = link.val → pfOfLink link.val < fid → (s.fn fid).state ≠ .disabled → OnTheWayDown (s.fn fid).state (u.fn fid).state) ∧
  (∀ (link : LinkId) n s, s.linkOk link = true → s.cfgOn (pfOfLink link.val) = true → (s.link link).vfEnable = true → 0 < n →
    n ≤ (s.link link).numVfs → n ≤ (if s.bif (link.val / 2) then 256 else 512) →
    ∃ u : State, exec (.vfDisable link n) s = .next u ∧ (u.link link).vfEnable = true ∧ (u.link link).numVfs = n ∧
    ∀ fid, s.linkOf fid = link.val → pfOfLink link.val + n < fid → (s.fn fid).state ≠ .disabled →
      OnTheWayDown (s.fn fid).state (u.fn fid).state) ∧
  (∀ (link : LinkId) n s, s.linkOk link = true → s.cfgOn (pfOfLink link.val) = false →
    ∀ i ∈ [Instr.pfFlr link, .vfEnable link n, .vfDisable link n],
      exec i s = .next (if s.cfgRetry (pfOfLink link.val) then s.tlp (pfOfLink link.val) .retry else s)) ∧
  (∀ (fid : Fid) s, s.isPf fid = false → s.cfgOn fid = false → exec (.flr fid) s = .next (if s.cfgRetry fid then s.tlp fid .retry else s)) ∧
  (∀ (link : LinkId) n s, s.linkOk link = false → ∀ i ∈ [Instr.pfFlr link, .vfEnable link n, .vfDisable link n], exec i s = .next s)

/-- Link events: LINK_DOWN, HOT_RESET and PERST_ASSERT take the link down with HIF_SCRATCH and VF Enable cleared and send every function of the link
that is not DISABLED towards DISABLED, leaving functions of other links in their state; PERST_DEASSERT ends PERST, and it and a LINK_RETRAIN of a
link that is down without PERST make the link train unless its PHY is held; LINK_UP brings a training link up at a rate and width of R38, reports a
degraded one, and takes its PF to ACTIVE if that is DISABLED, its quarantine is over and the device is ready or in a trial (R38, R40, R52, R63,
R463). -/
def Obligations.LinkEvents : Prop :=
  (∀ (link : LinkId) s, ∀ i ∈ [Instr.linkDown link, .hotReset link, .perstAssert link],
    ∃ u : State, exec i s = .next u ∧ (u.link link).up = false ∧ (u.link link).training = false ∧ (u.link link).scratch = 0 ∧
      (u.link link).vfEnable = false ∧ (u.link link).numVfs = 0 ∧ ((u.link link).perst = (i == .perstAssert link || (s.link link).perst)) ∧
      (∀ fid, s.linkOf fid = link.val → (s.fn fid).state ≠ .disabled → OnTheWayDown (s.fn fid).state (u.fn fid).state) ∧
      (∀ fid, s.linkOf fid ≠ link.val → (u.fn fid).state = (s.fn fid).state ∧ (u.fn fid).gen = (s.fn fid).gen) ∧
      ∀ l, l ≠ link.val → u.link l = s.link l) ∧
  (∀ (link : LinkId) s, exec (.perstDeassert link) s = .next
    (if (s.link link).perst then s.modLink link (fun k => { k with perst := false, training := !s.phyHeld link && !k.up }) else s)) ∧
  (∀ (link : LinkId) s, exec (.linkRetrain link) s = .next
    (if (s.link link).perst || (s.link link).up then s
     else s.modLink link (fun k => { k with perst := false, training := !s.phyHeld link && !k.up }))) ∧
  (∀ (link : LinkId) (r w : Nat) d s (p : Nat), (s.link link).training = true → s.linkOk link = true → 1 ≤ r → r ≤ 3 →
    (w = 4 ∨ w = 8 ∨ w = 16 ∧ s.bif (link.val / 2) = false) → (s.hif.devState = 1 ∨ s.hif.devState = 3) →
    p = pfOfLink link.val → (s.fn p).state = .disabled → s.quarantineOver p = true → (s.fn p).across = false →
    ∃ u : State, exec (.linkUp link r w d) s = .next u ∧ (u.link link).up = true ∧ (u.link link).training = false ∧ (u.link link).rate = r ∧
      (u.link link).width = w ∧ (u.link link).err = (if d then (s.link link).err ||| 8 else (s.link link).err) ∧ (u.fn p).state = .active ∧
      (u.fn p).gen = nextGen (s.fn p).gen ∧ OnlyIn [.links, .fns, .res, .stats] s u) ∧
  (∀ (link : LinkId) (r w : Nat) d s, (s.link link).training = true → s.linkMode link r w = true →
    ((s.hif.devState ≠ 1 ∧ s.hif.devState ≠ 3) ∨ (s.fn (pfOfLink link.val)).state ≠ .disabled) →
    exec (.linkUp link r w d) s = .next (s.modLink link (fun k => { k with
      up := true, training := false, rate := r, width := w, err := if d then k.err ||| 8 else k.err }))) ∧
  (∀ (link : LinkId) (r w : Nat) d s, ((s.link link).training = false ∨ s.linkMode link r w = false) → exec (.linkUp link r w d) s = .next s)

/-- Host reads that end: a good completion, and any of an orphan, gives the tag back; a read that waits for a tag then takes one. A first ECRC
failure issues the read again under its tag; a second one, poison, UR, CA and, once the link's time is up, a completion timeout abort the ACTIVE
function with reason HOST_DMA; before that time nothing happens, and nothing does at a tag without a read; a completion that the parity of the host
port's FIFO discards is a drop for an integrity failure and leaves its read to the timeout (R38, R42, R47, R53, R56, R528, R532). -/
def Obligations.HostReadEnds : Prop :=
  (∀ (link : LinkId) (tag : BitVec 14) st s r, Tab.find tag.toNat (s.link link).reads = some r → (s.link link).readQ = [] →
    (st = .ok ∨ r.orphan = true ∧ (st = .unsupported ∨ st = .abort)) →
    exec (.hostReadCompletion link tag st) s = .next (s.modLink link (fun k => { k with reads := Tab.del tag.toNat k.reads }))) ∧
  (∀ (link : LinkId) (tag : BitVec 14) s r q qs, Tab.find tag.toNat (s.link link).reads = some r → tag.toNat < 4096 →
    (s.link link).readQ = q :: qs →
    ∃ (u : State) (t : Nat), exec (.hostReadCompletion link tag .ok) s = .next u ∧ (u.link link).readQ = qs ∧ t < 4096 ∧
      Tab.find t (u.link link).reads = some { q with issued := s.clock.now } ∧ OnlyIn [.links, .out] s u) ∧
  (∀ (link : LinkId) (tag : BitVec 14) s r, Tab.find tag.toNat (s.link link).reads = some r → r.orphan = false → r.retried = false →
    (s.fn r.fid).state = .active →
    ∃ u : State, exec (.hostReadCompletion link tag .ecrcFail) s = .next u ∧
      Tab.find tag.toNat (u.link link).reads = some { r with retried := true, issued := s.clock.now } ∧ (u.link link).err = (s.link link).err ||| 1 ∧
      u.out = s.out ++ [if (s.link (s.linkOf r.fid)).ecrcGen then .ecrc (.read r.fid r.addr r.len r.use.strict)
        else .read r.fid r.addr r.len r.use.strict] ∧
      OnlyIn [.links, .out] s u) ∧
  (∀ (link : LinkId) (tag : BitVec 14) st s r, Tab.find tag.toNat (s.link link).reads = some r → (s.link link).readQ = [] → r.orphan = true →
    (st = .ecrcFail ∨ st = .poisoned) →
    exec (.hostReadCompletion link tag st) s = .next (s.modLink link (fun k => { k with
      err := k.err ||| (if st = .ecrcFail then 1 else 2), reads := Tab.del tag.toNat k.reads }))) ∧
  (∀ (link : LinkId) (tag : BitVec 14) s r, Tab.find tag.toNat (s.link link).reads = some r →
    exec (.hostReadCompletion link tag .lost) s = .next (s.integrityDrop (link.val / 8) 2)) ∧
  (∀ (link : LinkId) (tag : BitVec 14) st s, Tab.find tag.toNat (s.link link).reads = none → exec (.hostReadCompletion link tag st) s = .next s) ∧
  (∀ (link : LinkId) (tag : BitVec 14) st s r, (st = .poisoned ∨ st = .unsupported ∨ st = .abort ∨ (st = .ecrcFail ∧ r.retried = true)) →
    Tab.find tag.toNat (s.link link).reads = some r → r.orphan = false → (s.fn r.fid).state = .active →
    ∃ u : State, exec (.hostReadCompletion link tag st) s = .next u ∧ LeftActive s u r.fid 4 ∧ (u.fn r.fid).err.getLsbD 2 = true ∧
      (st = .poisoned → (u.link link).err.getLsbD 1 = true)) ∧
  (∀ (link : LinkId) (tag : BitVec 14) dt s r, Tab.find tag.toNat (s.link link).reads = some r → r.orphan = false → (s.fn r.fid).state = .active →
    r.issued + (s.link link).cplTimeout ≤ s.clock.now + dt →
    ∃ u : State, exec (.completionTimeout link tag dt) s = .next u ∧ LeftActive (s.advance dt) u r.fid 4 ∧ (u.link link).err.getLsbD 2 = true) ∧
  (∀ (link : LinkId) (tag : BitVec 14) dt s r, Tab.find tag.toNat (s.link link).reads = some r →
    s.clock.now + dt < r.issued + (s.link link).cplTimeout →
    exec (.completionTimeout link tag dt) s = .next (s.advance dt))

/-! ## Mailbox events and registers -/

/-- The mailbox protocol: a doorbell of an ACTIVE function that owns its area gives the area to the device with the request copied, next in the
order of acceptance, and one with an unknown opcode is answered, unless the answer is held; one while the device owns it sets DB_WHILE_OWNED alone;
one of a function not ACTIVE changes nothing; a request accepted while CP_UNAVAILABLE is 1 is answered ST_CP_UNAVAILABLE with no payload; a
heartbeat is noted, but of a halted control processor; 2 ms without one the control processor has failed and every mailbox it served is answered;
when it runs again every ticket it held ends with ST_CP_RESTART (R66, R70, R72, R73, R78, R460). A response: the area holds the response header and
payload, RESP_SEQ advances and OWNER is cleared together, no request is left, and nothing changes but the function and what its interrupt sends
(R68, R72). Tickets end with their work, and an ended ticket keeps what TICKET_QUERY answers: an FN_CREATE whose target is ACTIVE, an EP_DESTROY
whose endpoint has nothing outstanding, a POWER_CAP_SET whose power has settled; while its control processor does not run, or a debugger halts it, a
ticket goes on (R70, R75, R76, R77, R469). -/
def Obligations.MailboxAndTickets : Prop :=
  ((∀ (fid : Fid) s r, (s.fn fid).state = .active → (s.fn fid).owner = false →
    r = copyReq (s.fn fid) s.clock.now s.hif.accepted (s.cpOf fid).unavailable → r.opcode ∈ knownOpcodes →
    exec (.mbxDoorbell fid) s = .next
      (({ s with hif := { s.hif with accepted := s.hif.accepted + 1 } }).modFn fid (fun f => { f with owner := true, req := some r }))) ∧
  (∀ (fid : Fid) s r u, (s.fn fid).state = .active → (s.fn fid).owner = false →
    r = copyReq (s.fn fid) s.clock.now s.hif.accepted (s.cpOf fid).unavailable → r.opcode ∉ knownOpcodes →
    u = ({ s with hif := { s.hif with accepted := s.hif.accepted + 1 } }).modFn fid (fun f => { f with owner := true, req := some r }) →
    exec (.mbxDoorbell fid) s = .next
      (if r.refused = true ∨ s.mailboxHeld fid = true ∨ (s.cpOf fid).halted = true then u
       else match u.headerCheck fid r with
        | some x => u.respond fid r x.1 x.2 0 []
        | none => u.respond fid r stBadOpcode 0 0 [])) ∧
  (∀ (fid : Fid) s, (s.fn fid).state = .active → (s.fn fid).owner = true →
    exec (.mbxDoorbell fid) s = .next (s.modFn fid (fun f => { f with dbOwned := true }))) ∧
  (∀ (fid : Fid) s, (s.fn fid).state ≠ .active → exec (.mbxDoorbell fid) s = .next s) ∧
  (∀ (fid : Fid) s r, (s.fn fid).req = some r → r.refused = true →
    exec (.cpUnavailableAnswer fid) s = .next (s.respond fid r stCpUnavailable 0 0 [])) ∧
  (∀ (half : Half) v s, exec (.hrtHeartbeat half v) s = .next
    (s.modCp half (fun c => { c with lastBeat := if c.halted then c.lastBeat else s.clock.now }))) ∧
  (∀ (half : Half) dt s, (s.cpHalf half).running = true → (s.cpHalf half).lastBeat + 2000000 ≤ s.clock.now + dt →
    ∃ u : State, exec (.cpHeartbeatTimeout half dt) s = .next u ∧ (u.cpHalf half).unavailable = true ∧ (u.cpHalf half).running = false ∧
      (∀ fid ∈ s.ownedMailboxes half, (u.fn fid).req = none ∧ (u.fn fid).owner = false) ∧ u.tickets = s.tickets) ∧
  (∀ (half : Half) s, (s.cpHalf half).running = false → (s.cpHalf half).unavailable = true → s.boot.stage = .ready →
    (half.val = 0 ∨ s.rel.split = true) →
    ∃ u : State, exec (.cpRestart half) s = .next (u.ledgerAdd 0x0031 0 (toLe 4 ((s.cpHalf half).answered +
        (s.tickets.keysWhere (fun _ t => !t.done && b2n (s.onShadow t.fid) == half.val)).length))) ∧
      (u.cpHalf half).unavailable = false ∧ (u.cpHalf half).running = true ∧ (u.cpHalf half).lastBeat = s.clock.now ∧
      ∀ k t, Tab.find k s.tickets = some t → t.done = false → t.autoRel = false → b2n (s.onShadow t.fid) = half.val →
        ∃ v, Tab.find k u.tickets = some v ∧ v.done = true ∧ v.status = stCpRestart)) ∧
  (∀ fid r st d t p s, ∃ u : State, u = s.respond fid r st d t p ∧ (u.fn fid).owner = false ∧ (u.fn fid).req = none ∧
    (u.fn fid).respSeq = (s.fn fid).respSeq + 1 ∧
    (u.fn fid).area = Mem.write 0 (s.fn fid).area 0 (respBytes r st d t ((s.clock.now - r.acceptedAt) / 1000) p) ∧
    (u.fn fid).state = (s.fn fid).state ∧ (∀ g, g ≠ fid → u.fn g = s.fn g) ∧ OnlyIn [.fns, .out] s u ∧
    ((s.fn fid).irqEn = false ∨ s.vectors fid ≤ (s.fn fid).vector.toNat → u.out = s.out)) ∧
  ((∀ (fid : Fid) (tk : BitVec 32) s t a b g v, Tab.find (ticketKey fid tk.toNat) s.tickets = some t → t.done = false → t.eq = none →
    t.work = .fnCreate a b g → (s.fn a).state = .active → (s.cpOf t.fid).running = true → (s.cpOf t.fid).halted = false →
    v = { t with done := true, status := stOk, detail := 0, result := toLe 2 a ++ toLe 1 (s.fn a).gen.toNat ++ List.replicate 5 0 } →
    exec (.ticketWorkEnd fid tk) s = .next { s with tickets := Tab.set (ticketKey fid tk.toNat) v s.tickets }) ∧
  (∀ (fid : Fid) (tk : BitVec 32) s t n e v, Tab.find (ticketKey fid tk.toNat) s.tickets = some t → t.done = false → t.eq = none →
    t.work = .epDestroy n → s.ep n = some e → s.epBusy n = false → (s.cpOf t.fid).running = true → (s.cpOf t.fid).halted = false → v = { t with done := true, status := stOk, detail := 0, result := [] } →
    exec (.ticketWorkEnd fid tk) s = .next { s.removeEp n with tickets := Tab.set (ticketKey fid tk.toNat) v s.tickets }) ∧
  (∀ (fid : Fid) (tk : BitVec 32) s t v, Tab.find (ticketKey fid tk.toNat) s.tickets = some t → t.done = false → t.eq = none →
    t.work = .powerCap → s.power.capWait = none → (s.cpOf t.fid).running = true → (s.cpOf t.fid).halted = false →
    v = { t with done := true, status := stOk, detail := 0, result := [] } →
    exec (.ticketWorkEnd fid tk) s = .next { s with tickets := Tab.set (ticketKey fid tk.toNat) v s.tickets }) ∧
  (∀ (fid : Fid) (tk : BitVec 32) s t, Tab.find (ticketKey fid tk.toNat) s.tickets = some t →
    ((s.cpOf t.fid).running = false ∨ (s.cpOf t.fid).halted = true) →
    exec (.ticketWorkEnd fid tk) s = .next s))

/-- Register accesses: MBX_CTRL takes IRQ_EN and VECTOR; a bit of FN_ERR or HIF_ERR written as 1 is cleared unless its condition coincides;
HIF_SCRATCH is stored by a PF; the area takes a write of any size while the device does not own it, and is read at any time; an access of a width
the register does not have sets MMIO_BAD and changes nothing else; a TLP that fails ECRC is discarded and reported; a read of FN_DB_REJECT_CNT
answers the count and leaves what coincided with the read; the completion of a read of FN_ABORT_STATUS has both ordering attributes clear; a PF's
Device ID reads 5120h; a write to HRT_HEARTBEAT is a heartbeat (R14, R15, R40, R42, R47, R48, R58, R67, R460). -/
def Obligations.RegisterAccesses : Prop :=
  (∀ (fid : Fid) (v co : BitVec 64) s, s.barOn fid = true → v.toNat < 4294967296 →
    exec (.registerWrite (.bar0 fid) 0x1000 4 v co .ok) s = .next
      (s.modFn fid (fun f => { f with irqEn := bit v.toNat 8, vector := BitVec.ofNat 8 (bits v.toNat 16 8) }))) ∧
  (∀ (fid : Fid) (v co : BitVec 64) s, s.barOn fid = true → v.toNat < 4294967296 →
    exec (.registerWrite (.bar0 fid) 0x2020 4 v co .ok) s = .next
      (s.modFn fid (fun f => { f with err := (f.err &&& ~~~ (BitVec.ofNat 4 v.toNat)) ||| BitVec.ofNat 4 co.toNat }))) ∧
  (∀ (fid : Fid) (v co : BitVec 64) s, s.barOn fid = true → s.isPf fid = true → v.toNat < 4294967296 →
    exec (.registerWrite (.bar0 fid) 0x3018 4 v co .ok) s = .next
      (s.modLink (s.linkOf fid) (fun k => { k with err := (k.err &&& ~~~ (BitVec.ofNat 4 v.toNat)) ||| BitVec.ofNat 4 co.toNat }))) ∧
  (∀ (fid : Fid) (v co : BitVec 64) s, s.barOn fid = true → s.isPf fid = true →
    exec (.registerWrite (.bar0 fid) 0x3020 8 v co .ok) s = .next (s.modLink (s.linkOf fid) (fun k => { k with scratch := v }))) ∧
  (∀ (fid : Fid) (o : BitVec 32) n (v co : BitVec 64) more s, s.barOn fid = true → o.toNat < 4096 →
    exec (.registerWrite (.bar0 fid) o n v co .ok more) s = .next
      (if (s.fn fid).owner then s else s.modFn fid (fun f => { f with
        area := Mem.write 0 f.area o.toNat (toLe (min n (4096 - o.toNat)) (wideValue v more % 2 ^ (8 * n))) }))) ∧
  (∀ (fid : Fid) (o : BitVec 32) n c s, s.barOn fid = true → o.toNat < 4096 →
    exec (.rcRegisterRead (.bar0 fid) o n c .ok) s = .next
      (s.regReply fid o (leNat (Mem.read 0 (s.fn fid).area o.toNat (min n (4096 - o.toNat)))) n)) ∧
  (∀ (fid : Fid) (v co : BitVec 64) s, s.barOn fid = true →
    exec (.registerWrite (.bar0 fid) 0x1008 8 v co .ok) s = .next (s.modFn fid (fun f => { f with err := f.err ||| 1 }))) ∧
  (∀ (fid : Fid) (o : BitVec 32) n (v co : BitVec 64) s, s.barOn fid = true →
    exec (.registerWrite (.bar0 fid) o n v co .ecrc) s = .next
      (s.modLink (s.linkOf fid) (fun k => { k with err := k.err ||| 1, aerEcrc := true }))) ∧
  (∀ (fid : Fid) c s, s.barOn fid = true →
    exec (.rcRegisterRead (.bar0 fid) 0x2028 4 c .ok) s = .next
      ((s.modFn fid (fun f => { f with dbReject := min c 0xFFFFFFFF })).tlp fid (.reg (BitVec.ofNat 64 ((s.fn fid).dbReject % 4294967296))
        ((Config.readAttr 0x2028).getLsbD 0) ((Config.readAttr 0x2028).getLsbD 1)))) ∧
  (∀ (fid : Fid) c s, s.barOn fid = true →
    exec (.rcRegisterRead (.bar0 fid) 0x2018 4 c .ok) s = .next
      (s.tlp fid (.reg (BitVec.ofNat 64 ((s.fn fid).abortWord % 4294967296)) false false))) ∧
  (∀ (fid : Fid) (o : BitVec 32) n c s, s.cfgOn fid = true → s.isPf fid = true →
    exec (.rcRegisterRead (.config fid .ids) o n c .ok) s = .next
      (s.tlp fid (.reg (BitVec.ofNat 64 (Config.vendorId.toNat + 0x5120 * 65536)) ((Config.readAttr o).getLsbD 0) ((Config.readAttr o).getLsbD 1)))) ∧
  (∀ (v co : BitVec 64) s, exec (.registerWrite .cp 0x05000014 4 v co .ok) s = .next (s.modCp 0 (fun c => { c with lastBeat := s.clock.now }))) ∧
  (∀ (fid : Fid) (v co : BitVec 64) s, s.barOn fid = false → exec (.registerWrite (.bar0 fid) 0x1000 4 v co .ok) s = .next s)

/-! ## Rings -/

/-- A doorbell of an ACTIVE function for a ring of its own that is not in ERROR: with no index-block read outstanding the read is issued, at once
where the link has a tag free and no read waits for one, and the pending bit cleared; otherwise the pending bit waits for it; ARM is kept for a CQ
and an EQ. For a ring in ERROR it changes nothing. A doorbell that is not accepted advances FN_DB_REJECT_CNT, which saturates, and changes nothing
else (R38, R49, R139, R141, R142). -/
def Obligations.RingDoorbells : Prop :=
  (∀ (fid : Fid) (n : RingNo) i kind arm s r, (i, kind, arm) ∈ [(Instr.sqDoorbell fid n, 0, false), (.cqDoorbell fid n, 1, false),
      (.eqDoorbell fid n, 2, false), (.cqArm fid n, 1, true), (.eqArm fid n, 2, true)] →
    s.ring (ringKey kind n.toNat) = some r → r.fid = fid.val → (s.fn fid).state = .active → r.state ≠ .error → r.readOut = false →
    ∃ u : State, exec i s = .next u ∧
      u.ring (ringKey kind n.toNat) = some { r with readOut := true, dbPending := false, armWait := r.armNext || arm, armNext := false } ∧
      (∀ t, (s.link (s.linkOf fid)).readQ = [] → (s.link (s.linkOf fid)).freeTag = some t →
        Tab.find t (u.link (s.linkOf fid)).reads = some { fid := fid, addr := r.idxAddr, len := 64, use := .index (ringKey kind n.toNat), issued := s.clock.now } ∧
        ∃ o, u.out = s.out ++ (if (s.link (s.linkOf fid)).ecrcGen then .ecrc (.read fid r.idxAddr 64) else .read fid r.idxAddr 64) :: o) ∧
      OnlyIn [.rings, .work, .links, .out] s u) ∧
  (∀ (fid : Fid) (n : RingNo) i kind arm s r, (i, kind, arm) ∈ [(Instr.sqDoorbell fid n, 0, false), (.cqDoorbell fid n, 1, false),
      (.eqDoorbell fid n, 2, false), (.cqArm fid n, 1, true), (.eqArm fid n, 2, true)] →
    s.ring (ringKey kind n.toNat) = some r → r.fid = fid.val → (s.fn fid).state = .active → r.state ≠ .error → r.readOut = true →
    exec i s = .next (s.setRing (ringKey kind n.toNat) { r with dbPending := true, armNext := r.armNext || arm })) ∧
  (∀ (fid : Fid) (n : RingNo) i kind s r, (i, kind) ∈ [(Instr.sqDoorbell fid n, 0), (.cqDoorbell fid n, 1), (.eqDoorbell fid n, 2),
      (.cqArm fid n, 1), (.eqArm fid n, 2)] →
    s.ring (ringKey kind n.toNat) = some r → r.fid = fid.val → (s.fn fid).state = .active → r.state = .error → exec i s = .next s) ∧
  (∀ (fid : Fid) (n : RingNo) i kind s, (i, kind) ∈ [(Instr.sqDoorbell fid n, 0), (.cqDoorbell fid n, 1), (.eqDoorbell fid n, 2),
      (.cqArm fid n, 1), (.eqArm fid n, 2)] →
    (s.ring (ringKey kind n.toNat) = none ∨ (s.fn fid).state ≠ .active ∨ ∃ r, s.ring (ringKey kind n.toNat) = some r ∧ r.fid ≠ fid.val) →
    exec i s = .next (s.modFn fid (fun f => { f with dbReject := min (f.dbReject + 1) 0xFFFFFFFF })))

/-- The index block returns: a host index of an SQ that passes the checks becomes PI_SEEN, one of any ring that fails takes the ring to ERROR with
INDEX_RANGE or INDEX_REGRESS and sets FN_ERR.RING_ERROR; the moderation timer of an armed EQ sends its vector and disarms it (R137, R139, R166). A
fetch visit reads descriptors of one eligible SQ of the engine, of class 7 while one is eligible, as many as R144 and R145 allow; stated where no
RING_MODIFY waits for the round's end. The WEIGHT and BURST of one that waits come into force as its level's round ends, and before a visit while
its level has no round (R97, R144, R145). -/
def Obligations.IndexBlocksAndFetch : Prop :=
  ((∀ (n : RingNo) (idx : BitVec 32) s r, s.ring (sqKey n.toNat) = some r → r.readOut = true → r.state ≠ .error → r.dbPending = false →
    (idx - r.dev).toNat ≤ r.size → (idx - r.seen).toNat ≤ r.size →
    ∃ u : State, exec (.indexBlockReadDone .sq n idx) s = .next u ∧
      u.ring (sqKey n.toNat) = some { r with readOut := false, armWait := false, seen := idx } ∧
      (∀ k, k ≠ sqKey n.toNat → u.ring k = s.ring k) ∧ OnlyIn [.rings, .work, .links, .lrd, .stats, .out] s u) ∧
  (∀ (k : RingKind) (n : RingNo) (idx : BitVec 32) s r e, s.ring (ringKey (kindCode k) n.toNat) = some r → r.readOut = true → r.state ≠ .error →
    e = (if (if k = .sq then r.size < (idx - r.dev).toNat else r.size < (r.dev - idx).toNat) then 1
      else if r.size < (idx - r.seen).toNat then 2 else 0) → e ≠ 0 →
    ∃ (u : State) (x : Ring), exec (.indexBlockReadDone k n idx) s = .next u ∧ u.ring (ringKey (kindCode k) n.toNat) = some x ∧
      x.state = .error ∧ x.error = e ∧ x.seen = r.seen ∧ x.dev = r.dev ∧ (u.fn r.fid).err.getLsbD 3 = true) ∧
  (∀ (n : RingNo) dt s r t, s.ring (eqKey n.toNat) = some r → r.armed = true → r.armFirst = some t → r.modUsec ≠ 0 →
    t + r.modUsec * 1000 ≤ (s.clock.advance dt).dev →
    exec (.eqModerationTimer n dt) s = .next
      (((s.advance dt).setRing (eqKey n.toNat) { r with armed := false, armCount := 0, armFirst := none }).sendMsi r.fid r.bind))) ∧
  ((∀ (e : Fin 32) s el c7, el = (s.sqsOfEngine e).filter (fun n => s.fetchRoom n != 0) →
    c7 = el.filter (fun n => (s.ring (sqKey n)).any (fun r => r.cls == 7)) → el ≠ [] →
    (∀ n r, n ∈ s.sqsOfEngine e → s.ring (sqKey n) = some r → r.weight ≠ 0 ∧ r.arbNext = none) →
    ∃ (u : State) (n : Nat), exec (.fetchVisit e) s = .next u ∧ n ∈ el ∧ (c7 ≠ [] → n ∈ c7) ∧
      (u.workOf (sqKey n)).reading = (s.workOf (sqKey n)).reading + s.fetchRoom n ∧
      (∀ k, k ≠ sqKey n → (u.workOf k).reading = (s.workOf k).reading) ∧ OnlyIn [.rings, .work, .links, .hif, .out] s u) ∧
  (∀ (e : Fin 32) (s : State) n r w b, n ∈ s.sqsOfEngine e → s.ring (sqKey n) = some r → r.arbNext = some (w, b) →
    (∀ m ∈ s.sqsOfEngine e, s.levelOf m = s.levelOf n → (s.workOf (sqKey m)).given = false) →
    ∃ x, (s.betweenRounds e (s.levelOf n)).ring (sqKey n) = some x ∧ x.weight = w ∧ x.burst = b ∧ x.arbNext = none) ∧
  (∀ (e : Fin 32) (s : State) n r w b, n ∈ s.sqsOfEngine e → s.ring (sqKey n) = some r → r.arbNext = some (w, b) →
    ∃ x, (s.endRound e (s.levelOf n)).ring (sqKey n) = some x ∧ x.weight = w ∧ x.burst = b ∧ x.arbNext = none))

/-- A descriptor that returns is checked: on a PACKET SQ a valid one is kept in index order and decides the ring's role, and the device CI moves
past it; a faulty one takes the ring to ERROR with its code, the device CI past it (R133, R138, R139, R146, R149). The descriptors of a PACKET SQ: a
TX whose data has been read hands its frames to the pipeline its SQ is bound to, in order; RX_POST posts its buffer behind the others, and on a ring
that is being destroyed it completes at once as flushed; a NOP with nothing of its SQ before it completes at once (R151, R152, R153, R154). -/
def Obligations.Descriptors : Prop :=
  ((∀ (n : RingNo) b t s r w, s.ring (sqKey n.toNat) = some r → s.workOf (sqKey n.toNat) = w → w.reading ≠ 0 → r.use = .packet →
    descError r b t = none →
    ∃ u : State, exec (.descriptorReadDone n [(b, t)]) s = .next u ∧
      u.ring (sqKey n.toNat) = some { r with dev := r.dev + 1, role := (descRole b).getD r.role } ∧
      (u.workOf (sqKey n.toNat)).reading = w.reading - 1 ∧
      (u.workOf (sqKey n.toNat)).fetched.map (fun d => (d.index, d.bytes, d.frags)) =
        w.fetched.map (fun d => (d.index, d.bytes, d.frags)) ++ [(r.dev, b, fragsOf b t)] ∧
      OnlyIn [.rings, .work, .links, .out] s u) ∧
  (∀ (n : RingNo) b t s r e, s.ring (sqKey n.toNat) = some r → (s.workOf (sqKey n.toNat)).reading ≠ 0 → descError r b t = some e →
    ∃ (u : State) (x : Ring), exec (.descriptorReadDone n [(b, t)]) s = .next u ∧ u.ring (sqKey n.toNat) = some x ∧ x.state = .error ∧
      x.error = e ∧ x.dev = r.dev + 1 ∧ (u.workOf (sqKey n.toNat)).reading = 0 ∧ (u.fn r.fid).err.getLsbD 3 = true)) ∧
  ((∀ (n : RingNo) data s r d, s.ring (sqKey n.toNat) = some r → s.nextDesc n.toNat = some d → dOpcode d.bytes = 1 →
    d.waits = false →
    ∃ (u : State) (ps : List Pkt), exec (.tx n data) s = .next u ∧
      (if r.cls = 7 then (u.pipe r.pipe).inj7 = (s.pipe r.pipe).inj7 ++ ps else (u.pipe r.pipe).inj = (s.pipe r.pipe).inj ++ ps) ∧
      ps.map (·.frame) = txFrames d data ∧ (∀ p ∈ ps, p.fid = r.fid ∧ p.source = 1) ∧ (∀ q, q ≠ r.pipe → u.pipe q = s.pipe q) ∧
      OnlyIn [.net, .work, .links, .out] s u) ∧
  (∀ (n : RingNo) s r d b, s.ring (sqKey n.toNat) = some r → r.destroying = false → s.nextDesc n.toNat = some d → dOpcode d.bytes = 2 →
    b = (⟨d.index, BitVec.ofNat 64 (dUser d.bytes), BitVec.ofNat 64 (dAddr d.bytes), dLength d.bytes, bit (le d.bytes 16 1) 0⟩ : RxBuf) →
    exec (.rxPost n) s = .next ((s.dropDesc n.toNat d.index).modWork (sqKey n.toNat) (fun w => { w with posted := w.posted ++ [b] }))) ∧
  (∀ (n : RingNo) s r d b, s.ring (sqKey n.toNat) = some r → r.destroying = true → s.nextDesc n.toNat = some d → dOpcode d.bytes = 2 →
    b = (⟨d.index, BitVec.ofNat 64 (dUser d.bytes), BitVec.ofNat 64 (dAddr d.bytes), dLength d.bytes, bit (le d.bytes 16 1) 0⟩ : RxBuf) →
    exec (.rxPost n) s = .next (((s.dropDesc n.toNat d.index).causeCpl n.toNat none (flushedCpl n.toNat b)).settle n.toNat)) ∧
  (∀ (n : RingNo) s r d w, s.ring (sqKey n.toNat) = some r → r.use = .packet → s.workOf (sqKey n.toNat) = w → w.fetched = [d] →
    d.begun = false → w.posted = [] → w.filled = [] → dOpcode d.bytes = 0x0F →
    ∃ u : State, exec (.nop n) s = .next u ∧ (u.workOf (sqKey n.toNat)).fetched = [] ∧
      (u.workOf (cqKey r.bind)).due = (s.workOf (cqKey r.bind)).due ++ [⟨cplBytes (dUser d.bytes) (dLength d.bytes) 0 0 0 0x0F n.toNat d.index.toNat 0,
        n.toNat, none, false⟩] ∧ OnlyIn [.work] s u))

/-- Completions: one due for a CQ with room that holds none is written at the device index, which advances, and the CQ is disarmed; a CQ found full
first has its index block read once, the completion still due; found full after that read it keeps the completion in the function's hold, and the CQ
and the running SQs bound to it become FETCH_STOPPED. The completion that goes next is one of those due, and behind none of its SQ unless they are
of LRD or cipher jobs (R155, R156, R158, R165). A packet at the front of those that wait for a receive ring: where the first posted buffer takes it
whole it is written there, the buffer is used up, the ring's counters advance and its completion is due; where the one buffer posted is shorter that
is filled and the packet waits for the next (R152, R154, R157). -/
def Obligations.CompletionsAndDelivery : Prop :=
  ((∀ (n : RingNo) pick s c d ds, s.ring (cqKey n.toNat) = some c → pickDue pick (s.workOf (cqKey n.toNat)).due = some (d, ds) → d.bytes.length = 32 →
    c.full = false → c.state ≠ .error → s.cqHolding n.toNat = false → (s.fn c.fid).state = .active →
    ∃ (u : State) (o : List Out), exec (.completionWrite n pick) s = .next u ∧ u.ring (cqKey n.toNat) = some { c with dev := c.dev + 1, armed := false } ∧
      (u.workOf (cqKey n.toNat)).due = ds ∧
      u.out = s.out ++ (if (s.link (s.linkOf c.fid)).ecrcGen then .ecrc (.write c.fid (c.slotAddr 32) (withPhase c.phase d.bytes))
        else .write c.fid (c.slotAddr 32) (withPhase c.phase d.bytes)) :: o) ∧
  (∀ (n : RingNo) pick s c d ds, s.ring (cqKey n.toNat) = some c → pickDue pick (s.workOf (cqKey n.toNat)).due = some (d, ds) → c.full = true →
    c.state ≠ .error → c.readOut = false → (s.workOf (cqKey n.toNat)).reread = false → s.cqHolding n.toNat = false → (s.fn c.fid).state = .active →
    ∃ u : State, exec (.completionWrite n pick) s = .next u ∧ (u.workOf (cqKey n.toNat)).due = (s.workOf (cqKey n.toNat)).due ∧ (u.workOf (cqKey n.toNat)).reread = true ∧
      u.ring (cqKey n.toNat) = some { c with readOut := true, dbPending := false, armWait := c.armNext, armNext := false } ∧
      OnlyIn [.rings, .work, .links, .out] s u) ∧
  (∀ (n : RingNo) pick s c d ds, s.ring (cqKey n.toNat) = some c → pickDue pick (s.workOf (cqKey n.toNat)).due = some (d, ds) → d.lrd = none →
    c.full = true → c.state = .running → c.readOut = false → (s.workOf (cqKey n.toNat)).reread = true → s.cqHolding n.toNat = false →
    (s.fn c.fid).state = .active →
    ∃ (u : State) (x : Ring), exec (.completionWrite n pick) s = .next u ∧ (u.workOf (cqKey n.toNat)).due = ds ∧
      (u.resOf c.fid).hold = (s.resOf c.fid).hold ++ [(n.toNat, d.bytes)] ∧ u.ring (cqKey n.toNat) = some x ∧ x.state = .fetchStopped ∧
      ∀ m q, m < 262144 → s.ring (sqKey m) = some q → q.bind = n.toNat → q.state = .running →
        ∃ y, u.ring (sqKey m) = some y ∧ y.state = .fetchStopped) ∧
  (∀ pick due d ds, pickDue pick due = some (d, ds) →
    ∃ i : Nat, due[i]? = some d ∧ ds = due.eraseIdx i ∧ d.held = false ∧
      ∀ e ∈ due.take i, e.held = true ∨ e.sq ≠ d.sq ∨ (e.anyOrder = true ∧ d.anyOrder = true))) ∧
  ((∀ (n : RingNo) s r c w p ps b bs f, s.ring (sqKey n.toNat) = some r → s.ring (cqKey r.bind) = some c → c.state = .running →
    s.cqHolding r.bind = false → s.workOf (sqKey n.toNat) = w → w.rxWait = p :: ps → w.posted = b :: bs → w.filled = [] → f = p.edited → f.length ≤ b.len → b.tstamp = false →
    p.ask.tstamp = none → r.role = .receive → r.state ≠ .fetchStopped → (s.fn r.fid).state = .active → w.fetched = [] →
    ∃ u : State, exec (.rxPacketDelivery n .ok) s = .next u ∧ u.out = (s.dmaWrite r.fid b.addr f).out ∧
      (u.workOf (sqKey n.toNat)).rxWait = ps ∧ (u.workOf (sqKey n.toNat)).posted = bs ∧
      (u.workOf (cqKey r.bind)).due = (s.workOf (cqKey r.bind)).due ++ [⟨rxCpl n.toNat b p f.length 1 f.length, n.toNat, none, false⟩] ∧
      u.stat 0 r.fid 0 = (s.stat 0 r.fid 0 + 1) % 2 ^ 64 ∧ OnlyIn [.work, .stats, .out] s u) ∧
  (∀ (n : RingNo) s r c w p ps b f, s.ring (sqKey n.toNat) = some r → s.ring (cqKey r.bind) = some c → c.state = .running →
    s.cqHolding r.bind = false → s.workOf (sqKey n.toNat) = w → w.rxWait = p :: ps → w.posted = [b] → w.filled = [] → f = p.edited → b.len < f.length →
    r.role = .receive → r.state ≠ .fetchStopped → (s.fn r.fid).state = .active →
    exec (.rxPacketDelivery n .ok) s = .next
      ((s.dmaWrite r.fid b.addr (f.take b.len)).modWork (sqKey n.toNat) (fun w => { w with filled := [b], posted := [] }))))

/-! ## Ports and time -/

/-- Frames at a port. Whatever the frame, its corrected codewords are counted, and its symbol errors by lane. A received frame outside 64 to 9,600
bytes is dropped and counted in RX_UNDERSIZE or RX_OVERSIZE alone, one of legal length with a bad FCS in RX_FCS_ERR and as a drop for an integrity
failure, a good MAC control frame in RX_MAC_CTRL; a good frame that NC-SI does not take gets one of its pipeline's 32 header credits, with its bytes
but the FCS and its arrival time, where one is free and no frame waits at the port, else it enters the LP's part of the receive FIFO while there is
room, else it is dropped and counted in RX_FIFO_DROP. A frame the scheduler serves leaves padded with its FCS; one that meets a FIFO parity error
does not leave and is counted in INTEGRITY_DROP (R28, R31, R151, R173, R174, R266, R528, R532). The egress half takes the oldest packet: one that no
egress rule matches is admitted to its LP's class queue while the LP is UP and the share of its colour has room, and counted in TX_LINK_DOWN_DROP
while the LP is not UP; one that a DROP rule matches is dropped (R176, R227, R259). -/
def Obligations.FramesAndEgress : Prop :=
  ((∀ (lp : LpId) f ok n y s, s.lpExists lp = true → (s.lp lp).state = .up → f.length < 64 →
    exec (.frameReceive lp f ok n y) s = .next ((s.fecCount lp n y).bump 1 lp 3)) ∧
  (∀ (lp : LpId) f ok n y s, s.lpExists lp = true → (s.lp lp).state = .up → 9600 < f.length →
    exec (.frameReceive lp f ok n y) s = .next ((s.fecCount lp n y).bump 1 lp 4)) ∧
  (∀ (lp : LpId) f n y s, s.lpExists lp = true → (s.lp lp).state = .up → 64 ≤ f.length → f.length ≤ 9600 →
    exec (.frameReceive lp f false n y) s = .next (((s.fecCount lp n y).bump 1 lp 2).integrityDrop (lp.val / 64) 1)) ∧
  (∀ (lp : LpId) f n y s, s.lpExists lp = true → (s.lp lp).state = .up → 64 ≤ f.length → f.length ≤ 9600 → be f 12 2 = 0x8808 →
    exec (.frameReceive lp f true n y) s = .next ((((s.fecCount lp n y).bump 1 lp 0).bumpBy 1 lp 1 f.length).bump 1 lp 6)) ∧
  (∀ (lp : LpId) f n y s g v, s.lpExists lp = true → (s.lp lp).state = .up → 64 ≤ f.length → f.length ≤ 9600 → be f 12 2 ≠ 0x8808 →
    g = f.take (f.length - 4) → s.passTakes lp g = false → v = ((s.fecCount lp n y).bump 1 lp 0).bumpBy 1 lp 1 f.length →
    exec (.frameReceive lp f true n y) s = .next
      (if (s.pipe (lp.val / 8)).hdrs.length < 32 ∧ s.fifoIdle (lp.val / 8) = true then
        v.modPipe (lp.val / 8) (fun q => { q with hdrs := q.hdrs ++ [(lp.val, { bytes := g, time := s.devNow })] })
      else if s.fifoCap lp < (s.lp lp).fifo.foldl (fun a x => a + x.bytes.length) 0 + g.length then v.bump 1 lp 5
      else v.modLp lp (fun l => { l with fifo := l.fifo ++ [{ bytes := g, time := s.devNow }] }))) ∧
  (∀ lp n (y : List (Fin 8 × Nat)) s k, OnlyIn [.stats] s (s.fecCount lp n y) ∧
    (s.fecCount lp n y).stat 1 lp 11 = (s.stat 1 lp 11 + n) % 18446744073709551616 ∧
    (∀ (i : Fin 8) m, y = [(i, m)] → k = lp / 8 * 8 + i.val → (s.fecCount lp n y).stat 1 k 32 = (s.stat 1 k 32 + m) % 18446744073709551616)) ∧
  (∀ (lp : LpId) f ok n y s, (s.lp lp).state ≠ .up → exec (.frameReceive lp f ok n y) s = .next s) ∧
  (∀ (lp : LpId) s q beyond v p ps f, (s.lp lp).state = .up → (s.fillBucket lp).pickQueue lp = some (q, beyond, v) →
    (v.egq (lp.val * 8 + q)).queue = p :: ps → f = padTo60 p.edited →
    ∃ u : State, exec (.frameTransmit lp .ok) s = .next u ∧ (u.egq (lp.val * 8 + q)).queue = ps ∧ u.out = v.out ++ [.frame lp (f ++ fcsOf f)]) ∧
  (∀ (lp : LpId) s q beyond v p ps, (s.lp lp).state = .up → (s.fillBucket lp).pickQueue lp = some (q, beyond, v) →
    (v.egq (lp.val * 8 + q)).queue = p :: ps →
    ∃ u : State, exec (.frameTransmit lp .fifo) s = .next u ∧ (u.egq (lp.val * 8 + q)).queue = ps ∧
      u.stat 3 (lp.val / 64) 9225 = (s.stat 3 (lp.val / 64) 9225 + 1) % 2 ^ 64)) ∧
  ((∀ (n : PipeId) s lp p rest, (s.pipe n).egIn = (lp, p) :: rest →
    s.tcam n true (keyBytes p lp (if p.source = 1 then p.fid else 0x1FFF) true) = none → (s.lp lp).state = .up →
    (s.egq (lp * 8 + p.queue)).cells p.half + cellsOf p.frame.length ≤ colourLimit p.colour (s.egShare lp p.queue) →
    ∃ u : State, exec (.egressPass n) s = .next u ∧ (u.pipe n).egIn = rest ∧
      (u.egq (lp * 8 + p.queue)).queue = (s.egq (lp * 8 + p.queue)).queue ++ [p] ∧ OnlyIn [.net, .stats] s u) ∧
  (∀ (n : PipeId) s lp p rest, (s.pipe n).egIn = (lp, p) :: rest →
    s.tcam n true (keyBytes p lp (if p.source = 1 then p.fid else 0x1FFF) true) = none → (s.lp lp).state ≠ .up →
    exec (.egressPass n) s = .next (((s.modPipe n (fun q => { q with egIn := rest })).bump 1 lp 9).dropPkt p)) ∧
  (∀ (n : PipeId) s lp p rest r, (s.pipe n).egIn = (lp, p) :: rest →
    s.tcam n true (keyBytes p lp (if p.source = 1 then p.fid else 0x1FFF) true) = some r → aVerb r.action = 2 →
    exec (.egressPass n) s = .next
      ((((((s.modPipe n (fun q => { q with egIn := rest })).bump 2 n 130).countRule r p.frame.length).bump 2 n 134)).dropPkt p)))

/-- Training: an attempt that completes takes the LP UP; a failed attempt that is attributed to no lane leaves the LP in TRAINING and ends every
count of failures in a row; one attributed to a lane counts there; the third in a row at the same lane retires it, and the LP goes on with lanes
that are not retired. An attempt at which one lane failed is attributed to that lane (R175, R178, R179, R180). Faults of an UP LP: a remote fault, a
high error rate and a local fault take it to TRAINING with its queues emptied, where no lane is charged with it; a local fault attributed to a lane
charges that; 100 uncorrectable codewords or fewer are counted alone; an LP that is not UP is left as it is (R175, R176, R178). -/
def Obligations.LinkTrainingAndFaults : Prop :=
  ((∀ (lp : LpId) s, (s.lp lp).state = .training → s.sdLost lp = false →
    ∃ u : State, exec (.trainingAttemptDone lp) s = .next u ∧ (u.lp lp).state = .up ∧ (u.lp lp).linkUps = ((s.lp lp).linkUps + 1) % 2 ^ 64 ∧
      (u.lp lp).lanes = (s.lp lp).lanes ∧ (∀ i ∈ (s.lp lp).lanes, (u.lane (8 * (lp.val / 8) + i)).fails = 0) ∧
      ∀ k, k ≠ lp.val → u.lp k = s.lp k) ∧
  (∀ (lp : LpId) bad sym s, (s.lp lp).state = .training → s.sdLost lp = false → attributed (s.lp lp).lanes (bad.map (·.val)) sym = none →
    ∃ u : State, exec (.trainingAttemptFail lp bad sym) s = .next u ∧ (∀ k, u.lp k = s.lp k) ∧
      (∀ i ∈ (s.lp lp).lanes, (u.lane (8 * (lp.val / 8) + i)).fails = 0) ∧ OnlyIn [.net] s u) ∧
  (∀ (lp : LpId) bad sym (i : Nat) s d, (s.lp lp).state = .training → s.sdLost lp = false →
    attributed (s.lp lp).lanes (bad.map (·.val)) sym = some i → (s.lp lp).lanes.Nodup → d = 8 * (lp.val / 8) + i → (s.lane d).fails < 2 → (s.bucketNow (resId 1 d)).level + 1 < resThreshold (resId 1 d) →
    ∃ u : State, exec (.trainingAttemptFail lp bad sym) s = .next u ∧ (u.lane d).fails = (s.lane d).fails + 1 ∧
      (u.lane d).retired = (s.lane d).retired ∧ (∀ k, u.lp k = s.lp k)) ∧
  (∀ (lp : LpId) bad sym (i : Nat) s d, (s.lp lp).state = .training → s.sdLost lp = false →
    attributed (s.lp lp).lanes (bad.map (·.val)) sym = some i → d = 8 * (lp.val / 8) + i → (s.lane d).fails = 2 → (s.np (lp.val / 8)).pend = none →
    ∃ u : State, exec (.trainingAttemptFail lp bad sym) s = .next u ∧ (u.lane d).retired = true ∧ resId 1 d ∈ u.rel.retired ∧
      ∀ j ∈ (u.lp lp).lanes, (u.lane (8 * (lp.val / 8) + j)).retired = false) ∧
  (∀ (lanes hit : List Nat) sym i, lanes.filter hit.contains = [i] → attributed lanes hit sym = some i)) ∧
  ((∀ (lp : LpId) s n hit sym, 100 < n → attributed (s.lp lp).lanes [] sym = none → attributed (s.lp lp).lanes (hit.map (·.val)) sym = none →
    ∀ i ∈ [Instr.remoteFault lp, .highBer lp n sym, .localFault lp hit sym], (s.lp lp).state = .up → (s.np (lp.val / 8)).pend = none →
    (s.pipe (lp.val / 8)).released = true → usableLanes (s.laneRetired (lp.val / 8)) 4 (s.lp lp).lanes ≠ [] →
    ∃ u : State, exec i s = .next u ∧ (u.lp lp).state = .training ∧
      (u.lp lp).lanes = usableLanes (s.laneRetired (lp.val / 8)) 4 (s.lp lp).lanes ∧
      (∀ q, q < 8 → (u.egq (lp.val * 8 + q)).queue = []) ∧ (∀ k, k ≠ lp.val → u.lp k = s.lp k)) ∧
  (∀ (lp : LpId) s hit sym i d, (s.lp lp).state = .up → attributed (s.lp lp).lanes (hit.map (·.val)) sym = some i → d = 8 * (lp.val / 8) + i →
    (s.np (lp.val / 8)).pend = none → (s.pipe (lp.val / 8)).released = true →
    usableLanes (s.laneRetired (lp.val / 8)) 4 (s.lp lp).lanes ≠ [] →
    (s.bucketNow (resId 1 d)).level + 1 < resThreshold (resId 1 d) →
    ∃ u : State, exec (.localFault lp hit sym) s = .next u ∧ (u.lp lp).state = .training ∧
      (u.bucket (resId 1 d)).level = (s.bucketNow (resId 1 d)).level + 1) ∧
  (∀ (lp : LpId) s n sym, n ≤ 100 → (s.lp lp).state = .up → exec (.highBer lp n sym) s = .next (s.bumpBy 1 lp 12 n)) ∧
  (∀ (lp : LpId) s n hit sym, ∀ i ∈ [Instr.remoteFault lp, .highBer lp n sym, .localFault lp hit sym], (s.lp lp).state ≠ .up → exec i s = .next s))

/-- Device time: uncorrected it advances by the time that passes, with a pulse for each change of the seconds field while main power is good; 4 s
after the last TIME_ADJUST a synchronised device is in holdover and posts its event once (R185, R189, R559). -/
def Obligations.DeviceTime : Prop :=
  (∀ dt s, s.clock.freqPpb = 0 → s.clock.slew = 0 → 0 ≤ s.clock.sub → s.clock.sub < 1000000000 →
    ∃ u : State, exec (.ppsEdge dt) s = .next u ∧ u.clock.now = s.clock.now + dt ∧
      u.clock.dev = (s.clock.dev + dt) % (281474976710656 * 1000000000) ∧ u.clock.sub = s.clock.sub ∧
      u.clock.pps = (if s.boot.mainGood then s.clock.pps + ((s.clock.dev + dt) / 1000000000 - s.clock.dev / 1000000000) else s.clock.pps) ∧ OnlyIn [.clock] s u) ∧
  (∀ dt s c, (s.advance dt).clock = c → c.synced = true → c.holdover = false → c.lastAdjust + 4000000000 ≤ c.dev →
    exec (.timeHoldover dt) s = .next
      (({ s with clock := { c with holdover := true } }).postInfra 0x0211 0 (toLe 8 (devWord c.lastAdjust).toNat))) ∧
  (∀ dt s c, (s.advance dt).clock = c → (c.synced = false ∨ c.holdover = true ∨ c.dev < c.lastAdjust + 4000000000) →
    exec (.timeHoldover dt) s = .next (s.advance dt))

/-! ## Pipelines, spread groups -/

/-- A header slot of a released pipeline takes a network arrival while one holds a header credit, then an injection of a class 7 SQ, then by turns
of three to one the other host injections and the packets of second passes (how the turns start, and that they are counted to three, is the model's
choice, log entry 147); a credit that becomes free goes to the oldest frame of the lowest LP with one waiting. The packet taken is parsed: outside
deep-parse mode a well-formed one is classified, a malformed one handled by its reason, one with an inner fragment goes to the malformed Byre queue.
A pipeline that is held, has no packet, or in deep-parse mode has no free processor takes nothing (R31, R34, R35, R214, R223, R226). Deep parsing: a
program that ends with ACCEPT sends its packet, with what it has stored, on to classification under the configuration it was taken under; one that
does not sends it to its reason's action with that reason; a packet behind another whose program still runs waits. A program that has not ended
within its operations gives reason 3Eh, one that leaves its operations, a branch among them, 3Fh (R217, R218, R220, R221, R222). What a malformed
packet leaves: MALFORMED and the counter of its reason advance; with MALFORMED_ACTION 0 the packet ends there, with 1 it goes to the malformed Byre
queue with the reason in its vector (R213, R214, R215). -/
def Obligations.IngressPackets : Prop :=
  ((∀ (n : Nat) (s : State) q, s.fifoIdle n = true → s.pipe n = q →
    (∀ lp f hs, q.hdrs = (lp, f) :: hs → s.takeHeader n =
      some ({ frame := f.bytes, source := 0, arrLp := some lp, pipe := n, time := f.time, half := halfOfPipe n },
        s.modPipe n (fun q => { q with hdrs := hs }))) ∧
    (∀ p ps, q.hdrs = [] → q.inj7 = p :: ps → s.takeHeader n = some (p, s.modPipe n (fun q => { q with inj7 := ps }))) ∧
    (∀ p ps, q.hdrs = [] → q.inj7 = [] → q.inj = p :: ps → (q.second = [] ∨ q.wrr < 3) →
      s.takeHeader n = some (p, s.modPipe n (fun q => { q with inj := ps, wrr := min (q.wrr + 1) 3 }))) ∧
    (∀ p ps, q.hdrs = [] → q.inj7 = [] → q.second = p :: ps → (q.inj = [] ∨ 3 ≤ q.wrr) →
      s.takeHeader n = some (p, s.modPipe n (fun q => { q with second := ps, wrr := 0 }))) ∧
    (q.hdrs = [] → q.inj7 = [] → q.inj = [] → q.second = [] → s.takeHeader n = none)) ∧
  (∀ n (s : State) lp f hs i x fs, (s.pipe n).hdrs = (lp, f) :: hs → hs.length = 31 → i < 8 → (∀ j, j < i → (s.lp (8 * n + j)).fifo = []) →
    (s.lp (8 * n + i)).fifo = x :: fs →
    ∃ (p : Pkt) (u : State), s.takeHeader n = some (p, u) ∧ p.frame = f.bytes ∧ (u.pipe n).hdrs = hs ++ [(8 * n + i, x)] ∧
      (u.lp (8 * n + i)).fifo = fs ∧ ∀ k, k ≠ 8 * n + i → u.lp k = s.lp k) ∧
  (∀ (n : PipeId) s p v h e c w, (s.pipe n).released = true → (s.pipe n).deep = false → s.takeHeader n = some (p, v) →
    (s.apart = false ∨ p.half = halfOfPipe n) → (v.pipe n).deepRun = [] → (v.pipe n).deep = false →
    parseFrame p.frame p.source p.pass (p.arrLp.getD 0) n p.fid (p.source == 1 && p.ask.csumL3 && !p.ask.inner)
      (p.source == 1 && p.ask.csumL3 && p.ask.inner) = (h, e) →
    c = { p with hv := h, pipe := n.val } → w = v.countParse n c e →
    exec (.ingressSlot n .ok) s = .next (State.pumpHost p.half (match e with
      | .bad r => w.malformed n (w.pipe n).cfg r c
      | .innerFrag => w.byreEnqueue (halfOfPipe n) ((w.pipe n).malAct.toNat / 4 % 32) c
      | .ok => w.classify n (w.pipe n).miss c))) ∧
  (∀ (n : PipeId) c s, ((s.pipe n).released = false ∨ (s.pipe n).deep = true ∧ s.freeProcs n = [] ∨ s.takeHeader n = none) →
    exec (.ingressSlot n c) s = .next s)) ∧
  ((∀ (n : PipeId) s d x, (s.pipe n).deepRun = [d] → d.done = none → deepProgram d.prog d.pkt.hv d.pkt.frame d.prog.w {} = (none, x) →
    exec (.deepParseDone n 0 false true) s = .next
      (((((s.modPipe n (fun q => { q with deepRun := [] })).classify n ((s.pipe n).cfgOf d.cfg).miss { d.pkt with hv := Hv.info 7 (x.vector d.pkt.hv) }).modPipe n
        Pipe.tidyMal).pumpHost 0).pumpHost 1)) ∧
  (∀ (n : PipeId) s d r x ok, (s.pipe n).deepRun = [d] → d.done = none → deepProgram d.prog d.pkt.hv d.pkt.frame d.prog.w {} = (some r, x) →
    exec (.deepParseDone n 0 false ok) s = .next
      (((((s.modPipe n (fun q => { q with deepRun := [] })).malformed n d.cfg r { d.pkt with hv := x.vector d.pkt.hv }).modPipe n
        Pipe.tidyMal).pumpHost 0).pumpHost 1)) ∧
  (∀ (n : PipeId) s p rest slot d ok, (s.pipe n).deepRun = p :: rest → p.done = none → rest[slot]? = some d → d.done = none →
    exec (.deepParseDone n (slot + 1) false ok) s = .next
      ((((s.modPipe n (fun x => { x with deepRun := p :: rest.set slot (d.finish false ok) })).modPipe n Pipe.tidyMal).pumpHost 0).pumpHost 1)) ∧
  (∀ p h f r, deepProgram p h f 0 r = (some 0x3E, r)) ∧
  (∀ p h f n r, p.ops[r.pc]? = none → deepProgram p h f (n + 1) r = (some 0x3F, r)) ∧
  (∀ p h f n r c a b t, p.ops[r.pc]? = some (.branch c a b t) → deepCmp c (r.reg a) (r.reg b) = true → p.ops.length ≤ t →
    deepProgram p h f (n + 1) r = (some 0x3F, r))) ∧
  ((∀ n cfg reason p s, ((s.pipe n).cfgOf cfg).mal.toNat % 4 = 0 → p.ask.tstamp = none → reason < 64 →
    ∃ u : State, s.malformed n cfg reason p = u ∧ u.stat 2 n 5 = (s.stat 2 n 5 + 1) % 2 ^ 64 ∧
      u.stat 2 n (64 + reason) = (s.stat 2 n (64 + reason) + 1) % 2 ^ 64 ∧ OnlyIn [.net, .stats] s u ∧
      (u.pipe n).inj = (s.pipe n).inj ∧ (u.pipe n).egIn = (s.pipe n).egIn) ∧
  (∀ n cfg reason p (s : State) m, (s.pipe n).cfgOf cfg = m → m.mal.toNat % 4 = 1 →
    s.malformed n cfg reason p = ((((s.bump 2 n 5).bump 2 n (64 + reason)).modPipe n (fun q => q.malCount cfg reason)).bump 2 n 6).byreEnqueue
      (halfOfPipe n) (m.mal.toNat / 4 % 32) { p with hv := Hv.put 10 1 reason p.hv }))

/-- The exact-match table is kept: a learn request for a key that is not there enters it in the first free way of its first bucket with the hit bit
set; a move replaces the LP of the entry; an aging pass that is due removes the entries that are neither static nor hit and clears every hit bit,
stated where each entry is found at its place and the stash is empty, and one that is not due changes nothing; a TCAM scrub rewrites the entries
with a flipped bit, counts them, and a search finds again what the shadow holds (R245, R249, R252, R531). Spread groups: the spreader gives the
oldest packet the next sequence number and puts it into the queue of the next thread in rotation, and waits while that queue is full; when the
reorder stage has waited 16,384 steps it passes over the number that is missing before its oldest held packet and releases what it held; before
that, and while it holds no packet, it changes nothing (R261, R264, R265). -/
def Obligations.TablesAndSpreading : Prop :=
  ((∀ (n : PipeId) s r rs e w, (s.pipe n).learnQ = r :: rs → r.moved = false → e = learnedEntry r → (s.pipe n).find (emKeyBytes e) = none →
    (s.pipe n).freeWay ((s.pipe n).buckets (emKeyBytes e)).1 = some w →
    ∃ u : State, exec (.learnRequestProcess n) s = .next u ∧ Tab.find w (u.pipe n).ways = some { bytes := e, hit := true } ∧
      (u.pipe n).learnQ = rs ∧ (∀ k, k ≠ w → Tab.find k (u.pipe n).ways = Tab.find k (s.pipe n).ways) ∧ (u.pipe n).stash = (s.pipe n).stash) ∧
  (∀ (n : PipeId) s r rs w o, (s.pipe n).learnQ = r :: rs → r.moved = true → (s.pipe n).find (emKeyBytes (learnedEntry r)) = some (.way w, o) →
    emStatic o.bytes = false → emKind o.bytes = 1 → emDest o.bytes ≠ r.lp →
    ∃ (u : State) (x : EmEntry), exec (.learnRequestProcess n) s = .next u ∧ Tab.find w (u.pipe n).ways = some x ∧
      x = { o with bytes := putBytes o.bytes 20 (toLe 4 r.lp) } ∧ (u.pipe n).learnQ = rs) ∧
  (∀ (n : PipeId) dt s q, s.pipe n = q → q.agingMs ≠ 0 → q.agingDue ≤ (s.clock.advance dt).dev → q.stash = [] →
    Tab.rising q.ways = true → (∀ e ∈ q.ways, q.find (emKeyBytes e.2.bytes) = some (.way e.1, e.2)) →
    ∃ u : State, exec (.agingPass n dt) s = .next u ∧
      (u.pipe n).ways = (q.ways.filter (fun e => emStatic e.2.bytes || e.2.hit)).map (fun e => (e.1, { e.2 with hit := false })) ∧
      (u.pipe n).agingDue = q.agingDue + q.agingMs * 1000000) ∧
  (∀ (n : PipeId) dt s, ((s.pipe n).agingMs = 0 ∨ (s.clock.advance dt).dev < (s.pipe n).agingDue) →
    exec (.agingPass n dt) s = .next (s.advance dt)) ∧
  (∀ (n : PipeId) d s, ∃ (u : State) (k : Nat), exec (.tcamScrub n d) s = .next u ∧ u.flipsOf n = [] ∧ u.net.rules = s.net.rules ∧
    k ≤ (s.flipsOf n).length ∧ ((∃ f ∈ s.flipsOf n, ∃ r ∈ s.rulesOf n, r.id = f.rule ∧ bit r.mask n = true) → 1 ≤ k) ∧
    u.stat 3 (halfOfPipe n) 9227 = (s.stat 3 (halfOfPipe n) 9227 + (k + d)) % 2 ^ 64 ∧
    ∀ eg key, u.tcam n eg key = (s.rulesOf n).find? (fun r => r.egress == eg && bit r.mask n && maskedEq r.kmask r.key key))) ∧
  ((∀ (g : Fin 1024) s x p ps i t, s.spread g = x → x.waitq = p :: ps → x.threads ≠ [] → i = x.rot % x.threads.length → x.threads.getD i 0 = t →
    s.threadLive t = true → s.apart = false → (s.thread t).queue.length < 8 →
    ∃ u : State, exec (.spreaderDispatch g) s = .next u ∧
      (u.thread t).queue = (s.thread t).queue ++ [{ pkt := { p with group := some (g.val, x.next) }, origin := 0, srcId := g.val }] ∧
      u.spread g = { x with waitq := ps, rot := (i + 1) % x.threads.length, next := x.next + 1, out := x.out + 1 } ∧
      OnlyIn [.net, .off, .stats] s u) ∧
  (∀ (g : Fin 1024) s x p ps i t, s.spread g = x → x.waitq = p :: ps → x.threads ≠ [] → i = x.rot % x.threads.length → x.threads.getD i 0 = t →
    s.threadLive t = true → s.apart = false → 8 ≤ (s.thread t).queue.length → exec (.spreaderDispatch g) s = .next s) ∧
  (∀ (g : Fin 1024) st s x n p d, s.spread g = x → x.held = [(n, .forward p d)] → vKind d = 0 → p.ask.tstamp = none → n = x.rel + 1 → 16384 ≤ st →
    ∃ u : State, exec (.reorderTimeout g st) s = .next u ∧ (u.spread g).rel = n + 1 ∧ (u.spread g).held = [] ∧ (u.spread g).out = x.out - 1 ∧
      u.stat 3 x.home (1027 + 8 * g.val) = (s.stat 3 x.home (1027 + 8 * g.val) + 1) % 2 ^ 64) ∧
  (∀ (g : Fin 1024) st s, (st < 16384 ∨ ∀ e ∈ (s.spread g).held, e.2 = .discard) → exec (.reorderTimeout g st) s = .next s))

/-! ## The transport -/

/-- A work request that is fetched becomes a QUEUED message of its SQ's endpoint with the descriptor's fields and the endpoint's next MSG_ID, and is
counted; once no MSG_ID is left it becomes none, counted as failed too. When what it needs has come it goes on: it ends where the device knows no
route to another node, and sends where it has a route and a key (R291, R293, R294, R298, R330). WRITE packets. One that has arrived and passes steps
1 to 6 of R306 goes to the cipher scheduler of its sequencer's half for its tag check; while LRD does not run on the half it is dropped and counted.
One whose tag has verified and that passes the other checks, the first of a message of one packet, has its payload written to its place in the
window and leaves a finished record; one that a record has already received is not written again; one whose endpoint's home is the other half when
split mode holds is dropped and counted (R288, R306, R308, R327, R329, R332). -/
def Obligations.WritesOfMessages : Prop :=
  ((∀ (n : RingNo) b t s r e x, s.ring (sqKey n.toNat) = some r → r.use = .lrd → (s.workOf (sqKey n.toNat)).reading ≠ 0 →
    descError r b t = none → dOpcode b ≠ 0x0F → s.epOfSq n.toNat = some (e, x) → s.ep e = some x → x.destroying = false →
    x.nextMsg ≤ 0xFFFFFFFFFFFF →
    ∃ (u : State) (m : Msg) (y : Ep), exec (.descriptorReadDone n [(b, t)]) s = .next u ∧ u.msg (msgKey e x.nextMsg) = some m ∧
      u.ep e = some y ∧ y.nextMsg = x.nextMsg + 1 ∧ m.fid = r.fid ∧ m.op = dOpcode b ∧ m.user = dUser b ∧ m.len = dLength b ∧
      m.node = le b 16 4 ∧ m.dstEp = le b 20 4 % 1048576 ∧ m.raddr = le b 24 8 ∧ m.rkey = le b 32 4 ∧ m.td = x.td ∧ m.state = .queued ∧
      m.life = 1000 * (if le b 40 2 = 0 then s.lrd.lifeUs else le b 40 2) ∧ u.stat 0 r.fid 8 = (s.stat 0 r.fid 8 + 1) % 2 ^ 64) ∧
  (∀ (n : RingNo) b t s r e x, s.ring (sqKey n.toNat) = some r → r.use = .lrd → (s.workOf (sqKey n.toNat)).reading ≠ 0 →
    descError r b t = none → dOpcode b ≠ 0x0F → s.epOfSq n.toNat = some (e, x) → x.destroying = false → 0xFFFFFFFFFFFF < x.nextMsg →
    ∃ u : State, exec (.descriptorReadDone n [(b, t)]) s = .next u ∧ u.lrd.msgs = s.lrd.msgs ∧
      u.stat 0 r.fid 8 = (s.stat 0 r.fid 8 + 1) % 2 ^ 64 ∧ u.stat 0 r.fid 10 = (s.stat 0 r.fid 10 + 1) % 2 ^ 64) ∧
  (∀ (n : RingNo) data i op s r d e k m, (i, op) ∈ [(Instr.write n data, 0x10), (.read n, 0x11), (.writeNotify n data, 0x12)] →
    s.ring (sqKey n.toNat) = some r → r.use = .lrd → s.nextDesc n.toNat = some d → dOpcode d.bytes = op → d.msg = some (e, k) →
    s.msg (msgKey e k) = some m → m.state = .queued →
    ∃ (u : State) (x : Msg), exec i s = .next u ∧ u.msg (msgKey e k) = some x ∧ x.ready = true ∧
      (x.state ≠ .ended → x.data = if op = 0x11 then [] else slice data 0 m.len) ∧
      (s.apart = false → m.node ≠ s.lrd.nodeId → s.routeTo m.half (slice s.sets.lrdPrefix 0 12 ++ toBe 4 m.node) = none → x.state = .ended) ∧
      (∀ t, s.apart = false → (m.node = s.lrd.nodeId ∨ (s.routeTo m.half (slice s.sets.lrdPrefix 0 12 ++ toBe 4 m.node)).isSome = true) →
        (s.td m.half m.td).sending = some t → s.hasPair m.half (s.pairOf m t.epoch) = true → (x.state = .sending ∨ x.state = .awaiting)))) ∧
  ((∀ (seq : PipeId) s p ps b t, s.net.opened.getD seq [] = [] → s.net.seqIn.getD seq [] = p :: ps → b = lrdBytes p → lrdType b = 1 →
    s.seqCredit seq = true → p.past = false → s.rxPre seq p b = .pass t → (∀ e, s.ep (lrdDstEp b) = some e → e.onChip = true) →
    ∃ u : State, exec (.writePacket seq) s = .next u ∧ u.net.seqIn.getD seq [] = ps ∧
      u.net.inl.getD (halfOfPipe seq) [] = s.net.inl.getD (halfOfPipe seq) [] ++
        [.dec { seq := seq, pkt := p, key := pairKey t.key (lrdTd b) (lrdEpoch b) (lrdSrc b) s.lrd.nodeId }]) ∧
  (∀ (seq : PipeId) s p ps, s.net.opened.getD seq [] = [] → s.net.seqIn.getD seq [] = p :: ps → lrdType (lrdBytes p) = 1 →
    s.seqCredit seq = true → p.past = false → s.lrdRuns (halfOfPipe seq) = false →
    exec (.writePacket seq) s = .next ((s.seqPop seq).bump 3 (halfOfPipe seq) 67)) ∧
  (∀ (seq : PipeId) s p b pay e, Taken s seq p b pay → lrdType b = 1 → s.ep (lrdDstEp b) = some e →
    s.epJudge b = none → s.rec_ (halfOfFid e.fid) (replyOf seq p b) = none → s.guardJudge b = none →
    (s.recs (halfOfFid e.fid)).length < 4194304 → lrdNotify b = false → s.writeJudge (lrdDstEp b) e b = none → lrdLen b ≤ 4096 → pay ≠ [] →
    ∃ (u : State) (o o' : List Out) (x : Rec), exec (.writePacket seq) s = .next u ∧
      u.out = s.out ++ o ++
        ((s.dmaWrite e.fid (BitVec.ofNat 64 (be (lrdExt b) 0 8 + 4096 * lrdIdx b)) pay).out.drop s.out.length) ++ o' ∧
      u.rec_ (halfOfFid e.fid) (replyOf seq p b) = some x ∧ x.state = .finished ∧ x.got = [lrdIdx b] ∧ x.created = s.clock.dev) ∧
  (∀ (seq : PipeId) s p b pay e x, Taken s seq p b pay → lrdType b = 1 → s.ep (lrdDstEp b) = some e →
    s.epJudge b = none → s.rec_ (halfOfFid e.fid) (replyOf seq p b) = some x → x.state = .receiving → lrdIdx b ∈ x.got →
    ∃ (u : State) (y : Rec), exec (.writePacket seq) s = .next u ∧ u.out = s.out ∧
      u.rec_ (halfOfFid e.fid) (replyOf seq p b) = some y ∧ y.got = x.got ∧ y.state = .receiving ∧ y.firstAt.isSome = true) ∧
  (∀ (seq : PipeId) s p pay rest, s.net.opened.getD seq [] = (p, pay) :: rest → lrdType (lrdBytes p) = 1 → s.lrdAcross seq (lrdBytes p) = true →
    ∃ u : State, exec (.writePacket seq) s = .next u ∧ u.net.opened.getD seq [] = rest ∧ u.lrd = s.lrd ∧ u.out = s.out ∧
      u.stat 3 (halfOfPipe seq) 9216 = (s.stat 3 (halfOfPipe seq) 9216 + 1) % 2 ^ 64))

/-- The pacer sends the first waiting packet of the message whose turn it is when its bucket holds the packet's cost and the sequencer has credit at
the cipher scheduler: the packet counts as sent now with the next ATTEMPT, the bucket pays, the sequencer's nonce counter advances, and the
scheduler of the sequencer's half takes the packet; otherwise nothing is sent. A message with a waiting packet whose path has no pacer gets one
where its half has room (R31, R288, R299, R300, R315, R318, R332). At the end of an update interval RATE moves as R317 gives: up by a 64th of the
line while the smallest queuing delay is at most TARGET, otherwise down in proportion, by half at most, within MIN_RATE and the line; before its end
nothing changes but time. -/
def Obligations.PathsAndPacing : Prop :=
  ((∀ (h : Half) (node : BitVec 32) s q p k ks m e i x t b c, s.joinPath (pathKey h node.toNat) = s → s.path (pathKey h node.toNat) = some q → p = q.fill s.clock.dev → p.turn = k :: ks →
    s.msg k = some m → s.ep (epOfMsg k) = some e → m.pkts.find? (fun x => x.2.wait) = some (i, x) → m.state ≠ .backoff → m.state ≠ .ended →
    s.clock.dev ≤ m.deadline → (s.td h m.td).sending = some t → s.hasPair h (s.pairOf m t.epoch) = true → s.tdSent m.td < 2 ^ 48 →
    s.apart = false → (s.saltOf (halfOfPipe m.seq)).isSome = true → b = m.body i x.count → s.seqCredit m.seq = true → p.line = s.lineOf m.route →
    c = paceCost b.1.length b.2.length * 8000000000 → c ≤ p.bucket →
    ∃ (u : State) (y : Path), exec (.pacerSend h node) s = .next u ∧ u.msg k = some (m.sent s.clock.dev i x) ∧
      u.path (pathKey h node.toNat) = some y ∧ y.bucket = p.bucket - c ∧ y.rate = p.rate ∧
      u.lrd.ctr.getD m.seq 0 = s.lrd.ctr.getD m.seq 0 + 1 ∧
      (u.net.inl.getD (halfOfPipe m.seq) []).length = (s.net.inl.getD (halfOfPipe m.seq) []).length + 1) ∧
  (∀ (h : Half) (node : BitVec 32) s q p k ks m e i x t b c, s.joinPath (pathKey h node.toNat) = s → s.path (pathKey h node.toNat) = some q → p = q.fill s.clock.dev → p.turn = k :: ks →
    s.msg k = some m → s.ep (epOfMsg k) = some e → m.pkts.find? (fun x => x.2.wait) = some (i, x) → m.state ≠ .backoff → m.state ≠ .ended →
    s.clock.dev ≤ m.deadline → (s.td h m.td).sending = some t → s.hasPair h (s.pairOf m t.epoch) = true → s.tdSent m.td < 2 ^ 48 →
    s.apart = false → b = m.body i x.count → c = paceCost b.1.length b.2.length * 8000000000 → (s.seqCredit m.seq = false ∨ p.bucket < c) →
    exec (.pacerSend h node) s = .next (s.setPath (pathKey h node.toNat) p)) ∧
  (∀ (h : Half) (node : BitVec 32) s k m, s.path (pathKey h node.toNat) = none → s.msg k = some m → m.half = (h : Nat) → m.node = node.toNat →
    m.state = .sending → m.pkts.any (fun e => e.2.wait) = true → s.lrd.paths.countV (fun k _ => k / 4294967296 == (h : Nat)) < 131072 →
    ∃ (u : State) (p : Path), exec (.pacerSend h node) s = .next u ∧ u.path (pathKey h node.toNat) = some p)) ∧
  ((∀ (h : Half) (node : BitVec 32) dt s p t, s.path (pathKey h node.toNat) = some p → p.since = some t →
    t + max p.srtt 4000 ≤ (s.clock.advance dt).dev →
    ∃ (u : State) (q : Path), exec (.pathUpdateInterval h node dt) s = .next u ∧ u.path (pathKey h node.toNat) = some q ∧
      q.rate = (if p.qmin ≤ s.lrd.target then min p.line (p.rate + p.line / 64)
        else max 1000000000 (max (p.rate / 2) (p.rate * s.lrd.target / p.qmin))) ∧
      q.since = none ∧ q.srtt = p.srtt ∧ q.rttMin = p.rttMin ∧ q.turn = p.turn ∧
      (∀ k, k ≠ pathKey h node.toNat → u.path k = s.path k) ∧ OnlyIn [.clock, .lrd] s u) ∧
  (∀ (h : Half) (node : BitVec 32) dt s p t, s.path (pathKey h node.toNat) = some p → p.since = some t →
    (s.clock.advance dt).dev < t + max p.srtt 4000 → exec (.pathUpdateInterval h node dt) s = .next (s.advance dt)))

/-- Timers of a message: an expiry of its retransmission timer doubles its RTO up to 500 us once, whatever falls due, and hands a packet that is due
to the pacer again; RETRY_US over, a message leaves BACKOFF for SENDING while some packet has never been handed over; a message whose life is over
ends (R298, R300, R301, R303, R317). Timers of records: 4 us after the first packet since the last ACK the ACK is sent and its count begins anew;
T_keep after its creation a record that is not RELEASED is removed, one in RECEIVING counted in PARTIAL_EXPIRED; a RELEASED one is removed when its
time has passed (R308, R309). -/
def Obligations.TransportTimers : Prop :=
  ((∀ (ep : BitVec 20) (id : BitVec 48) dt s m k, k = msgKey ep.toNat id.toNat → s.msg k = some m → (m.state = .sending ∨ m.state = .awaiting) →
    m.due (s.clock.advance dt).dev ≠ [] →
    ∃ (u : State) (n : Msg), exec (.retransmitTimer ep id dt) s = .next u ∧ u.msg k = some n ∧ n.rto = min 500000 (2 * m.rto) ∧
      n.state = m.state ∧ n.base = m.base ∧
      (∀ i x, m.due (s.clock.advance dt).dev = [(i, x)] → m.isRead = false → Tab.find i n.pkts = some { x with wait := true }) ∧
      (∀ p, s.path m.path = some p → p.line = s.lineOf m.route → ∃ q, u.path m.path = some q ∧ q.rate = (if p.halved then p.rate else max 1000000000 (p.rate / 2)))) ∧
  (∀ (ep : BitVec 20) (id : BitVec 48) dt s m k, k = msgKey ep.toNat id.toNat → s.msg k = some m → m.state = .backoff →
    m.until_ ≤ (s.clock.advance dt).dev →
    ∃ (u : State) (n : Msg), exec (.backoffEnd ep id dt) s = .next u ∧ u.msg k = some n ∧ (n.state = .sending ∨ n.state = .awaiting) ∧
      (m.next < m.count → n.state = .sending) ∧ n.rto = m.rto) ∧
  (∀ (ep : BitVec 20) (id : BitVec 48) dt s m k, k = msgKey ep.toNat id.toNat → s.msg k = some m → m.state ≠ .ended →
    m.deadline ≤ (s.clock.advance dt).dev →
    ∃ (u : State) (n : Msg), exec (.messageLifetimeExpiry ep id dt) s = .next u ∧ u.msg k = some n ∧ n.state = .ended ∧ n.pkts = [] ∧
      u.stat 0 m.fid 11 = (s.stat 0 m.fid 11 + 1) % 2 ^ 64)) ∧
  ((∀ (h : Half) (nd : BitVec 32) (ep : BitVec 20) (id : BitVec 48) dt s x t, s.recAt h nd.toNat ep.toNat id.toNat = some x → x.state = .receiving →
    x.firstAt = some t → t + 4000 ≤ (s.clock.advance dt).dev →
    ∃ (u : State) (y : Rec), exec (.ackTimer h nd ep id dt) s = .next u ∧ u.recAt h nd.toNat ep.toNat id.toNat = some y ∧ y.newly = 0 ∧
      y.firstAt = none ∧ y.got = x.got ∧ y.state = .receiving) ∧
  (∀ (h : Half) (nd : BitVec 32) (ep : BitVec 20) (id : BitVec 48) dt s x, s.recAt h nd.toNat ep.toNat id.toNat = some x →
    x.created + 3000000 ≤ (s.clock.advance dt).dev → (x.state = .receiving ∨ x.state = .finished ∨ ∃ c, x.state = .failed c) →
    ∃ u : State, exec (.recordExpiry h nd ep id dt) s = .next u ∧ u.recs h = (s.recs h).filter (fun y => !y.reply.sameMsg x.reply) ∧
      u.stat 3 h 79 = (if x.state = .receiving then (s.stat 3 h 79 + 1) % 2 ^ 64 else s.stat 3 h 79) ∧ OnlyIn [.clock, .lrd, .stats] s u) ∧
  (∀ (h : Half) (nd : BitVec 32) (ep : BitVec 20) (id : BitVec 48) dt s x t, s.recAt h nd.toNat ep.toNat id.toNat = some x → x.state = .released t →
    t < (s.clock.advance dt).dev →
    ∃ u : State, exec (.releasedRecordExpiry h nd ep id dt) s = .next u ∧ u.recs h = (s.recs h).filter (fun y => !y.reply.sameMsg x.reply) ∧
      OnlyIn [.clock, .lrd] s u))

/-- Keys and guards: 1 s after TD_KEY_SET sending uses CURRENT and its count begins anew; the start guard ends at G0 + T_keep; a derivation that
ends lets the packets that waited for its key go on, in order (R285, R287, R290, R305). Endpoint contexts: a packet whose context is off chip waits
in the miss queue, and the context is read; a context that returns while the half has room is on chip and the packets that waited leave the queue; a
context read that fails aborts the owner and counts them in MISSQ_DROP; the least recently used unpinned context is written back to its slot, unless
an arrival cancels that, which is counted (R53, R306, R319, R320, R321). -/
def Obligations.KeysAndContexts : Prop :=
  ((∀ (td : Fin 4096) dt s t, (s.td 0 td).switchAt = some t → t ≤ (s.clock.advance dt).dev →
    ∃ u : State, exec (.sendingKeySwitch td dt) s = .next u ∧ (u.td 0 td).switchAt = none ∧ (u.td 0 td).sending = (s.td 0 td).cur ∧ u.tdSent td = 0 ∧
      OnlyIn [.clock, .lrd] s u) ∧
  (∀ dt s g v, v = s.advance dt → v.clock.startG0 = some g → g + 3000000 ≤ v.clock.dev →
    exec (.startGuardEnd dt) s = .next { v with clock := { v.clock with startG0 := none } }) ∧
  (∀ (seq : PipeId) s k ks w mine, s.lrd.derive_.getD seq [] = k :: ks → w = s.lrd.keyWait.getD seq [] →
    mine = (fun p => lrdTd (lrdBytes p) == k.td && lrdEpoch (lrdBytes p) == k.epoch && lrdSrc (lrdBytes p) == k.src) →
    ∃ u : State, exec (.keyDerivationDone seq) s = .next u ∧ u.lrd.keyWait.getD seq [] = w.filter (fun p => !mine p) ∧
      u.net.seqIn.getD seq [] = w.filter mine ++ s.net.seqIn.getD seq [] ∧
      (s.lrd.msgs = [] → u.lrd.derive_.getD seq [] = ks ∧
        (((s.td (halfOfPipe seq) k.td).byEpoch k.epoch).isSome = true → u.hasPair (halfOfPipe seq) k = true)))) ∧
  ((∀ (seq : PipeId) s p ps b t e q, s.net.opened.getD seq [] = [] → s.net.seqIn.getD seq [] = p :: ps → b = lrdBytes p → lrdType b = 1 →
    s.seqCredit seq = true → p.past = false → s.rxPre seq p b = .pass t → s.ep (lrdDstEp b) = some e → e.onChip = false →
    q = s.missQ (halfOfFid e.fid) → q.length < 4096 → q.countP (fun x => lrdDstEp (lrdBytes x) == lrdDstEp b) < 256 →
    ∃ u : State, exec (.writePacket seq) s = .next u ∧ u.missQ (halfOfFid e.fid) = q ++ [{ p with pipe := seq.val }] ∧
      (u.ep (lrdDstEp b)).map (·.fetching) = some true ∧ u.net.seqIn.getD seq [] = ps) ∧
  (∀ (n : BitVec 20) s e q mine, s.ep n.toNat = some e → e.fetching = true → mine = (fun p => lrdDstEp (lrdBytes p) == n.toNat) →
    q = s.missQ (halfOfFid e.fid) → s.epsOnChip (halfOfFid e.fid) < 65536 →
    ∃ (u : State) (y : Ep), exec (.contextFetchDone n true) s = .next u ∧ u.ep n.toNat = some y ∧ y.onChip = true ∧ y.fetching = false ∧
      y.gen = e.gen ∧ u.missQ (halfOfFid e.fid) = q.filter (fun p => !mine p)) ∧
  (∀ (n : BitVec 20) s e q mine, s.ep n.toNat = some e → e.fetching = true → mine = (fun p => lrdDstEp (lrdBytes p) == n.toNat) →
    q = s.missQ (halfOfFid e.fid) → (s.fn e.fid).state = .active →
    ∃ u : State, exec (.contextFetchDone n false) s = .next u ∧ LeftActive s u e.fid 4 ∧
      u.missQ (halfOfFid e.fid) = q.filter (fun p => !mine p) ∧
      u.stat 3 (halfOfFid e.fid) 73 = (s.stat 3 (halfOfFid e.fid) 73 + q.countP mine) % 2 ^ 64) ∧
  (∀ (n : BitVec 20) s e, s.ep n.toNat = some e → s.lruEp (halfOfFid e.fid) = some n.toNat → s.epArrival n.toNat = false →
    ∃ (u : State) (c : Bytes), exec (.contextEviction n) s = .next u ∧ u.ep n.toNat = some { e with onChip := false } ∧ c.length = 256 ∧
      u.out = (s.dmaWrite e.fid (s.slotOfEp e) c).out ∧ ∀ k, k ≠ n.toNat → u.ep k = s.ep k) ∧
  (∀ (n : BitVec 20) s e, s.ep n.toNat = some e → s.lruEp (halfOfFid e.fid) = some n.toNat → s.epArrival n.toNat = true →
    exec (.contextEviction n) s = .next ((s.bump 3 (halfOfFid e.fid) 76).touchEp n.toNat)))

/-- Remote reads: a READ_REQ that passes every check reads the host memory it names, and a read that fails aborts the owner; a READ_RESP whose index
is new is written to its place in the destination buffer, and the last one ends the message (R306, R312, R313, R314). Answers to a message: an ACK
with DONE ends it, one without takes BASE_IDX on; a NAK BUSY holds it for RETRY_US, any other NAK ends it; a RELEASE of a finished record makes it
RELEASED (R298, R301, R302, R308, R323). -/
def Obligations.ReadsAndAnswers : Prop :=
  ((∀ (seq : PipeId) s p b pay e d first count, Taken s seq p b pay → lrdType b = 2 → s.ep (lrdDstEp b) = some e →
    s.epJudge b = none → s.winJudge (lrdDstEp b) e (be (lrdExt b) 8 4) 1 (be (lrdExt b) 0 8) (lrdLen b) = none → first = be (lrdExt b) 12 2 →
    count = be (lrdExt b) 14 2 → lrdLen b ≠ 0 → lrdLen b ≤ 16777216 → count ≠ 0 → first + count ≤ pktCount (lrdLen b) →
    ∃ (u : State) (o : List Out), exec (.readReq seq (some d)) s = .next u ∧
      u.out = (s.issueRead e.fid (BitVec.ofNat 64 (be (lrdExt b) 0 8 + 4096 * first)) (min (4096 * count) (lrdLen b - 4096 * first))
        (.response (lrdDstEp b))).out ++ o) ∧
  (∀ (seq : PipeId) s p b pay e, Taken s seq p b pay → lrdType b = 2 → s.ep (lrdDstEp b) = some e →
    s.epJudge b = none → s.winJudge (lrdDstEp b) e (be (lrdExt b) 8 4) 1 (be (lrdExt b) 0 8) (lrdLen b) = none →
    lrdLen b ≠ 0 → lrdLen b ≤ 16777216 → be (lrdExt b) 14 2 ≠ 0 → be (lrdExt b) 12 2 + be (lrdExt b) 14 2 ≤ pktCount (lrdLen b) →
    (s.fn e.fid).state = .active → ∃ u : State, exec (.readReq seq none) s = .next u ∧ LeftActive s u e.fid 4) ∧
  (∀ (seq : PipeId) s p b pay k m a n, Taken s seq p b pay → lrdType b = 3 → s.msgOf b = some (k, m) → m.isRead = true →
    lrdIdx b ∉ m.got → payOk m.len (lrdIdx b) (lrdPay b) = true → m.frags = [(a, n)] → 4096 * lrdIdx b + pay.length ≤ n → pay ≠ [] →
    ∃ (u : State) (x : Msg), exec (.readResp seq) s = .next u ∧ u.out = (s.dmaWrite m.fid (a + BitVec.ofNat 64 (4096 * lrdIdx b)) pay).out ∧
      u.msg k = some x ∧ x.got = m.got ++ [lrdIdx b] ∧ (x.got.length = m.count ↔ x.state = .ended))) ∧
  ((∀ (seq : PipeId) s p b pay k m, Taken s seq p b pay → lrdType b = 4 → s.msgOf b = some (k, m) → m.isRead = false →
    bit (be (lrdExt b) 14 2) 8 = true →
    ∃ (u : State) (x : Msg), exec (.ack seq) s = .next u ∧ u.msg k = some x ∧ x.state = .ended) ∧
  (∀ (seq : PipeId) s p b pay k m, Taken s seq p b pay → lrdType b = 4 → s.msgOf b = some (k, m) → m.isRead = false →
    bit (be (lrdExt b) 14 2) 8 = false →
    ∃ (u : State) (x : Msg), exec (.ack seq) s = .next u ∧ u.msg k = some x ∧ x.state = m.state ∧ x.base = max m.base (be (lrdExt b) 12 2)) ∧
  (∀ (seq : PipeId) s p b pay k m, Taken s seq p b pay → lrdType b = 5 → s.msgOf b = some (k, m) → be (lrdExt b) 8 1 = 1 →
    (m.state = .sending ∨ m.state = .awaiting) →
    ∃ (u : State) (x : Msg), exec (.nak seq) s = .next u ∧ u.msg k = some x ∧ x.state = .backoff ∧
      x.until_ = s.clock.dev + 1000 * be (lrdExt b) 10 2 ∧ x.pkts = m.pkts) ∧
  (∀ (seq : PipeId) s p b pay k m, Taken s seq p b pay → lrdType b = 5 → s.msgOf b = some (k, m) → 2 ≤ be (lrdExt b) 8 1 →
    be (lrdExt b) 8 1 ≤ 9 → ∃ (u : State) (x : Msg), exec (.nak seq) s = .next u ∧ u.msg k = some x ∧ x.state = .ended) ∧
  (∀ (seq : PipeId) s p b pay x h, Taken s seq p b pay → lrdType b = 6 → h = (s.homeOf (lrdDstEp b)).getD (halfOfPipe seq) →
    s.rec_ h (replyOf seq p b) = some x → x.state = .finished →
    ∃ u : State, exec (.release seq) s = .next u ∧ u.rec_ h (replyOf seq p b) = some
      { x with state := .released (max s.clock.dev (s.stampNs (BitVec.ofNat 64 (be (lrdExt b) 0 8)) + 2000000)) }))

/-! ## The cipher engine -/

/-- Bulk jobs: as its descriptor comes, an ENCRYPT whose key passes the checks takes the key's next counter value and a DECRYPT the value given, and
one whose key fails them ends with nothing drawn; when its input has come the job joins its half's queue; a job that is done frees its core, an
ENCRYPT writing its ciphertext and then its tag, and a held DECRYPT whose tag does not verify writing nothing, and neither does a job whose key is
lost (R340, R349, R351, R360, R362, R363, R364, R365). The scheduler: with no inline work waiting, or with no free core but the one kept for bulk
jobs, the first bulk job that may start takes the first free core when its key is cached, otherwise its key is read; with no bulk job waiting the
first inline job that needs no key read is handled at once, an LRD packet by a core that encrypts or checks it. While an inline job waits, be it for
its key, no bulk job starts but on the core kept for them. A key that has been unwrapped enters the cache first; one whose check fails is LOST and
the jobs that wait for it end (R31, R333, R340, R341, R354). -/
def Obligations.CipherJobsAndScheduling : Prop :=
  ((∀ (n : RingNo) b t s r k, s.ring (sqKey n.toNat) = some r → r.use = .cipher → (s.workOf (sqKey n.toNat)).reading ≠ 0 → descError r b t = none →
    dOpcode b = 0x20 → s.keyCheck r.fid (le b 16 4) (dLength b - le b 20 3) true = none → s.keyOf (handleSlot (le b 16 4)) = some k →
    ∃ (u : State) (d : FDesc), exec (.descriptorReadDone n [(b, t)]) s = .next u ∧ d ∈ (u.workOf (sqKey n.toNat)).fetched ∧ d.bytes = b ∧
      d.taken = true ∧ d.ctr = some k.used ∧ u.keyOf (handleSlot (le b 16 4)) = some { k with used := k.used + 1 } ∧
      (∀ m, m ≠ handleSlot (le b 16 4) → u.keyOf m = s.keyOf m)) ∧
  (∀ (n : RingNo) b t s r, s.ring (sqKey n.toNat) = some r → r.use = .cipher → (s.workOf (sqKey n.toNat)).reading ≠ 0 → descError r b t = none →
    dOpcode b = 0x21 → s.keyCheck r.fid (le b 16 4) (dLength b - le b 20 3) false = none →
    ∃ (u : State) (d : FDesc), exec (.descriptorReadDone n [(b, t)]) s = .next u ∧ d ∈ (u.workOf (sqKey n.toNat)).fetched ∧ d.bytes = b ∧
      d.taken = true ∧ d.ctr = some (le b 40 8) ∧ (∀ m, u.keyOf m = s.keyOf m)) ∧
  (∀ (n : RingNo) b t s r st, s.ring (sqKey n.toNat) = some r → r.use = .cipher → (s.workOf (sqKey n.toNat)).reading ≠ 0 → descError r b t = none →
    (dOpcode b = 0x20 ∨ dOpcode b = 0x21) → s.keyCheck r.fid (le b 16 4) (dLength b - le b 20 3) (dOpcode b == 0x20) = some st →
    ∃ u : State, exec (.descriptorReadDone n [(b, t)]) s = .next u ∧ (∀ h, u.bulkQ h = s.bulkQ h) ∧ (∀ m, u.keyOf m = s.keyOf m) ∧
      u.stat 0 r.fid 193 = (s.stat 0 r.fid 193 + 1) % 2 ^ 64) ∧
  (∀ (n : RingNo) input s r d h, s.ring (sqKey n.toNat) = some r → s.nextDesc n.toNat = some d → dOpcode d.bytes = 0x20 → d.taken = true →
    h = engineOfSq n.toNat / 16 →
    ∃ (u : State) (j : BulkJob), exec (.encrypt n input) s = .next u ∧ u.bulkQ h = s.bulkQ h ++ [j] ∧ j.fid = r.fid ∧ j.sq = n.toNat ∧
      j.index = d.index ∧ j.bytes = d.bytes ∧ j.ctr = d.ctr ∧ j.input = slice input 0 (dLength d.bytes) ∧ (∀ m, u.keyOf m = s.keyOf m)) ∧
  (∀ (n : RingNo) input tag s r d h, s.ring (sqKey n.toNat) = some r → s.nextDesc n.toNat = some d → dOpcode d.bytes = 0x21 → d.taken = true →
    h = engineOfSq n.toNat / 16 →
    ∃ (u : State) (j : BulkJob), exec (.decrypt n input tag) s = .next u ∧ u.bulkQ h = s.bulkQ h ++ [j] ∧ j.fid = r.fid ∧ j.sq = n.toNat ∧
      j.index = d.index ∧ j.bytes = d.bytes ∧ j.ctr = d.ctr ∧ j.input = slice input 0 (dLength d.bytes) ∧ j.tag = slice tag 0 16 ∧
      (∀ m, u.keyOf m = s.keyOf m)) ∧
  (∀ (c : CipherCoreId) s j k x, Tab.find c.val s.cry.cores = some j → j.enc = true → s.keyOf j.slot = some k → k.lost = false →
    x = aeadSeal k.alg k.key (keyNonce k.salt (j.ctr.getD 0)) (j.input.take j.aadLen) (j.input.drop j.aadLen) →
    ∃ u : State, exec (.cipherJobDone c) s = .next u ∧ Tab.find c.val u.cry.cores = none ∧
      u.out = ((if x.1.isEmpty then s else s.dmaWrite j.fid j.dst x.1).dmaWrite j.fid j.tagAddr x.2).out ∧
      u.stat 0 j.fid 192 = (s.stat 0 j.fid 192 + 1) % 2 ^ 64 ∧ u.stat 0 j.fid 195 = (s.stat 0 j.fid 195 + j.textLen) % 2 ^ 64) ∧
  (∀ (c : CipherCoreId) s j k, Tab.find c.val s.cry.cores = some j → j.enc = false → j.streamed = false → s.keyOf j.slot = some k → k.lost = false →
    (aeadOpen k.alg k.key (keyNonce k.salt (j.ctr.getD 0)) (j.input.take j.aadLen) (j.input.drop j.aadLen) j.tag).2 = false →
    ∃ u : State, exec (.cipherJobDone c) s = .next u ∧ Tab.find c.val u.cry.cores = none ∧ u.out = s.out ∧
      u.stat 0 j.fid 194 = (s.stat 0 j.fid 194 + 1) % 2 ^ 64) ∧
  (∀ (c : CipherCoreId) s j, Tab.find c.val s.cry.cores = some j → (∀ k, s.keyOf j.slot = some k → k.lost = true) → j.streamed = false →
    ∃ u : State, exec (.cipherJobDone c) s = .next u ∧ Tab.find c.val u.cry.cores = none ∧ u.out = s.out ∧
      u.stat 0 j.fid 193 = (s.stat 0 j.fid 193 + 1) % 2 ^ 64)) ∧
  ((∀ (h : Half) s c cs j js k, (s.inlQ h = [] ∨ (cs = [] ∧ (s.cipherCores h).head? = some c)) → s.bulkQ h = j :: js → s.bulkReady h j = true →
    s.freeCores h = c :: cs → s.keyOf j.slot = some k → k.lost = false → j.slot ∈ s.keyCache h →
    ∃ u : State, exec (.cipherDispatch h) s = .next u ∧ Tab.find c u.cry.cores = some j ∧ u.bulkQ h = js ∧ OnlyIn [.cry, .net] s u) ∧
  (∀ (h : Half) s c cs j js k, s.inlQ h = [] → s.bulkQ h = j :: js → s.bulkReady h j = true → s.freeCores h = c :: cs →
    s.keyOf j.slot = some k → k.lost = false → j.slot ∉ s.keyCache h → exec (.cipherDispatch h) s = .next (s.missKey j.slot).pumpCry) ∧
  (∀ (h : Half) s c cs j js, s.bulkQ h = [] → s.inlQ h = .esp j :: js → s.freeCores h = c :: cs → s.inlineSlot j = none →
    exec (.cipherDispatch h) s = .next ((s.setInl h js).runInline h j).pumpCry) ∧
  (∀ (h : Half) s c cs j js, s.bulkQ h = [] → s.inlQ h = .enc j :: js → s.freeCores h = c :: cs →
    exec (.cipherDispatch h) s = .next ((((s.setInl h js).sealOut j).pumpSeq j.seq 64).pumpCry)) ∧
  (∀ (h : Half) s c cs j js, s.bulkQ h = [] → s.inlQ h = .dec j :: js → s.freeCores h = c :: cs →
    exec (.cipherDispatch h) s = .next ((((s.setInl h js).openOut j).pumpSeq j.seq 64).pumpCry)) ∧
  (∀ (slot : BitVec 18) s n h, n = slot.toNat → h = halfOfSlot n → n ∈ s.cry.unwrapping → (s.keyCache h).length < 8192 →
    ∃ u : State, exec (.keyUnwrapDone slot true) s = .next u ∧ u.keyCache h = n :: (s.keyCache h).filter (· != n) ∧
      n ∉ u.cry.unwrapping ∧ OnlyIn [.cry] s u) ∧
  (∀ (slot : BitVec 18) s n h k, n = slot.toNat → h = halfOfSlot n → n ∈ s.cry.unwrapping → s.keyOf n = some k →
    ∃ u : State, exec (.keyUnwrapDone slot false) s = .next u ∧ u.keyOf n = some { k with lost := true } ∧
      u.bulkQ h = (s.bulkQ h).filter (fun j => j.slot != n) ∧ n ∉ u.cry.unwrapping) ∧
  (∀ (h : Half) s, s.inlQ h ≠ [] → (∀ j ∈ s.inlQ h, s.inlineReady j = false) → (∀ c, (s.cipherCores h).head? = some c → c ∉ s.freeCores h) →
    exec (.cipherDispatch h) s = .next s.pumpCry))

/-- Known-answer tests: a core in service that fails leaves service, KAT_FAIL advances, and its job waits again first in its half's queue with its
nonce; one that passes is left as it is; a withdrawn core that passes returns, one that fails stays out (R336, R351). An alarm zeroes the key store
on both halves: the key-wrapping keys, the caches, every slot's key, which is LOST, the trust-domain keys and the derived keys; every bulk job ends
and no LRD packet waits in a scheduler; a latched one also zeroes the installation keys. 10 ms after a recoverable alarm the engine is READY with
new key-wrapping keys and every slot still LOST; a latched alarm stays. A core voltage within the limits of the mode in effect, those of both set
points during a slew, raises none (R340, R370, R371, R372, R373, R508). -/
def Obligations.CipherTestsAndAlarms : Prop :=
  ((∀ (c : CipherCoreId) s j, c.val ∈ s.cipherCores (c.val / 20) → Tab.find c.val s.cry.cores = some j →
    ∃ u : State, exec (.knownAnswerTest c false) s = .next u ∧ c.val ∉ u.cipherCores (c.val / 20) ∧ Tab.find c.val u.cry.cores = none ∧
      u.bulkQ (c.val / 20) = j :: s.bulkQ (c.val / 20) ∧ u.stat 3 (c.val / 20) 148 = (s.stat 3 (c.val / 20) 148 + 1) % 2 ^ 64) ∧
  (∀ (c : CipherCoreId) s, exec (.knownAnswerTest c true) s = .next s) ∧
  (∀ (c : CipherCoreId) s, c.val ∈ s.cry.withdrawn →
    exec (.katRetest c true) s = .next (s.modCry (fun x => { x with withdrawn := x.withdrawn.filter (· != c.val) }))) ∧
  (∀ (c : CipherCoreId) s, c.val ∈ s.cry.withdrawn →
    ∃ u : State, exec (.katRetest c false) s = .next u ∧ c.val ∉ u.cipherCores (c.val / 20) ∧
      u.stat 3 (c.val / 20) 148 = (s.stat 3 (c.val / 20) 148 + 1) % 2 ^ 64)) ∧
  ((∀ a s, ∃ u : State, exec (.cipherAlarm a) s = .next u ∧ u.cry.kwkW = none ∧ u.cry.kwkE = none ∧ u.cry.cacheW = [] ∧ u.cry.cacheE = [] ∧
    (∀ n k, u.keyOf n = some k → k.lost = true ∧ k.key = []) ∧ u.lrd.tdW = [] ∧ u.lrd.tdE = [] ∧ u.lrd.keysW = [] ∧ u.lrd.keysE = [] ∧
    (∀ h, h < 2 → u.bulkQ h = [] ∧ (∀ j ∈ u.inlQ h, ∃ x, j = .esp x)) ∧ (∀ c, c < 40 → Tab.find c u.cry.cores = none) ∧
    u.cry.alarmAt = s.clock.now ∧
    (u.cry.state = if alarmLatched a ∨ s.cry.state = .zeroLatched then .zeroLatched else .zeroRecoverable) ∧ (alarmLatched a = true → u.cry.kiks = [])) ∧
  (∀ dt s, s.cry.state = .zeroRecoverable → s.cry.alarmAt + 10000000 ≤ s.clock.now + dt →
    ∃ u : State, exec (.alarmRecovery dt) s = .next u ∧ u.cry.state = .ready ∧ u.cry.kwkW.isSome = true ∧ u.cry.kwkE.isSome = true ∧
      (∀ n, u.keyOf n = s.keyOf n) ∧ u.lrd.tdW = s.lrd.tdW ∧ u.lrd.tdE = s.lrd.tdE) ∧
  (∀ dt s, s.cry.state = .zeroLatched → exec (.alarmRecovery dt) s = .next (s.advance dt)) ∧
  (∀ (d : Half) mv (s : State), s.power.voltBad d mv = false → exec (.cipherAlarm .voltage (some (d, mv))) s = .next s))

/-! ## Offload threads -/

/-- Events: WAIT and POLL return the pending bits of their mask and clear the edges among them; a WAIT with none pending parks the thread, which
completes when one is pending and it owns a slot. SIGNAL's bits reach their target, in any state. TIMER arms or disarms; its event comes when device
time reaches it. EVCLR clears edges (R390, R396, R397, R398). The stall sentinel of a quiet core fires once: CORE_STALLS advances, and thread 0, if
it can be woken, gets EV_CORE_STALL in RUN mode and traps with cause 26 to its handler in another mode, its mepc on the instruction it stood at; the
core then is quiet no more. On a core that is not quiet it does nothing. A slot table that waits takes effect at a rotation's start (R386, R394,
R399). -/
def Obligations.ThreadEventsAndSentinel : Prop :=
  ((∀ (t : ThreadId) (rd rs1 : RegNo) s th b, s.issues t = true → th = s.thread t → b = s.pendingBits t &&& s.waitMask t (s.rv t rs1) → b ≠ 0 →
    ∃ u : State, exec (.lysWait t rd rs1) s = .next u ∧ ThreadOnly t ({ th with events := th.events &&& ~~~b }.past rd b 4) s u) ∧
  (∀ (t : ThreadId) (rd rs1 : RegNo) s th, s.issues t = true → th = s.thread t → s.pendingBits t &&& s.waitMask t (s.rv t rs1) = 0 →
    ∃ u : State, exec (.lysWait t rd rs1) s = .next u ∧
      ThreadOnly t { th with state := .waiting, mask := s.rv t rs1, waitRd := rd } s u) ∧
  (∀ (t : ThreadId) (rd rs1 : RegNo) s th b, s.issues t = true → th = s.thread t → b = s.pendingBits t &&& s.waitMask t (s.rv t rs1) →
    ∃ u : State, exec (.lysPoll t rd rs1) s = .next u ∧ ThreadOnly t ({ th with events := th.events &&& ~~~b }.past rd b 4) s u) ∧
  (∀ (t : ThreadId) s th b, th = s.thread t → th.state = .waiting → s.slotsOf t ≠ 0 → b = s.pendingBits t &&& s.waitMask t th.mask → b ≠ 0 →
    ∃ u : State, exec (.threadWake t) s = .next u ∧
      ThreadOnly t ({ th with state := .running, events := th.events &&& ~~~b }.past th.waitRd b 4) s u) ∧
  (∀ (t : ThreadId) (rd rs1 rs2 : RegNo) s x, s.issues t = true → x = (s.rv t rs1).toNat → x < 2048 →
    (s.apart = false ∨ halfOfThread x = halfOfThread t) →
    ∃ u : State, exec (.lysSignal t rd rs1 rs2) s = .next u ∧ (u.thread x).coming = (s.thread x).coming ||| (s.rv t rs2 &&& 0xFFFF) <<< 16 ∧
      (∀ y, y ≠ x → (u.thread y).coming = (s.thread y).coming) ∧ (u.thread t).regs = ((s.thread t).setReg rd 0).regs ∧
      (u.thread t).pc = (s.thread t).pc + 4 ∧ OnlyIn [.off] s u) ∧
  (∀ (t : ThreadId) s th, th = s.thread t →
    ∃ u : State, exec (.signalDelivery t) s = .next u ∧ ThreadOnly t { th with events := th.events ||| th.coming, coming := 0 } s u) ∧
  (∀ (t : ThreadId) (rs1 : RegNo) s th n, s.issues t = true → th = s.thread t → n = s.rv t rs1 → n.toNat ≤ 0xFFFFFFFF →
    ∃ u : State, exec (.lysTimer t rs1) s = .next u ∧
      ThreadOnly t ({ th with timer := if n = 0 then none else some (s.clock.dev + n.toNat) }.past 0 0 4) s u) ∧
  (∀ (t : ThreadId) dt s th e, th = s.thread t → th.timer = some e → e ≤ (s.advance dt).clock.dev →
    ∃ u : State, exec (.evTimer t dt) s = .next u ∧ ThreadOnly t { th with timer := none, events := th.events ||| 1 } (s.advance dt) u) ∧
  (∀ (t : ThreadId) dt s e, (s.thread t).timer = some e → (s.advance dt).clock.dev < e → exec (.evTimer t dt) s = .next (s.advance dt)) ∧
  (∀ (t : ThreadId) (rs1 : RegNo) s th, s.issues t = true → th = s.thread t →
    ∃ u : State, exec (.lysEvclr t rs1) s = .next u ∧ ThreadOnly t ({ th with events := th.events &&& ~~~s.rv t rs1 }.past 0 0 4) s u)) ∧
  ((∀ (c : CoreId) s, s.coreQuiet c = false → exec (.stallSentinel c) s = .next s) ∧
  (∀ (c : CoreId) s t, t = 16 * c.val → s.coreQuiet c = true → (s.core c).fired = false → s.isRetired 7 c = false → (s.core c).mode = 2 →
    (s.thread t).state.off = false → s.slotsOf t ≠ 0 →
    ∃ u : State, exec (.stallSentinel c) s = .next u ∧ (u.core c).fired = true ∧ u.stat 3 (halfOfCore c) 193 = (s.stat 3 (halfOfCore c) 193 + 1) % 2 ^ 64 ∧
      u.thread t = { s.thread t with events := (s.thread t).events ||| 0x8000000000000000 } ∧ OnlyIn [.off, .stats] s u) ∧
  (∀ (c : CoreId) s t, t = 16 * c.val → s.coreQuiet c = true → (s.core c).fired = false → s.isRetired 7 c = false → (s.core c).mode ≠ 2 →
    (s.thread t).state.off = false → s.slotsOf t ≠ 0 → (s.thread t).mtvec ≠ 0 →
    ∃ u : State, exec (.stallSentinel c) s = .next u ∧ (u.core c).fired = false ∧ u.stat 3 (halfOfCore c) 193 = (s.stat 3 (halfOfCore c) 193 + 1) % 2 ^ 64 ∧
      (u.thread t).state = .running ∧ (u.thread t).pc = (s.thread t).mtvec ∧ (u.thread t).mepc = (s.thread t).pc ∧ (u.thread t).mcause = 26 ∧
      (u.thread t).regs = (s.thread t).regs) ∧
  (∀ (c : CoreId) s x, (s.core c).next = some x →
    ∃ u : State, exec (.slotTableSwitch c) s = .next u ∧ (u.core c).slots = x ∧ (u.core c).next = none ∧ (u.core c).mode = (s.core c).mode ∧
      (∀ t, u.thread t = s.thread t) ∧ (∀ d, d ≠ c.val → u.core d = s.core d) ∧ OnlyIn [.off] s u))

/-- Channels: word 0 takes the lease and room for one message, words 1 to 6 join the assembly, word 7 commits the message whole and frees the lease,
which the writer whose retry began first then takes; a channel without room answers CH_FULL and remembers the writer; a writer that finds the lease
taken retries, and CH_BUSY ends a retry; a second channel is CH_NESTED; a CHRECV whose write meets an uncorrectable error ends with an access fault
and the message stays, as log entry 127 reads it; CHSTAT returns the status word (R380, R412, R413, R414, R415). -/
def Obligations.ChannelMessages : Prop :=
  (∀ (t : ThreadId) (rd rs1 rs2 : RegNo) s th ch c, s.issues t = true → th = s.thread t → ch = (s.rv t rs1).toNat → ch < 4096 →
    Tab.find ch th.flags = none → s.chan ch = some c → c.orphan = false → s.chanCut t c = false →
    (th.lease = none → c.holder = none → c.used < 16 →
      ∃ u : State, exec (.lysChput t rd rs1 rs2) s = .next u ∧ u.chan ch = some { c with holder := some t, asm := [s.rv t rs2] } ∧
        u.thread t = { th with lease := some ch }.past rd 0 4) ∧
    (th.lease = none → c.holder = none → 16 ≤ c.used →
      ∃ u : State, exec (.lysChput t rd rs1 rs2) s = .next u ∧ u.thread t = th.past rd (failCode 2) 4 ∧
        ∃ x, u.chan ch = some { c with full := x } ∧ t.val ∈ x) ∧
    (th.lease = some ch → c.holder = some t.val → c.asm.length < 7 →
      ∃ u : State, exec (.lysChput t rd rs1 rs2) s = .next u ∧ u.chan ch = some { c with asm := c.asm ++ [s.rv t rs2] } ∧
        u.thread t = th.past rd 0 4) ∧
    (th.lease = some ch → c.holder = some t.val → c.asm.length = 7 → c.retry = [] →
      ∃ u : State, exec (.lysChput t rd rs1 rs2) s = .next u ∧ u.thread t = { th with lease := none }.past rd 1 4 ∧
        u.stat 3 c.home 199 = (s.stat 3 c.home 199 + 1) % 2 ^ 64 ∧
        u.chan ch = some { c with holder := none, asm := [], msgs := c.msgs ++ [(c.asm ++ [s.rv t rs2]).flatMap (fun x => toLe 8 x.toNat)] }) ∧
    (∀ x xs k w r, th.lease = some ch → c.holder = some t.val → c.asm.length = 7 → c.retry = x :: xs → x ≠ t.val →
      (s.thread x).retry = some (k, w, r) → c.msgs.length < 15 →
      ∃ u : State, exec (.lysChput t rd rs1 rs2) s = .next u ∧ u.thread t = { th with lease := none }.past rd 1 4 ∧
        u.thread x = { s.thread x with retry := none, lease := some ch }.past r 0 4 ∧
        u.chan ch = some { c with holder := some x, asm := [w], retry := xs, msgs := c.msgs ++ [(c.asm ++ [s.rv t rs2]).flatMap (fun x => toLe 8 x.toNat)] }) ∧
    (∀ x, th.lease = none → c.holder = some x → x ≠ t.val →
      ∃ u : State, exec (.lysChput t rd rs1 rs2) s = .next u ∧ u.chan ch = some { c with retry := c.retry ++ [t.val] } ∧
        u.thread t = { th with retry := some (ch, s.rv t rs2, rd.val) })) ∧
  (∀ (t : ThreadId) (rd rs1 rs2 : RegNo) s th ch k, s.issues t = true → th = s.thread t → ch = (s.rv t rs1).toNat → ch < 4096 →
    Tab.find ch th.flags = none → th.lease = some k → k ≠ ch →
    ∃ u : State, exec (.lysChput t rd rs1 rs2) s = .next u ∧ ThreadOnly t (th.past rd (failCode 4) 4) s u) ∧
  (∀ (t : ThreadId) s th ch w rd c, th = s.thread t → th.retry = some (ch, w, rd) → s.chan ch = some c →
    ∃ u : State, exec (.chBusyTimeout t) s = .next u ∧ u.thread t = { th with retry := none }.past rd (failCode 1) 4 ∧
      u.chan ch = some { c with retry := c.retry.filter (· != t.val) } ∧
      u.stat 3 (halfOfThread t) 200 = (s.stat 3 (halfOfThread t) 200 + 1) % 2 ^ 64) ∧
  (∀ (t : ThreadId) (rd rs1 rs2 : RegNo) s ch c, s.issues t = true → ch = (s.rv t rs1).toNat → ch < 4096 →
    xlysTarget (s.rv t rs2).toNat 64 64 = true → s.chan ch = some c → c.orphan = false → s.chanCut t c = false → c.reader = t.val → c.msgs ≠ [] →
    (s.core (coreOf t)).mode ≠ 2 → (s.thread t).mtvec ≠ 0 → (s.bucketNow (resId 7 (coreOf t))).level + 4 < resThreshold (resId 7 (coreOf t)) →
    ∃ u : State, exec (.lysChrecv t rd rs1 rs2 .uncorrectable) s = .next u ∧ u.off.chans = s.off.chans ∧ (u.thread t).mcause = 7 ∧
      (u.thread t).mtval = s.rv t rs2 ∧ (u.thread t).mepc = (s.thread t).pc ∧ (u.thread t).pc = (s.thread t).mtvec ∧
      (u.thread t).regs = (s.thread t).regs) ∧
  (∀ (t : ThreadId) (rd rs1 : RegNo) s c, s.issues t = true → s.chan (s.rv t rs1).toNat = some c → (s.rv t rs1).toNat < 4096 → s.chanCut t c = false →
    ∃ u : State, exec (.lysChstat t rd rs1) s = .next u ∧ ThreadOnly t ((s.thread t).past rd (BitVec.ofNat 64 (s.chanStatus c)) 4) s u) ∧
  (∀ (t : ThreadId) (rd rs1 : RegNo) s, s.issues t = true → s.chan (s.rv t rs1).toNat = none → (s.rv t rs1).toNat < 4096 →
    ∃ u : State, exec (.lysChstat t rd rs1) s = .next u ∧ ThreadOnly t ((s.thread t).past rd 0 4) s u)

/-- Packets and lookups of threads: PKTGET maps the head of the queue and returns its length, origin and source; PKTNEW maps an empty packet of
origin 2; PKTPUT gives the held packet its verdict and unmaps it; each counts. BYREBIND binds or unbinds a Byre queue and returns the binding it
had. A lookup joins the thread's outstanding ones; an uncorrectable error of the read of its request ends it with an access fault, here a trap to
the handler; when a lookup is done its 40-byte result stands in memory and EV_LOOKUP is pending (R380, R406, R407, R408, R409, R410). -/
def Obligations.ThreadPackets : Prop :=
  (∀ (t : ThreadId) (rd : RegNo) s th p ps, s.issues t = true → th = s.thread t → th.held = none → th.queue = p :: ps →
    ∃ u : State, exec (.lysPktget t rd) s = .next u ∧ (u.thread t).held = some p ∧ (u.thread t).pc = th.pc + 4 ∧
      (u.thread t).regs = (th.setReg rd (BitVec.ofNat 64 (p.pkt.frame.length + p.origin * 16384 + p.srcId * 65536))).regs) ∧
  (∀ (t : ThreadId) (rd : RegNo) s (th : Thread), s.issues t = true → th = s.thread t → th.held = none → th.queue = [] →
    ∃ u : State, exec (.lysPktget t rd) s = .next u ∧ ThreadOnly t (th.past rd (failCode 9) 4) s u) ∧
  (∀ (t : ThreadId) (rd : RegNo) s (th : Thread), s.issues t = true → th = s.thread t → th.held = none → s.offloadUse (halfOfThread t) + 9600 ≤ 6291456 →
    ∃ (u : State) (p : Pkt), exec (.lysPktnew t rd) s = .next u ∧ u.thread t = { th with held := some { pkt := p, origin := 2 } }.past rd 0 4 ∧
      p.frame = [] ∧ p.hv = List.replicate 256 0 ∧ p.cls = 0 ∧ p.colour = 0 ∧ p.group = none ∧
      u.stat 3 (halfOfThread t) 197 = (s.stat 3 (halfOfThread t) 197 + 1) % 2 ^ 64 ∧ OnlyIn [.off, .stats] s u) ∧
  (∀ (t : ThreadId) (rd rs1 rs2 : RegNo) s th x, s.issues t = true → th = s.thread t → putBad (s.rv t rs1).toNat (s.rv t rs2).toNat = false →
    th.held = some x → x.pkt.group = none → (x.origin ≠ 2 ∨ (s.rv t rs2).toNat ≠ 0 ∨ vKind (s.rv t rs1).toNat = 0) →
    ∃ u : State, exec (.lysPktput t rd rs1 rs2) s = .next u ∧ (u.thread t).held = none ∧ (u.thread t).pc = th.pc + 4 ∧
      (u.thread t).regs = (th.setReg rd 0).regs) ∧
  (∀ (t : ThreadId) (rd rs1 rs2 : RegNo) s h k q, s.issues t = true → t.val % 16 = 0 → h = halfOfThread t → q = (s.rv t rs1).toNat → 4 ≤ q → q ≤ 31 →
    k = h * 32 + q →
    ((s.rv t rs2).toNat < 2048 → halfOfThread (s.rv t rs2).toNat = h →
      ∃ u : State, exec (.lysByrebind t rd rs1 rs2) s = .next u ∧ Tab.find k u.off.bind = some (s.rv t rs2).toNat ∧
        (∀ j, j ≠ k → Tab.find j u.off.bind = Tab.find j s.off.bind) ∧ (u.thread t).pc = (s.thread t).pc + 4 ∧
        (u.thread t).regs = ((s.thread t).setReg rd (match Tab.find k s.off.bind with
          | none => 0xFFFFFFFFFFFFFFFF
          | some x => BitVec.ofNat 64 x)).regs) ∧
    (s.rv t rs2 = 0xFFFFFFFFFFFFFFFF →
      ∃ u : State, exec (.lysByrebind t rd rs1 rs2) s = .next u ∧ Tab.find k u.off.bind = none ∧
        (∀ j, j ≠ k → Tab.find j u.off.bind = Tab.find j s.off.bind))) ∧
  (∀ (t : ThreadId) (rd rs1 rs2 : RegNo) s (th : Thread) a r b, s.issues t = true → th = s.thread t → a = (s.rv t rs1).toNat → a % 16 = 0 →
    (regionOf a).isSome = true → regionOf (a + 47) = regionOf a → xlysTarget (s.rv t rs2).toNat 40 8 = true → s.memRead t a 48 = some r →
    b = toLe 48 r → (le b 0 1 % 2 = 1 ∨ halfOfPipe (le b 1 1 % 16) = halfOfThread t) → th.lookups.length < 4 →
    ∃ u : State, exec (.lysLookup t rd rs1 rs2 .none) s = .next u ∧
      u.thread t = { th with lookups := th.lookups ++ ([{ req := b, addr := (s.rv t rs2).toNat }] : List Lookup) }.past rd 0 4 ∧
      u.stat 3 (halfOfThread t) 203 = (s.stat 3 (halfOfThread t) 203 + 1) % 2 ^ 64 ∧ OnlyIn [.off, .stats] s u) ∧
  (∀ (t : ThreadId) (rd rs1 rs2 : RegNo) s (th : Thread) a, s.issues t = true → th = s.thread t → a = (s.rv t rs1).toNat → a % 16 = 0 →
    (regionOf a).isSome = true → regionOf (a + 47) = regionOf a → xlysTarget (s.rv t rs2).toNat 40 8 = true → (s.core (coreOf t)).mode ≠ 2 →
    th.mtvec ≠ 0 → (s.bucketNow (resId 7 (coreOf t))).level + 4 < resThreshold (resId 7 (coreOf t)) →
    ∃ u : State, exec (.lysLookup t rd rs1 rs2 .uncorrectable) s = .next u ∧ (u.thread t).mcause = 5 ∧ (u.thread t).mtval = s.rv t rs1 ∧
      (u.thread t).mepc = th.pc ∧ (u.thread t).pc = th.mtvec ∧ (u.thread t).lookups = th.lookups ∧ (u.thread t).regs = th.regs) ∧
  (∀ (t : ThreadId) i s (th : Thread) l r, th = s.thread t → th.lookups[i]? = some l → xlysTarget l.addr 40 8 = true →
    r = putBytes (s.lookupBytes (le l.req 0 1 % 2) (le l.req 1 1 % 16) (halfOfThread t) (slice l.req 16 32)) 4 (slice l.req 4 4) →
    ∃ u : State, exec (.lookupDone t i) s = .next u ∧ (∀ j, j < 40 → u.memByte t (l.addr + j) = r.getD j 0) ∧
      (∃ x, u.thread t = { th with lookups := th.lookups.eraseIdx i, events := th.events ||| 16, resv := x } ∧ (x = none ∨ x = th.resv)) ∧
      OnlyIn [.off] s u)

/-- The supervisor's instructions: TSTART starts a STOPPED or FAULTED thread with its registers, trap CSRs, event bits and timer cleared; TSTOP
stops one, which then holds no packet, no queue, no lookup and no timer; TREAD returns state and slots, the PC, the trap CSRs, masks and registers.
On another thread each is XLYS_PRIV, here a trap to the thread's handler; an address operand of TSTART that is odd or unmapped is XLYS_OPERAND
(R390, R391, R394, R395, R401, R408). Instructions of the cores: computation with an immediate or a register and LUI and AUIPC write rd and nothing
else; jumps and branches move the PC; a load takes the bytes at its address; a store to scratch, private or shared memory writes its bytes there and
no other; ECALL in a mode other than RUN traps to the handler (R378, R379, R380, R394, R395). -/
def Obligations.SupervisorAndCore : Prop :=
  ((∀ (t : ThreadId) (rd rs1 rs2 : RegNo) s x, s.issues t = true → t.val % 16 = 0 → x = t.val + (s.rv t rs1).toNat → t.val < x → x < t.val + 16 →
    (s.rv t rs2).toNat % 2 = 0 → (regionOf (s.rv t rs2).toNat).isSome = true →
    ((s.thread x).state = .stopped ∨ (s.thread x).state = .faulted →
      ∃ u : State, exec (.lysTstart t rd rs1 rs2) s = .next u ∧ u.thread t = (s.thread t).past rd 0 4 ∧
        u.thread x = { ({} : Thread) with state := .running, pc := s.rv t rs2, queue := (s.thread x).queue, held := (s.thread x).held, coming := (s.thread x).coming } ∧
        (∀ y, y ≠ t.val → y ≠ x → u.thread y = s.thread y) ∧ OnlyIn [.off] s u) ∧
    ((s.thread x).state ≠ .stopped → (s.thread x).state ≠ .faulted →
      ∃ u : State, exec (.lysTstart t rd rs1 rs2) s = .next u ∧ ThreadOnly t ((s.thread t).past rd (failCode 15) 4) s u)) ∧
  (∀ (t : ThreadId) (rd rs1 : RegNo) s x, s.issues t = true → t.val % 16 = 0 → x = t.val + (s.rv t rs1).toNat → t.val < x → x < t.val + 16 →
    ((s.thread x).state ≠ .lost →
      ∃ u : State, exec (.lysTstop t rd rs1) s = .next u ∧ (u.thread x).state = .stopped ∧ (u.thread x).held = none ∧ (u.thread x).queue = [] ∧
        (u.thread x).lookups = [] ∧ (u.thread x).timer = none) ∧
    ((s.thread x).state = .lost →
      ∃ u : State, exec (.lysTstop t rd rs1) s = .next u ∧ ThreadOnly t ((s.thread t).past rd (failCode 15) 4) s u)) ∧
  (∀ (t : ThreadId) (rd rs1 rs2 : RegNo) s x n v, s.issues t = true → t.val % 16 = 0 → x = t.val + (s.rv t rs1).toNat → x < t.val + 16 →
    n = (s.rv t rs2).toNat →
    v ∈ [(0, BitVec.ofNat 64 ((s.thread x).state.code + s.slotsOf x * 256)), (1, (s.thread x).pc), (2, (s.thread x).mcause), (3, (s.thread x).mtval),
      (4, BitVec.ofNat 64 (s.stateMask (coreOf t) .faulted)), (5, BitVec.ofNat 64 (s.stateMask (coreOf t) .halted))] ∨
      (v = (n, (s.thread x).reg (n - 32)) ∧ 32 ≤ n ∧ n ≤ 63 ∧ (s.thread x).state ∈ [.stopped, .faulted, .halted]) →
    v.1 = n →
    ∃ u : State, exec (.lysTread t rd rs1 rs2) s = .next u ∧ ThreadOnly t ((s.thread t).past rd v.2 4) s u) ∧
  (∀ (t : ThreadId) (rd rs1 rs2 : RegNo) s c, c ∈ [Instr.lysTstart t rd rs1 rs2, .lysTstop t rd rs1, .lysTread t rd rs1 rs2, .lysByrebind t rd rs1 rs2] →
    s.issues t = true → t.val % 16 ≠ 0 → (s.core (coreOf t)).mode ≠ 2 → (s.thread t).mtvec ≠ 0 →
    ∃ u : State, exec c s = .next u ∧ (u.thread t).mcause = 24 ∧ (u.thread t).mepc = (s.thread t).pc ∧ (u.thread t).pc = (s.thread t).mtvec ∧
      (∀ x, x ≠ t.val → u.thread x = s.thread x)) ∧
  (∀ (t : ThreadId) (rd rs1 rs2 : RegNo) s, s.issues t = true → t.val % 16 = 0 →
    ((s.rv t rs2).toNat % 2 = 1 ∨ regionOf (s.rv t rs2).toNat = none ∨ (s.rv t rs1).toNat = 0 ∨ 15 < (s.rv t rs1).toNat) →
    (s.core (coreOf t)).mode ≠ 2 → (s.thread t).mtvec ≠ 0 →
    ∃ u : State, exec (.lysTstart t rd rs1 rs2) s = .next u ∧ (u.thread t).mcause = 25 ∧ (u.thread t).mepc = (s.thread t).pc ∧
      (u.thread t).pc = (s.thread t).mtvec ∧ (∀ x, x ≠ t.val → u.thread x = s.thread x))) ∧
  ((∀ (t : ThreadId) s w n, Fetches s t w n → w % 128 = 0x13 →
    ∀ v, aluImm (bits w 12 3) (bits w 20 12) ((s.thread t).reg (bits w 15 5)) ((BitVec.ofNat 12 (bits w 20 12)).signExtend 64) = some v →
    ∃ u : State, exec (.instruction t .none) s = .next u ∧ ThreadOnly t ((s.thread t).past (bits w 7 5) v n) s u) ∧
  (∀ (t : ThreadId) s w n, Fetches s t w n → w % 128 = 0x33 →
    ∀ v, aluOp (bits w 25 7) (bits w 12 3) ((s.thread t).reg (bits w 15 5)) ((s.thread t).reg (bits w 20 5)) = some v →
    ∃ u : State, exec (.instruction t .none) s = .next u ∧ ThreadOnly t ((s.thread t).past (bits w 7 5) v n) s u) ∧
  (∀ (t : ThreadId) s w n v, Fetches s t w n → v = (BitVec.ofNat 32 (bits w 12 20 * 4096)).signExtend 64 →
    (w % 128 = 0x37 → ∃ u : State, exec (.instruction t .none) s = .next u ∧ ThreadOnly t ((s.thread t).past (bits w 7 5) v n) s u) ∧
    (w % 128 = 0x17 → ∃ u : State, exec (.instruction t .none) s = .next u ∧
      ThreadOnly t ((s.thread t).past (bits w 7 5) ((s.thread t).pc + v) n) s u)) ∧
  (∀ (t : ThreadId) s w n (th : Thread) v, Fetches s t w n → th = s.thread t → w % 128 = 0x6F →
    v = (BitVec.ofNat 21 (bits w 21 10 * 2 + bits w 20 1 * 2048 + bits w 12 8 * 4096 + bits w 31 1 * 1048576)).signExtend 64 →
    ∃ u : State, exec (.instruction t .none) s = .next u ∧
      ThreadOnly t { th.past (bits w 7 5) (th.pc + BitVec.ofNat 64 n) n with pc := th.pc + v } s u) ∧
  (∀ (t : ThreadId) s w n th v, Fetches s t w n → th = s.thread t → w % 128 = 0x67 → bits w 12 3 = 0 →
    v = (th.reg (bits w 15 5) + (BitVec.ofNat 12 (bits w 20 12)).signExtend 64) &&& 0xFFFFFFFFFFFFFFFE →
    ∃ u : State, exec (.instruction t .none) s = .next u ∧
      ThreadOnly t { th.past (bits w 7 5) (th.pc + BitVec.ofNat 64 n) n with pc := v } s u) ∧
  (∀ (t : ThreadId) s w n th b x, Fetches s t w n → th = s.thread t → w % 128 = 0x63 →
    branchTaken (bits w 12 3) (th.reg (bits w 15 5)) (th.reg (bits w 20 5)) = some b →
    x = (BitVec.ofNat 13 (bits w 8 4 * 2 + bits w 25 6 * 32 + bits w 7 1 * 2048 + bits w 31 1 * 4096)).signExtend 64 →
    ∃ u : State, exec (.instruction t .none) s = .next u ∧
      ThreadOnly t { th.past 0 0 n with pc := th.pc + if b then x else BitVec.ofNat 64 n } s u) ∧
  (∀ (t : ThreadId) s w n a r f, Fetches s t w n → w % 128 = 0x03 → f = bits w 12 3 → f ≠ 7 →
    a = ((s.thread t).reg (bits w 15 5) + (BitVec.ofNat 12 (bits w 20 12)).signExtend 64).toNat → a % 2 ^ (f % 4) = 0 →
    regionOf a ≠ some .window → s.memRead t a (2 ^ (f % 4)) = some r →
    ∃ u : State, exec (.instruction t .none) s = .next u ∧ ThreadOnly t ((s.thread t).past (bits w 7 5) (loadValue f r) n) s u) ∧
  (∀ (t : ThreadId) s w n a v f, Fetches s t w n → w % 128 = 0x23 → f = bits w 12 3 → f ≤ 3 →
    a = ((s.thread t).reg (bits w 15 5) + (BitVec.ofNat 12 (bits w 25 7 * 32 + bits w 7 5)).signExtend 64).toNat → a % 2 ^ f = 0 →
    regionOf a ∈ [some .scratch, some .priv, some .shared] → v = (s.thread t).reg (bits w 20 5) →
    ∃ u : State, exec (.instruction t .none) s = .next u ∧ u.thread t = (s.thread t).past 0 0 n ∧
      (∀ i, i < 2 ^ f → u.memByte t (a + i) = (toLe 8 v.toNat).getD i 0) ∧
      (∀ b, (b < a ∨ a + 2 ^ f ≤ b) → regionOf b ≠ some .window → u.memByte t b = s.memByte t b) ∧
      u.off.chans = s.off.chans ∧ u.off.bind = s.off.bind ∧ OnlyIn [.off] s u) ∧
  (∀ (t : ThreadId) s, Fetches s t 0x00000073 4 → (s.core (coreOf t)).mode ≠ 2 → (s.thread t).mtvec ≠ 0 →
    ∃ u : State, exec (.instruction t .none) s = .next u ∧ (u.thread t).mcause = 11 ∧ (u.thread t).mepc = (s.thread t).pc ∧
      (u.thread t).pc = (s.thread t).mtvec ∧ (u.thread t).regs = (s.thread t).regs))

/-! ## The microcoded engines -/

/-- Microwords: an engine that does not run does nothing; a word whose wait condition is false waits, acts on nothing and counts its timer down; a
word whose condition is true completes: its ALU result and the word it pops reach their registers, its flags follow the result, and the engine goes
to the next word, or, at a word with EOP, to the entry of the pending request of highest priority, with RESUME at that next word; a word whose
condition is false when its wait has lasted its limit faults with WAIT_LIMIT. Steps advance the die's step counter, so that no engine reads one
count twice, the timer and the wait (R423, R424, R425, R426, R427, R429, R432, R433, R435, R438, R442). -/
def Obligations.EngineWords : Prop :=
  (∀ (e : EngineId) env s, (s.engine e).run ≠ .running → exec (.microwordStep e env) s = .next s) ∧
  (∀ (e : EngineId) cs env s x w v, env = { conds := cs } → x = (s.engSteps e 1).engine e → x.run = .running → w = x.store.getD x.pc 0 →
    v = (if mwField w 50 6 = 34 ∨ mwField w 56 6 = 34 then (s.engSteps e 1).tickSteps (engHalf e) else s.engSteps e 1) →
    v.engCond e x env (mwField w 23 6) = (mwField w 29 1 == 1) → x.limitHit w s.clock.now = false →
    ∃ u : State, exec (.microwordStep e env) s = .next u ∧ (∀ y, y ≠ e.val → u.engine y = s.engine y) ∧ OnlyIn [.micro] v u ∧
      (∀ r, r ≠ 29 → (u.engine e).reg r = x.reg r) ∧ (u.engine e).stack = x.stack ∧ (u.engine e).queues = x.queues ∧
      (u.engine e).waited = (if x.waiting then x.waited else 0) + 1 ∧ (u.engine e).waitFrom = (if x.waiting then x.waitFrom else s.clock.now) ∧
      (mwField w 150 1 = 0 ∨ x.reqs = 0 → (u.engine e).pc = x.pc ∧ (u.engine e).waiting = true ∧ (u.engine e).reqs = x.reqs) ∧
      (∀ i, mwField w 150 1 = 1 → i < 4 → x.reqs.getLsbD i = true → (∀ j, j < i → x.reqs.getLsbD j = false) →
        (u.engine e).pc = 4 * (i + 1) ∧ (u.engine e).resume = x.pc ∧ (u.engine e).reqs = x.reqs &&& ~~~((1 : BitVec 4) <<< i))) ∧
  (∀ (e : EngineId) cs env s x w v, env = { conds := cs } → x = (s.engSteps e 1).engine e → x.run = .running → w = x.store.getD x.pc 0 →
    v = (if mwField w 50 6 = 34 ∨ mwField w 56 6 = 34 then (s.engSteps e 1).tickSteps (engHalf e) else s.engSteps e 1) →
    v.engCond e x env (mwField w 23 6) = (mwField w 29 1 == 1) → x.limitHit w s.clock.now = true →
    ∃ u : State, exec (.microwordStep e env) s = .next u ∧
      u.engine e = { x with run := .faulted, waiting := false, fault := faultWord 1 x.pc w, faults := min (x.faults + 1) 0xFFFFFFFF }) ∧
  (∀ (e : EngineId) cs env s x w v alu pop next st, env = { conds := cs } → x = (s.engSteps e 1).engine e → x.run = .running → w = x.store.getD x.pc 0 →
    v = (if mwField w 50 6 = 34 ∨ mwField w 56 6 = 34 then (s.engSteps e 1).tickSteps (engHalf e) else s.engSteps e 1) →
    v.engCond e x env (mwField w 23 6) ≠ (mwField w 29 1 == 1) → wordFault (engKind e) x w = none → pop = x.head (mwField w 141 4) →
    (∀ p, portOp x w 99 = some p ∨ portOp x w 118 = some p → v.portBars e p = false) →
    alu = engAlu (mwField w 46 4) (v.engOperand e x w (mwField w 50 6)) (v.engOperand e x w (mwField w 56 6)) (Config.freeWord (v.free + 64)) →
    nextWord x w (storeSize (engKind e)) (v.engCond e x env (mwField w 17 6)) alu.1 pop (Config.freeWord (v.free + 65)) = .ok (next, st) →
    ∃ u : State, exec (.microwordStep e env) s = .next u ∧ (∀ y, y ≠ e.val → u.engine y = s.engine y) ∧ OnlyIn [.micro, .out] v u ∧
      (u.engine e).stack = st ∧ (u.engine e).waiting = false ∧
      (∀ r, r ≠ 29 → (u.engine e).reg r =
        if mwField w 141 4 ≠ 0 ∧ r = mwField w 145 5 then pop
        else if mwField w 46 4 ≠ 0 ∧ r = mwField w 62 5 then alu.1 else x.reg r) ∧
      (mwField w 141 4 ≠ 0 → mwField w 137 4 = 0 → (u.engine e).words (mwField w 141 4) = (x.words (mwField w 141 4)).drop 1) ∧
      (mwField w 151 1 = 1 → (u.engine e).zero = (alu.1 == 0) ∧ (u.engine e).neg = alu.1.msb ∧ (u.engine e).carry = alu.2.1 ∧ (u.engine e).ovf = alu.2.2) ∧
      (mwField w 151 1 = 0 → (u.engine e).zero = x.zero ∧ (u.engine e).neg = x.neg ∧ (u.engine e).carry = x.carry ∧ (u.engine e).ovf = x.ovf) ∧
      (mwField w 150 1 = 0 → (u.engine e).pc = next ∧ (u.engine e).reqs = x.reqs) ∧
      (mwField w 150 1 = 1 → x.reqs = 0 → (u.engine e).pc = next ∧ (u.engine e).reqs = 0) ∧
      (∀ i, mwField w 150 1 = 1 → i < 4 → x.reqs.getLsbD i = true → (∀ j, j < i → x.reqs.getLsbD j = false) →
        (u.engine e).pc = 4 * (i + 1) ∧ (u.engine e).resume = next ∧ (u.engine e).reqs = x.reqs &&& ~~~((1 : BitVec 4) <<< i))) ∧
  (∀ (e : EngineId) dt env s x, x = (s.advance dt).engine e → x.run = .running → x.limitHit (x.store.getD x.pc 0) (s.advance dt).clock.now = true →
    exec (.waitLimit e dt env) s = exec (.microwordStep e env) (s.advance dt)) ∧
  (∀ (e : EngineId) dt env s x, x = (s.advance dt).engine e → (x.run ≠ .running ∨ x.limitHit (x.store.getD x.pc 0) (s.advance dt).clock.now = false) →
    exec (.waitLimit e dt env) s = .next (s.advance dt)) ∧
  (∀ (e : EngineId) n s x, x = s.engine e →
    ∃ u : State, exec (.engineTimer e n) s = .next u ∧ (∀ y, y ≠ e.val → u.engine y = s.engine y) ∧ OnlyIn [.micro, .off] s u ∧
      (u.engine e).reg 29 = (if x.armed then BitVec.ofNat 64 ((x.reg 29).toNat - n) else x.reg 29) ∧
      (∀ r, r ≠ 29 → (u.engine e).reg r = x.reg r) ∧ (u.engine e).pc = x.pc ∧ (u.engine e).waited = (if x.waiting then x.waited + n else x.waited) ∧
      u.stepsOf (engHalf e) = BitVec.ofNat 64 (max (s.stepsOf (engHalf e)).toNat (x.steps.toNat + n)) ∧ (u.engine e).steps = u.stepsOf (engHalf e))

/-- Engine resets: a reset that hardware raises clears registers, stack, RESUME, flags and requests, keeps the control store, and lets the engine
run again from 0x0000 if AUTO_RESTART is set; one written to ENG_CTRL leaves it STOPPED; RUN starts a STOPPED engine at 0x0000. A store whose word
met an uncorrectable error is reloaded from the golden copy before the engine is reset; where it disagrees with its CRC twice the engine is a
permanent fault (R435, R436, R438, R440, R442, R446, R524). The control-store window: CS_ADDR restarts the sequence of five parts; with CS_WE set on
a STOPPED engine the fifth part written commits the word at CS_ADDR, least significant part first, and CS_ADDR advances; otherwise a write is
without effect. Reads give the parts in the same order. A check puts the store's CRC-32C into CS_CRC (R442, R443). -/
def Obligations.EngineControl : Prop :=
  ((∀ (e : EngineId) s x, x = s.engine e → x.reload = false →
    ∃ u : State, exec (.engineReset e) s = .next u ∧ u.engine e = { x.cleared with run := if x.autoRun then .resetting else .stopped } ∧
      (∀ r, (u.engine e).reg r = 0) ∧ (u.engine e).store = x.store ∧ (∀ y, y ≠ e.val → u.engine y = s.engine y)) ∧
  (∀ (e : EngineId) s, (s.engine e).run = .resetting →
    ∃ u : State, exec (.engineAutoRestart e) s = .next u ∧ u.engine e = { s.engine e with run := .running, pc := 0 } ∧
      (∀ y, y ≠ e.val → u.engine y = s.engine y) ∧ OnlyIn [.micro] s u) ∧
  (∀ (e : EngineId) s, (s.engine e).run = .stopped →
    ∃ u : State, exec (.engRun e) s = .next u ∧ u.engine e = { s.engine e with run := .running, pc := 0 } ∧
      (∀ y, y ≠ e.val → u.engine y = s.engine y) ∧ OnlyIn [.micro] s u) ∧
  (∀ (e : EngineId) s, (s.engine e).run ≠ .stopped → exec (.engRun e) s = .next s) ∧
  (∀ (e : EngineId) s, ∃ u : State, exec (.engCtrlReset e) s = .next u ∧ u.engine e = { (s.engine e).cleared with run := .stopped } ∧
    (∀ y, y ≠ e.val → u.engine y = s.engine y)) ∧
  (∀ (e : EngineId) s, ∃ u : State, exec (.quiesce e) s = .next u ∧ u.engine e = { s.engine e with reqs := (s.engine e).reqs ||| 2 } ∧
    (∀ y, y ≠ e.val → u.engine y = s.engine y) ∧ OnlyIn [.micro] s u) ∧
  (∀ (e : EngineId) s, ∃ u : State, exec (.control e) s = .next u ∧ u.engine e = { s.engine e with reqs := (s.engine e).reqs ||| 4 } ∧
    (∀ y, y ≠ e.val → u.engine y = s.engine y) ∧ OnlyIn [.micro] s u) ∧
  (∀ (e : EngineId) a s, ∃ u : State, exec (.csScrub e a .uncorrectable) s = .next u ∧ (u.engine e).run = .faulted ∧ (u.engine e).reload = true ∧
    (u.engine e).fault = faultWord 7 a ((s.engine e).store.getD a 0)) ∧
  (∀ (e : EngineId) a s, ∃ u : State, exec (.csScrub e a .corrected) s = .next u ∧
    u.stat 3 (engHalf e) 288 = (s.stat 3 (engHalf e) 288 + 1) % 2 ^ 64 ∧ OnlyIn [.stats] s u) ∧
  (∀ (e : EngineId) s g, (s.engine e).reload = true → g = s.micro.golden.getD (goldenKey (engHalf e) (engKind e)) [] →
    ∃ u : State, exec (.csReload e) s = .next u ∧ (u.engine e).store = g ∧ (u.engine e).reload = false ∧
      (u.engine e).csCrc = storeCrc (storeSize (engKind e)) g ∧ (u.engine e).pc = 0 ∧
      (u.engine e).run = if (s.engine e).autoRun then .resetting else .stopped) ∧
  (∀ (e : EngineId) s, (s.engine e).reload = true →
    ∃ u : State, exec (.csReload e true) s = .next u ∧ (engKind e = 0 → engRes e ∈ u.rel.retired) ∧ (engKind e ≠ 0 → engRes e ∈ u.rel.degraded))) ∧
  ((∀ (e : EngineId) v s, (s.engine e).bcast = false →
    ∃ u : State, exec (.engCsAddrWrite e v) s = .next u ∧ u.engine e = { s.engine e with csAddr := v.toNat % 8192, csIn := [], csOut := 0 } ∧
      (∀ y, y ≠ e.val → u.engine y = s.engine y) ∧ OnlyIn [.micro] s u) ∧
  (∀ (e : EngineId) v s x, x = s.engine e → x.bcast = false → x.csWe = true → x.run = .stopped → x.csIn.length < 4 →
    ∃ u : State, exec (.engCsDataWrite e v) s = .next u ∧ u.engine e = { x with csIn := x.csIn ++ [v] } ∧
      (∀ y, y ≠ e.val → u.engine y = s.engine y) ∧ OnlyIn [.micro] s u) ∧
  (∀ (e : EngineId) (a b c d v : BitVec 32) s x, x = s.engine e → x.bcast = false → x.csWe = true → x.run = .stopped → x.csIn = [a, b, c, d] →
    x.csAddr < storeSize (engKind e) →
    ∃ u : State, exec (.engCsDataWrite e v) s = .next u ∧ (u.engine e).store.getD x.csAddr 0 = v ++ d ++ c ++ b ++ a ∧
      (∀ i, i ≠ x.csAddr → (u.engine e).store.getD i 0 = x.store.getD i 0) ∧ (u.engine e).csAddr = (x.csAddr + 1) % 8192 ∧ (u.engine e).csIn = [] ∧
      (∀ y, y ≠ e.val → u.engine y = s.engine y) ∧ OnlyIn [.micro] s u) ∧
  (∀ (e : EngineId) v s x, x = s.engine e → x.bcast = false → (x.csWe = false ∨ x.run ≠ .stopped) →
    ∃ u : State, exec (.engCsDataWrite e v) s = .next u ∧ u.engine e = x ∧ (∀ y, y ≠ e.val → u.engine y = s.engine y) ∧ OnlyIn [.micro] s u) ∧
  (∀ (e : EngineId) s x, x = s.engine e → x.csAddr < storeSize (engKind e) →
    ∃ u : State, exec (.engCsDataRead e) s = .next u ∧
      u.out = s.out ++ [.reg (BitVec.ofNat 64 (mwField (x.store.getD x.csAddr 0) (32 * x.csOut) 32)) false false] ∧
      u.engine e = (if x.csOut = 4 then { x with csOut := 0, csAddr := (x.csAddr + 1) % 8192 } else { x with csOut := x.csOut + 1 }) ∧
      (∀ y, y ≠ e.val → u.engine y = s.engine y) ∧ OnlyIn [.micro, .out] s u) ∧
  (∀ (e : EngineId) s, ∃ u : State, exec (.csCheck e) s = .next u ∧ u.engine e = { s.engine e with checking := true } ∧
    (∀ y, y ≠ e.val → u.engine y = s.engine y) ∧ OnlyIn [.micro] s u) ∧
  (∀ (e : EngineId) s x, x = s.engine e → x.checking = true →
    ∃ u : State, exec (.csCheckDone e) s = .next u ∧ u.engine e = { x with checking := false, csCrc := storeCrc (storeSize (engKind e)) x.store } ∧
      (∀ y, y ≠ e.val → u.engine y = s.engine y) ∧ OnlyIn [.micro] s u))

/-! ## Starts, power and resets -/

/-- Starts: standby power samples the strap, a resource that fails its self-test is retired, and the first stage is to run where STBY_REFCLK is
there; the first stage takes the life-cycle state over, starts a RETIRED device no further, runs the recovery loader when the board asks for it or
no slot is a candidate, and otherwise boots the preferred candidate, or the other where that fails its checks or a read of it, whose bit in the mask
is then set; the second stage verifies the parts in order, and a block that does not match or cannot be read fails the slot (R452, R453, R454, R459,
R467, R468, R471, R486, R562). -/
def Obligations.Starts : Prop :=
  (∀ (a : Fin 8) s, s.boot.stbyGood = false → s.boot.stage = .off → s.clkLost .stby = false →
    ∃ u : State, exec (.stbyPwrgdRise a []) s = .next u ∧ u.boot.stbyGood = true ∧ u.boot.stage = .first ∧ u.boot.isPor = true ∧
      u.boot.mgmtAddr = a ∧ u.boot.flash = s.boot.flash ∧ u.boot.failMask = s.boot.failMask ∧ OnlyIn [.boot, .clock, .upd] s u) ∧
  (∀ (a : Fin 8) s, s.boot.stbyGood = false → s.boot.stage = .off → s.clkLost .stby = true →
    ∃ u : State, exec (.stbyPwrgdRise a []) s = .next u ∧ u.boot.stbyGood = true ∧ u.boot.stage = .off) ∧
  (∀ (a : Fin 8) (r : BitVec 32) s, s.boot.stbyGood = false → resKind r.toNat ∈ [1, 6, 7, 8, 11] →
    ∃ u : State, exec (.stbyPwrgdRise a [r]) s = .next u ∧ u.boot.stbyGood = true ∧ r.toNat ∈ u.rel.retired ∧
      (∀ q, q ∈ s.rel.retired → q ∈ u.rel.retired)) ∧
  (∀ (a : Fin 8) l s, s.boot.stbyGood = false → s.boot.stage = .off → s.clkLost .stby = false →
    ∃ u : State, exec (.stbyPwrgdRise a l) s = .next u ∧ u.boot.stage = .first) ∧
  (∀ b (s v : State), s.boot.stage = .first → s.boot.stbyGood = true → RefClk.stby ∉ s.clock.missing → v = s.takeLc → v.boot.lc = 5 →
    ∃ u : State, exec (.firstStage b) s = .next u ∧ u.boot.stage = .retired ∧ u.boot.flash = v.boot.flash ∧ OnlyIn [.boot, .links] v u) ∧
  (∀ (s v : State), s.boot.stage = .first → s.boot.stbyGood = true → RefClk.stby ∉ s.clock.missing → v = s.takeLc → v.boot.lc ≠ 5 →
    ∃ u : State, exec (.firstStage false) s = .next u ∧ u.boot.stage = .recovery ∧ u.boot.sessions = s.boot.sessions + 1 ∧
      u.boot.flash = v.boot.flash ∧ OnlyIn [.boot, .links, .ledger] v u) ∧
  (∀ s v r : State, s.boot.stage = .first → s.boot.stbyGood = true → RefClk.stby ∉ s.clock.missing → v = s.takeLc → v.boot.lc ≠ 5 → r = v.rollback →
    r.candidate 0 = false → r.candidate 1 = false → ∃ u : State, exec (.firstStage true) s = .next u ∧ u.boot.stage = .recovery) ∧
  (∀ (s v r : State) bad p, s.boot.stage = .first → s.boot.stbyGood = true → RefClk.stby ∉ s.clock.missing → v = s.takeLc → v.boot.lc ≠ 5 →
    r = v.rollback → p < 2 → r.candidate p = true → (r.candidate (1 - p) = false ∨ r.preferB = decide (p = 1)) →
    (r.slotCheck bad p = none →
      ∃ u : State, exec (.firstStage true bad) s = .next u ∧ u.boot.stage = .second ∧ u.boot.slot = p ∧ u.boot.parts = 2 ∧
        u.boot.debugLc = some v.boot.lc ∧ u.boot.trial = (!r.trialMark p && !r.commitMark p)) ∧
    (∀ x, r.slotCheck bad p = some x → r.candidate (1 - p) = true → (r.failSlot p x.1 x.2 1).slotCheck bad (1 - p) = none →
      ∃ u : State, exec (.firstStage true bad) s = .next u ∧ u.boot.stage = .second ∧ u.boot.slot = 1 - p ∧ bit u.boot.failMask p = true ∧
        u.boot.fallback = true) ∧
    (∀ x, r.slotCheck bad p = some x → r.candidate (1 - p) = false →
      ∃ u : State, exec (.firstStage true bad) s = .next u ∧ u.boot.stage = .recovery ∧ bit u.boot.failMask p = true)) ∧
  (∀ (k : Fin 7) s, s.boot.stage = .second → s.boot.release = 0 → s.diesMayRun = true →
    [3, 4, 6, 5, 2].find? (fun i => !bit s.boot.parts i) = some k.val → s.badBlock s.boot.slot k = none →
    exec (.partVerified k) s = .next { s with boot := { s.boot with parts := s.boot.parts + 2 ^ k.val } }) ∧
  (∀ (k : Fin 7) s b read, s.boot.stage = .second ∨ s.boot.stage = .released → s.diesMayRun = true →
    [3, 4, 6, 5, 2].find? (fun i => !bit s.boot.parts i) = some k.val → s.partBad s.boot.slot k read = some b →
    ∃ u : State, exec (.partVerified k read) s = .next u ∧ u.boot.stage = .first ∧ u.boot.release = 0 ∧ bit u.boot.failMask s.boot.slot = true)

/-- The release: with CONTROL_FW in place a trial is marked in flash, BOOT_SERIAL advances where the store can be written, and the control processor
runs; READY after step 9 opens the device, as READY, on TRIAL or SPLIT; FAIL before READY, no READY within 250 ms, or the watchdog of the second
stage holds the dies and fails the slot; FAIL after READY fails the control processor alone (R70, R288, R453, R460, R462, R465). The recovery loader
writes slot A in a first session and slot B in a second: an image that is too long or does not verify is left without an arm record and the loader
stays; one that verifies is armed above both slots' SEQ and committed, and the first stage runs again; the host is told the session's outcome
(R467). -/
def Obligations.ReleaseAndRecovery : Prop :=
  ((∀ env s, s.boot.stage = .second → bit s.boot.parts 3 = true → bit s.boot.parts 4 = false → s.boot.step = 0 → s.diesMayRun = true →
    s.boot.flashLeft = none → env.cut = none →
    ∃ u : State, exec (.hrtRelease env) s = .next u ∧ u.boot.stage = .released ∧ u.boot.release = 1 ∧ u.boot.releasedAt = s.clock.now ∧
      (s.boot.trial = true → u.trialMark s.boot.slot = true) ∧
      (env.serialOk = true → s.sets.bootSerial < 0xFFFFFFFF → u.sets.bootSerial = s.sets.bootSerial + 1 ∧ u.boot.serialOk = true) ∧
      (env.serialOk = false ∨ 0xFFFFFFFF ≤ s.sets.bootSerial → u.sets.bootSerial = s.sets.bootSerial ∧ u.boot.serialOk = false)) ∧
  (∀ v s, s.boot.release % 2 = 1 → s.boot.stage = .released → bit v.toNat 9 = false → bit v.toNat 8 = true → s.boot.step = 9 →
    s.rel.heldE = false →
    ∃ u : State, exec (.hrtCpStatus v) s = .next u ∧ u.boot.stage = .ready ∧ u.boot.step = 10 ∧ u.boot.release = 3 ∧
      u.hif.devState = (if s.rel.split then 2 else if s.onTrial then 3 else 1) ∧ u.cpW.running = true ∧ u.cpW.unavailable = false) ∧
  (∀ v s, s.boot.release % 2 = 1 → s.boot.stage = .released → bit v.toNat 9 = true →
    ∃ u : State, exec (.hrtCpStatus v) s = .next u ∧ u.boot.stage = .first ∧ u.boot.release = 0 ∧ bit u.boot.failMask s.boot.slot = true) ∧
  (∀ dt s, s.boot.stage = .released → s.boot.releasedAt + 250000000 ≤ s.clock.now + dt →
    ∃ u : State, exec (.readyTimeout dt) s = .next u ∧ u.boot.stage = .first ∧ u.boot.release = 0 ∧ bit u.boot.failMask s.boot.slot = true) ∧
  (∀ dt s, (s.boot.stage ≠ .released ∨ s.clock.now + dt < s.boot.releasedAt + 250000000) → exec (.readyTimeout dt) s = .next (s.advance dt)) ∧
  (∀ v s, s.boot.release % 2 = 1 → s.boot.stage = .ready → bit v.toNat 9 = true → s.cpW.running = true →
    ∃ u : State, exec (.hrtCpStatus v) s = .next u ∧ u.cpW.running = false ∧ u.cpW.unavailable = true ∧ u.boot.stage = .ready ∧
      u.boot.failMask = s.boot.failMask) ∧
  (∀ s, (s.boot.stage = .second ∨ (s.boot.stage = .released ∧ s.boot.parts ≠ 0x7E)) →
    ∃ u : State, exec .secondStageWatchdog s = .next u ∧ u.boot.stage = .first ∧ bit u.boot.failMask s.boot.slot = true) ∧
  (∀ s, s.boot.stage = .ready → exec .secondStageWatchdog s = .next s)) ∧
  ((∀ img s, s.boot.stage ≠ .recovery → exec (.recoveryLoader img) s = .next s) ∧
  (∀ img s slot w, s.boot.stage = .recovery → s.boot.flashLeft = none → slot = (s.boot.sessions + 1) % 2 →
    w = ((s.eraseRecord slot).flashErase (slotBase slot) 12582912).flashWrite (slotBase slot) (img.take 12582912) →
    (12582912 < img.length ∨ w.imageOk slot = false →
      ∃ u : State, exec (.recoveryLoader img) s = .next u ∧ u.boot.stage = .recovery ∧ u.armed slot = false) ∧
    (img.length ≤ 12582912 → w.imageOk slot = true →
      ∃ u : State, exec (.recoveryLoader img) s = .next u ∧ u.boot.stage = .first ∧ u.armed slot = true ∧ u.commitMark slot = true ∧
        u.slotSeq slot = s.recoverSeq ∧ Out.mgmt .i3c [5, 0x17, 0] ∈ u.out) ∧
    (s.armed 0 = true → s.armed 1 = false → s.recoverSeq = (s.slotSeq 0 + 1) % 4294967296) ∧
    (s.armed 0 = true → s.armed 1 = true → seqNewer (s.slotSeq 1) (s.slotSeq 0) = true → s.recoverSeq = (s.slotSeq 1 + 1) % 4294967296) ∧
    (s.armed 0 = false → s.armed 1 = false → s.recoverSeq = 1)))

/-- Power and device resets: main power lost holds the dies without failing the slot, and its return, a POR that samples bifurcation, starts a held
device and lets a stage that runs on standby power, a second stage too, stand; standby power lost ends everything but the flash; a POR pulse of 10
µs starts the device and a RESET_REQUEST of domain 0 does when its time has come, each with nothing left of functions and rings and with flash, boot
failure mask and retirements kept (R39, R89, R466, R521, R539, R543, R563, R566). DATAPATH resets and PPL_RELEASE: a request's reset, when its time
has come, empties the stages and tables of the pipelines it names; a write to PPL_RELEASE releases the pipelines whose bits are set, holds those
whose bits are clear, and releases or holds the half's cores; cores that come to be held lose what their threads hold (R89, R387, R419, R462, R542).
-/
def Obligations.ResetsOfTheDevice : Prop :=
  ((∀ s, s.boot.mainGood = true →
    ∃ u : State, exec .mainPwrgdFall s = .next u ∧ u.boot.mainGood = false ∧ u.boot.flash = s.boot.flash ∧ u.boot.failMask = s.boot.failMask ∧
      u.boot.stage = (if s.boot.stage ∈ [.off, .retired, .first, .recovery] then s.boot.stage else .held)) ∧
  (∀ s, s.boot.mainGood = false → s.boot.stage = .held → ({ s with boot := { s.boot with mainGood := true } } : State).diesMayRun = true →
    ∃ u : State, exec .mainPwrgdRise s = .next u ∧ u.boot.mainGood = true ∧ u.boot.stage = .first ∧ u.boot.isPor = true ∧
      u.boot.flash = s.boot.flash) ∧
  (∀ s, s.boot.mainGood = false → s.boot.stage ∈ [.first, .recovery, .retired] →
    ∃ u : State, exec .mainPwrgdRise s = .next u ∧ u.boot.mainGood = true ∧ u.boot.stage = s.boot.stage ∧ u.boot.isPor = true ∧
      u.hif.bifurcated = s.storedBifs ∧ u.boot.flash = s.boot.flash) ∧
  (∀ s, s.boot.mainGood = false → s.boot.stage = .second →
    ∃ u : State, exec .mainPwrgdRise s = .next u ∧ u.boot.mainGood = true ∧ u.boot.stage = .second ∧ u.boot.isPor = true ∧
      u.boot.parts = s.boot.parts ∧ u.hif.bifurcated = s.storedBifs ∧ OnlyIn [.boot, .hif, .links] s u) ∧
  (∀ s, s.boot.mainGood = false → s.boot.stage = .off → exec .mainPwrgdRise s = .next { s with boot := { s.boot with mainGood := true } }) ∧
  (∀ s, s.boot.stbyGood = true →
    ∃ u : State, exec .stbyPwrgdFall s = .next u ∧ u.boot.stage = .off ∧ u.boot.stbyGood = false ∧ u.boot.failMask = 0 ∧ u.rel.retired = [] ∧
      u.ledger.buf = [] ∧ u.fns = State.reset.fns ∧ u.boot.flash = s.boot.flash) ∧
  (∀ ns taken s, s.boot.mainGood = true → 10000 ≤ ns → s.boot.stage ∉ [.off, .retired] → s.boot.stage ≠ .held ∨ s.diesMayRun = true →
    ∃ u : State, exec (.porNPulse ns taken) s = .next u ∧ u.boot.stage = .first ∧ u.boot.isPor = true ∧ u.fns = State.reset.fns ∧ u.rings = [] ∧
      u.rel.retired = s.rel.retired ∧ u.boot.flash = s.boot.flash ∧ u.boot.failMask = s.boot.failMask) ∧
  (∀ ns taken s, s.boot.mainGood = true → 10000 ≤ ns → s.boot.stage = .held → s.diesMayRun = false →
    ∃ u : State, exec (.porNPulse ns taken) s = .next u ∧ u.boot.stage = .held ∧ u.boot.isPor = true ∧ u.boot.flash = s.boot.flash) ∧
  (∀ ns taken s, ns < 1000 → exec (.porNPulse ns taken) s = .next s) ∧
  (∀ s r, s.hif.resetReq = some r → r.domain = 0 → r.at_ ≤ s.clock.now → s.boot.stage ∉ [.off, .retired] →
    ∃ u : State, exec .deviceWarm s = .next u ∧ u.boot.stage = .first ∧ u.boot.isPor = false ∧ u.fns = State.reset.fns ∧ u.rings = [] ∧
      u.hif.resetReq = none ∧ u.rel.retired = s.rel.retired ∧ u.boot.flash = s.boot.flash ∧ u.boot.failMask = s.boot.failMask) ∧
  (∀ s, s.hif.resetReq = none → exec .deviceWarm s = .next s)) ∧
  ((∀ (m : BitVec 16) s r, s.hif.resetReq = some r → r.domain = 2 → r.pipeMask = m.toNat → r.at_ ≤ s.clock.now →
    ∃ u : State, exec (.datapathReset m) s = .next u ∧ u.hif.resetReq = none ∧
      ∀ n, n < 16 → bit m.toNat n = true → (u.pipe n).ways = [] ∧ (u.pipe n).stash = [] ∧ (u.pipe n).shadow = none ∧ (u.pipe n).learnQ = [] ∧
        (u.pipe n).second = [] ∧ (u.pipe n).deepRun = []) ∧
  (∀ (m : BitVec 16) s, s.hif.resetReq = none → exec (.datapathReset m) s = .next s) ∧
  (∀ (h : Half) v s, ∃ u : State, exec (.pplRelease h v) s = .next u ∧
    (∀ i, i < 8 → (u.pipe (8 * h.val + i)).released = bit v.toNat i) ∧
    (∀ n, n / 8 ≠ h.val → (u.pipe n).released = (s.pipe n).released) ∧
    (h.val = 0 → u.boot.coresW = bit v.toNat 8 ∧ u.boot.coresE = s.boot.coresE) ∧
    (h.val = 1 → u.boot.coresE = bit v.toNat 8 ∧ u.boot.coresW = s.boot.coresW) ∧
    ((if h.val = 0 then s.boot.coresW else s.boot.coresE) = true → bit v.toNat 8 = false → ∀ t, t / 1024 = h.val →
      ((u.thread t).state = .stopped ∨ (u.thread t).state = .lost) ∧ (u.thread t).queue = [] ∧ (u.thread t).held = none)))

/-- Thermal levels: a level is entered when two consecutive samples of a site meet its condition, and left, to the one below, when every site has
stayed below its leave value for 1 s; every sample is kept with its time, and a rail's current adds the rail's power to its window. A regulator that
does not report its target in a slew is sent it twice more, then its report is its set point (R506, R511, R557). Capping, from step 10 on: three
windows in a row above CAP_W step one mode slower, after a slew that runs, not beyond MODE_LIMIT, where EV_CAP_EXCESS is due instead; 100 windows at
or below 0.85 of it step one mode faster, never past what the thermal level forces. A window's power is the sum over the rails of their averages, as
log entry 145 has it where none was sampled. A slew that ends leaves the mode, and a decision that waited begins (R464, R506, R508, R509). -/
def Obligations.ThermalAndPower : Prop :=
  ((∀ (n : Fin 190) (v p : Int) t s l, n.val < 64 → Tab.find n.val s.power.samples = some (p, t) → l ∈ [1, 2, 3, 4] → enterAt l ≤ v → enterAt l ≤ p →
    (l = 4 ∨ v < enterAt (l + 1) ∨ p < enterAt (l + 1)) → s.power.level < l →
    ∃ u : State, exec (.sensorSample n v) s = .next u ∧ u.power.level = l ∧ Tab.find n.val u.power.samples = some (v, s.devNow)) ∧
  (∀ (n : Fin 190) v s l t, n.val < 64 → l = s.power.level → l ∈ [1, 2, 3, 4] → Tab.find l s.power.cool = some t → t + 1000000000 ≤ s.clock.now →
    (∀ m x y, (m, x, y) ∈ Tab.set n.val (v, s.devNow) s.power.samples → m < 64 → x < leaveBelow l) →
    ∃ u : State, exec (.sensorSample n v) s = .next u ∧ u.power.level = l - 1) ∧
  (∀ (n : Fin 190) v s, 160 ≤ n.val → n.val % 2 = 0 →
    exec (.sensorSample n v) s = .next { s with power := { s.power with samples := Tab.set n.val (v, s.devNow) s.power.samples } }) ∧
  (∀ (n : Fin 190) v s mv t k, 160 ≤ n.val → n.val % 2 = 1 → k = (n.val - 161) / 2 → Tab.find (n.val - 1) s.power.samples = some (mv, t) →
    ∃ u : State, exec (.sensorSample n v) s = .next u ∧ Tab.find n.val u.power.samples = some (v, s.devNow) ∧
      Tab.find k u.power.railSum = some ((s.power.railSum.getD k (0, 0)).1 + (mv * v).toNat, (s.power.railSum.getD k (0, 0)).2 + 1) ∧
      OnlyIn [.power] s u) ∧
  (∀ (h : Half) r s, (s.power.slew = none ∨ s.power.avsTries.getD h.val 0 = 3) → exec (.avsTargetRetry h r) s = .next s) ∧
  (∀ (h : Half) r s, s.power.slew.isSome = true → s.power.avsTries.getD h.val 0 < 2 →
    ∃ u : State, exec (.avsTargetRetry h r) s = .next u ∧ u.power.avsTries.getD h.val 0 = s.power.avsTries.getD h.val 0 + 1 ∧
      u.power.setW = s.power.setW ∧ u.power.setE = s.power.setE ∧ OnlyIn [.power] s u) ∧
  (∀ (h : Half) mv s, s.power.slew.isSome = true → s.power.avsTries.getD h.val 0 = 2 →
    ∃ u : State, exec (.avsTargetRetry h (some mv)) s = .next u ∧ u.power.setOf h.val = mv ∧ u.power.setOf (1 - h.val) = s.power.setOf (1 - h.val) ∧
      OnlyIn [.power] s u)) ∧
  ((∀ w s p y, p = s.power → y = p.package w → s.boot.stage = .ready → p.capW ≠ 0 → p.capW < y → p.overN = 2 → p.mode < p.limit → p.slew = none →
    ∃ u : State, exec (.powerWindow w) s = .next u ∧ u.power.mode = p.mode + 1 ∧ u.power.slew = some ⟨p.mode, p.mode + 1, 1⟩ ∧
      u.power.setW = nominalMv (p.mode + 1) ∧ u.power.setE = nominalMv (p.mode + 1) ∧ u.power.railSum = [] ∧ OnlyIn [.power] s u) ∧
  (∀ w s p y x, p = s.power → y = p.package w → s.boot.stage = .ready → p.capW ≠ 0 → p.capW < y → p.overN = 2 → p.mode < p.limit →
    p.slew = some x → p.waiting = none →
    ∃ u : State, exec (.powerWindow w) s = .next u ∧ u.power.mode = p.mode ∧ u.power.slew = some x ∧ u.power.waiting = some (p.mode + 1, 1) ∧
      OnlyIn [.power] s u) ∧
  (∀ w s p y, p = s.power → y = p.package w → p.capW ≠ 0 → p.capW < y → p.overN < 2 →
    ∃ u : State, exec (.powerWindow w) s = .next u ∧ u.power.mode = p.mode ∧ u.power.overN = p.overN + 1 ∧ u.power.slew = p.slew) ∧
  (∀ w s p y, p = s.power → y = p.package w → s.boot.stage = .ready → p.capW ≠ 0 → p.capW < y → 2 ≤ p.overN → p.limit ≤ p.mode → p.excessAt = none →
    ∃ u : State, exec (.powerWindow w) s = .next u ∧ u.power.mode = p.mode ∧ u.power.slew = p.slew ∧ u.power.excessAt = some (p.windows + 1)) ∧
  (∀ w s p y, p = s.power → y = p.package w → s.boot.stage = .ready →
    (p.capW = 0 ∧ (p.capWas = 0 ∨ y ≤ p.capWas) ∨ p.capW ≠ 0 ∧ y * 100 ≤ p.capW * 85) → 99 ≤ p.under → p.mode ≠ 0 → forcedMode p.level < p.mode →
    p.holdTo ≤ p.windows + 1 → p.slew = none →
    ∃ u : State, exec (.powerWindow w) s = .next u ∧ u.power.mode = p.mode - 1 ∧ u.power.slew = some ⟨p.mode, p.mode - 1, 3⟩ ∧ OnlyIn [.power] s u) ∧
  (∀ w s, s.boot.stage ≠ .ready →
    ∃ u : State, exec (.powerWindow w) s = .next u ∧ u.power.mode = s.power.mode ∧ u.power.slew = s.power.slew ∧ u.power.waiting = s.power.waiting ∧
      u.power.setW = s.power.setW ∧ u.power.setE = s.power.setE) ∧
  (∀ s x, s.power.slew = some x → s.power.waiting = none →
    ∃ u : State, exec .slewDone s = .next u ∧ u.power.slew = none ∧ u.power.mode = s.power.mode ∧ u.power.setW = s.power.setW ∧
      u.power.setE = s.power.setE) ∧
  (∀ s x c, s.power.slew = some x → s.power.waiting = some (s.power.mode + 1, c) →
    ∃ u : State, exec .slewDone s = .next u ∧ u.power.mode = s.power.mode + 1 ∧ u.power.slew = some ⟨s.power.mode, s.power.mode + 1, c⟩ ∧
      u.power.waiting = none) ∧
  (∀ (p : Power) w, p.railSum = [] → p.package w = w) ∧
  (∀ (p : Power) w n a, p.railSum = [(n, a)] → p.package w = a.1 / max 1 a.2 / 1000000))

/-- The Ledger, holdup and Hearth's restart: a write puts the first buffered record into the flash ring under the next INDEX, or the record of those
lost first, and one that fails its read-back uses its slot up and keeps its INDEX, and none is written without standby power; holdup writes every
buffered record at once; a restart of Hearth loses the buffered records, counts them where no holdup writes the count at once, and takes NEXT_OFFSET
back to the last PROGRESS record, the dies untouched. Reference clocks that are lost and return (R481, R510, R513, R514, R516, R561, R562, R566). -/
def Obligations.HearthAndClocks : Prop :=
  (∀ s l r rs, s.boot.stbyGood = true → l = s.ledger → l.lost = 0 → l.buf = r :: rs →
    ∃ u : State, exec (.ledgerWrite true) s = .next u ∧ u.ledger.buf = rs ∧
      Tab.find l.pos u.ledger.ring = some (ledgerBytes l.next s.sets.bootSerial r) ∧ u.ledger.pos = (l.pos + 1) % 65536 ∧
      u.ledger.next = (if l.next = 0xFFFFFFFE then 0 else l.next + 1) ∧
      (∀ i, i ≠ l.pos → i / 64 ≠ (l.pos / 64 + 1) % 1024 → Tab.find i u.ledger.ring = Tab.find i l.ring) ∧ OnlyIn [.ledger] s u) ∧
  (∀ s l, s.boot.stbyGood = true → l = s.ledger → l.lost ≠ 0 →
    ∃ u : State, exec (.ledgerWrite true) s = .next u ∧ u.ledger.buf = l.buf ∧ u.ledger.lost = 0 ∧
      Tab.find l.pos u.ledger.ring = some (ledgerBytes l.next s.sets.bootSerial (s.ledgerRec 1 0 (toLe 4 l.lost))) ∧ OnlyIn [.ledger] s u) ∧
  (∀ s l, s.boot.stbyGood = true → l = s.ledger → (l.lost ≠ 0 ∨ l.buf ≠ []) →
    ∃ u : State, exec (.ledgerWrite false) s = .next u ∧ u.ledger.buf = l.buf ∧ u.ledger.lost = l.lost ∧ u.ledger.next = l.next ∧
      u.ledger.pos = (l.pos + 1) % 65536 ∧ Tab.find l.pos u.ledger.ring = some [] ∧ OnlyIn [.ledger] s u) ∧
  (∀ b s, s.boot.stbyGood = false ∨ s.ledger.lost = 0 ∧ s.ledger.buf = [] → exec (.ledgerWrite b) s = .next s) ∧
  (∀ s, s.boot.holdupN = true → s.boot.stbyGood = true →
    ∃ u : State, exec .pwrHoldupN s = .next u ∧ u.boot.holdupN = false ∧ u.ledger.buf = [] ∧ u.power = s.power) ∧
  (∀ s, s.boot.holdupN = false → ∃ u : State, exec .holdupDeassert s = .next u ∧ u.boot.holdupN = true ∧ u.ledger = s.ledger ∧ u.power = s.power) ∧
  (∀ b s, s.boot.stage = .off → exec (.hearthRestart b) s = .next s) ∧
  (∀ b s, s.boot.stage ≠ .off → s.boot.stbyGood = true → ∃ u : State, exec (.hearthRestart b) s = .next u ∧
    (s.boot.holdupN = true → u.ledger.lost = s.ledger.lost + s.ledger.buf.length ∧ u.ledger.buf.length = 1 ∧ u.ledger.ring = s.ledger.ring) ∧
    u.upd.next = (if s.upd.state = 1 then s.upd.durable else s.upd.next) ∧ u.boot.failMask = s.boot.failMask ∧
    u.boot.trial = s.boot.trial ∧ u.boot.stage = s.boot.stage ∧ OnlyIn [.ledger, .boot, .mgmt, .upd] s u) ∧
  (∀ s, s.clkLost .stby = false → exec (.refclkLoss .stby) s = .next { s with clock := { s.clock with missing := s.clock.missing ++ [.stby] } }) ∧
  (∀ (l : LinkId) s, s.clkLost (.host l) = false → (s.link l).up = false →
    ∃ u : State, exec (.refclkLoss (.host l)) s = .next u ∧ u.clkLost (.host l) = true ∧ u.link l = { s.link l with training := false } ∧
      OnlyIn [.clock, .links] s u) ∧
  (∀ c dt env s, s.clkLost c = true → clkSettle c ≤ dt → c ∈ [RefClk.ptp, .sdWest, .sdEast] →
    ∃ u : State, exec (.refclkReturn c dt env) s = .next u ∧ u.clkLost c = false ∧ OnlyIn [.clock] s u) ∧
  (∀ dt env s, s.clkLost .stby = true → clkSettle .stby ≤ dt → s.boot.stbyGood = true → s.boot.stage = .off →
    ∃ u : State, exec (.refclkReturn .stby dt env) s = .next u ∧ u.clkLost .stby = false ∧ u.boot.stage = .first ∧ OnlyIn [.clock, .boot] s u) ∧
  (∀ c dt env s, dt < clkSettle c → exec (.refclkReturn c dt env) s = .next (s.advance dt))

/-! ## Faults, split mode and the HALF reset -/

/-- Fault buckets and what retires: each leak period that has passed drains 1, those of a charge before it; an uncorrectable error of an HBM pseudo-
channel weighs 16 of 256 and retires it at the threshold, to migrate; one of an SRAM row spares the row; a loss of lock, or 16 flit replays within 1
ms, is charged to its die-to-die lane and, at the threshold of 4, retires it to a spare; a migration that is done ends, the lines it lost counted; a
link that is lost leaves the others in service, and with the last one cross-half traffic stops; a link that returns is in service (R20, R21, R36,
R518, R519, R521, R522, R523, R533). What a block's reads of SRAM and HBM meet: a corrected error is counted and charged and the row goes on, an
uncorrectable one drops the packet the row is about, and bits of a pipeline's TCAM that flip differ from the shadow until its scrub (R519, R528,
R531). -/
def Obligations.PacketFaults : Prop :=
  ((∀ (r : BitVec 32) dt s b n, b = s.bucket r.toNat → b.since ≤ s.clock.now + dt → n = (s.clock.now + dt - b.since) / resLeak r.toNat →
    ∃ u : State, exec (.bucketLeak r dt) s = .next u ∧ (u.bucket r.toNat).level = b.level - n ∧
      (n < b.level → (u.bucket r.toNat).since = b.since + n * resLeak r.toNat) ∧ (b.level ≤ n → (u.bucket r.toNat).half = false) ∧
      (∀ q, q ≠ r.toNat → u.bucket q = s.bucket q) ∧ OnlyIn [.rel, .clock] s u) ∧
  (∀ (r : BitVec 32) n s, r.toNat ∈ s.rel.moving →
    ∃ u : State, exec (.hbmMigrationDone r n) s = .next u ∧ r.toNat ∉ u.rel.moving ∧
      (∀ q, q ≠ r.toNat → (q ∈ u.rel.moving ↔ q ∈ s.rel.moving)) ∧
      u.stat 3 (resHalf r.toNat) 9223 = (s.stat 3 (resHalf r.toNat) 9223 + n) % 2 ^ 64 ∧ OnlyIn [.rel, .stats] s u) ∧
  (∀ (r : BitVec 32) n s, r.toNat ∉ s.rel.moving → exec (.hbmMigrationDone r n) s = .next s) ∧
  (∀ (e : EngineId) (r : BitVec 32) s x w, x = s.engine e → x.run = .running → w = x.store.getD x.pc 0 → mwField w 23 6 = 0 → mwField w 29 1 = 1 →
    x.waiting = false → r.toNat ∉ s.rel.retired →
    (resKind r.toNat = 4 → (s.bucketNow r.toNat).level < 240 →
      ∃ u : State, exec (.microwordStep e { mem := [(r, true)] }) s = .next u ∧ (u.bucket r.toNat).level = (s.bucketNow r.toNat).level + 16 ∧
        u.rel.retired = s.rel.retired) ∧
    (resKind r.toNat = 4 → 240 ≤ (s.bucketNow r.toNat).level → s.hbmRetired (resHalf r.toNat) < 6 →
      ∃ u : State, exec (.microwordStep e { mem := [(r, true)] }) s = .next u ∧ (u.bucket r.toNat).level = 0 ∧ r.toNat ∈ u.rel.retired ∧
        r.toNat ∈ u.rel.moving) ∧
    (∀ y, resKind r.toNat = 5 → s.freeSpare (resIdx r.toNat) = some y →
      ∃ u : State, exec (.microwordStep e { mem := [(r, true)] }) s = .next u ∧ (u.bucket r.toNat).level = 0 ∧ u.rel.spared = s.rel.spared ++ [y] ∧
        u.rel.retired = s.rel.retired)) ∧
  (∀ (l : Fin 5) (d : Fin 2) (a : Fin 104) s r, (s.d2dLink l).down = false → d.val * 104 + a.val ∉ (s.d2dLink l).lost →
    r = resId 2 (l.val * 208 + d.val * 104 + a.val) →
    ((s.bucketNow r).level < 3 →
      ∃ u : State, exec (.d2dLaneLoss l d a none) s = .next u ∧ (u.bucket r).level = (s.bucketNow r).level + 1 ∧ u.rel.retired = s.rel.retired ∧
        (u.d2dLink l).since = s.clock.now) ∧
    (∀ n, n < 16 → exec (.d2dLaneLoss l d a (some n)) s = .next (s.bumpBy 3 (1 - d.val) 9217 n)) ∧
    (∀ n, 16 ≤ n → exec (.d2dLaneLoss l d a (some n)) s = exec (.d2dLaneLoss l d a none) (s.bumpBy 3 (1 - d.val) 9217 n)) ∧
    (3 ≤ (s.bucketNow r).level → (s.d2dLink l).lost.countP (fun x => x / 104 == d.val) < 8 →
      ∃ u : State, exec (.d2dLaneLoss l d a none) s = .next u ∧ (u.bucket r).level = 0 ∧ r ∈ u.rel.retired ∧
        (u.d2dLink l).lost = (s.d2dLink l).lost ++ [d.val * 104 + a.val] ∧ (u.d2dLink l).down = false)) ∧
  (∀ (l : Fin 5) s k, (s.d2dLink l).down = false → k ∈ s.linksUp → k ≠ l.val →
    ∃ u : State, exec (.d2dLinkLoss l) s = .next u ∧ u.d2dLink l = { s.d2dLink l with down := true } ∧
      (∀ i, i ≠ l.val → u.d2dLink i = s.d2dLink i) ∧ u.rel.cut = s.rel.cut ∧ OnlyIn [.rel] s u) ∧
  (∀ (l : Fin 5) s, (s.d2dLink l).down = false → (∀ k, k ∈ s.linksUp → k = l.val) →
    ∃ u : State, exec (.d2dLinkLoss l) s = .next u ∧ u.d2dLink l = { s.d2dLink l with down := true } ∧ u.rel.cut = true) ∧
  (∀ (l : Fin 5) env s, (s.d2dLink l).down = true → s.isRetired 3 l = false → s.rel.heldE = false →
    ∃ u : State, exec (.d2dLinkReturn l env) s = .next u ∧ u.d2dLink l = { s.d2dLink l with down := false, since := s.clock.now } ∧
      (∀ i, i ≠ l.val → u.d2dLink i = s.d2dLink i) ∧ OnlyIn [.rel] s u)) ∧
  ((∀ (p : PipeId) (lp : LpId) (q : RingNo) r s c d e, e = { errs := [⟨r, false⟩] } →
    (c, d) ∈ [(Instr.ingressSlot p .ok e, .ingressSlot p .ok), (.egressPass p e, .egressPass p), (.frameTransmit lp .ok e, .frameTransmit lp .ok),
      (.rxPacketDelivery q .ok e, .rxPacketDelivery q)] → exec c s = exec d (s.memFault (BitVec.toNat r) false)) ∧
  (∀ (p : PipeId) (lp : LpId) (q : RingNo) r s c d e, e = { errs := [⟨r, true⟩] } →
    (c, d) ∈ [(Instr.ingressSlot p .ok e, .ingressSlot p (.buffer r)), (.frameTransmit lp .ok e, .frameTransmit lp (.buffer r)),
      (.rxPacketDelivery q .ok e, .rxPacketDelivery q (.buffer r))] → exec c s = exec d s) ∧
  (∀ (p : PipeId) r s, exec (.egressPass p { errs := [⟨r, true⟩] }) s = .next (s.egressPass p (.buffer r))) ∧
  (∀ (p : PipeId) f s c d e, e = { flips := f } →
    (c, d) ∈ [(Instr.ingressSlot p .ok e, .ingressSlot p .ok), (.egressPass p e, .egressPass p)] → exec c s = exec d (s.flipTcam p f)) ∧
  (∀ (s : State) n fs, (s.flipTcam n fs).flipsOf n = s.flipsOf n ++ fs ∧ ∀ k, k ≠ n → (s.flipTcam n fs).flipsOf k = s.flipsOf k) ∧
  (∀ (s : State) r u, (resKind r = 5 → (s.memFault r u).stat 3 (resHalf r) (if u then 9220 else 9219) =
      (s.stat 3 (resHalf r) (if u then 9220 else 9219) + 1) % 2 ^ 64) ∧
    (resKind r = 4 → (s.memFault r u).stat 3 (resHalf r) (if u then 9223 else 9222) =
      (s.stat 3 (resHalf r) (if u then 9223 else 9222) + 1) % 2 ^ 64)))

/-- Split mode: declared once cross-half traffic has stopped with both halves healthy, it freezes east's rules and puts the shadow pair to work;
rejoin, 100 ms after a link without a lane fault, opens the whole device with east's route table and trust-domain keys west's, but not before the
commands the shadow pair holds tickets for have ended; until it opens, the loss of the last link stops it and leaves the device split. A half that
hangs is held in reset, the device split, with none of its functions left; its reset ends with the half healthy and out of reset, its salt the next
BOOT_SERIAL where that was written; where its control stores can be had neither from the golden copies nor from flash it stays held, a permanent
fault; where west's CONTROL_FW does not verify the slot fails (R36, R82, R289, R445, R533, R536, R537, R538, R540, R543). -/
def Obligations.HalvesApart : Prop :=
  (∀ dt s, s.rel.cut = true → s.rel.split = false → s.healthy = true → s.boot.stage = .ready →
    ∃ u : State, exec (.splitDeclare dt) s = .next u ∧ u.rel.split = true ∧ u.hif.devState = 2 ∧ u.rel.rulesE.isSome = true ∧
      u.cpE.running = true ∧ u.cpE.unavailable = false) ∧
  (∀ dt s, (s.rel.cut = false ∨ s.healthy = false) → exec (.splitDeclare dt) s = .next (s.advance dt)) ∧
  (∀ s, s.rel.rejoin = none → s.mayRejoin = true → s.handedOver = true →
    ∃ u : State, exec (.rejoin true) s = .next u ∧ u.rel.split = false ∧ u.rel.cut = false ∧ u.rel.rulesE = none ∧ u.net.routesE = u.net.routesW ∧
      u.lrd.tdE = u.lrd.tdW ∧ u.hif.devState = (if s.boot.trial && !s.commitMark s.boot.slot then 3 else 1)) ∧
  (∀ s, s.rel.rejoin = none → s.mayRejoin = true →
    ∃ u : State, exec (.rejoin false) s = .next u ∧ u.rel.rejoin = some s.clock.now ∧ u.net.routesE = u.net.routesW ∧
      u.lrd.tdE = u.lrd.tdW ∧ (s.tickets = [] → u.rel.split = s.rel.split ∧ u.rel.cut = s.rel.cut ∧ u.hif.devState = s.hif.devState)) ∧
  (∀ s t, s.rel.rejoin = some t → s.handedOver = false → exec (.rejoin true) s = .next s) ∧
  (∀ s t, s.rel.rejoin = some t → s.handedOver = true → s.healthy = true → s.boot.stage = .ready → s.linksUp ≠ [] →
    ∃ u : State, exec (.rejoin true) s = .next u ∧ u.rel.rejoin = none ∧ u.rel.split = false ∧ u.rel.cut = false ∧ u.rel.rulesE = none) ∧
  (∀ (l : Fin 5) s t, s.rel.rejoin = some t → s.rel.cut = true → (s.d2dLink l).down = false → (∀ k, k ∈ s.linksUp → k = l.val) →
    ∃ u : State, exec (.d2dLinkLoss l) s = .next u ∧ u.rel.rejoin = none ∧ u.rel.split = s.rel.split ∧ u.rel.cut = true ∧
      u.rel.rulesE = s.rel.rulesE) ∧
  (∀ b s, s.rel.rejoin = none → s.mayRejoin = false → exec (.rejoin b) s = .next s) ∧
  (∀ (h : Half) s, s.boot.stage = .ready → s.heldHalf h = false →
    ∃ u : State, exec (.halfUnhealthy h) s = .next u ∧ u.rel.split = true ∧ u.rel.cut = true ∧ u.badHalf h = true ∧ u.heldHalf h = true ∧
      (∀ fid, halfOfFid fid = h.val → (u.fn fid).state = .disabled) ∧ (∀ k, k / 8 = h.val → (u.link k).up = false) ∧
      (∀ n, halfOfSlot n = h.val → u.keyOf n = none)) ∧
  (∀ (h : Half) env s, s.badHalf h = true → s.clkLost (sysClk h) = false → env.goldenOk = false →
    (h.val = 0 → s.partBad s.boot.slot 3 env.badRead = none) → (s.badBlock s.boot.slot 4).isSome = true →
    ∃ u : State, exec (.halfReset h env) s = .next u ∧ u.badHalf h = true ∧ u.heldHalf h = s.heldHalf h ∧ u.micro = s.micro ∧
      u.stat 3 h.val 9231 = (s.stat 3 h.val 9231 + 1) % 2 ^ 64) ∧
  (∀ (h : Half) env s, s.badHalf h = true → s.clkLost (sysClk h) = false → env.goldenOk = true →
    (h.val = 0 → s.partBad s.boot.slot 3 env.badRead = none) →
    ∃ u : State, exec (.halfReset h env) s = .next u ∧ u.badHalf h = false ∧ u.heldHalf h = false ∧
      (env.serialOk = true → s.sets.bootSerial < 0xFFFFFFFF →
        u.sets.bootSerial = s.sets.bootSerial + 1 ∧ u.saltOf h = some (BitVec.ofNat 32 (s.sets.bootSerial + 1))) ∧
      (env.serialOk = false → u.sets.bootSerial = s.sets.bootSerial ∧ u.saltOf h = s.saltOf h)) ∧
  (∀ (h : Half) env s b, h.val = 0 → s.badHalf h = true → s.clkLost (sysClk h) = false → s.partBad s.boot.slot 3 env.badRead = some b →
    ∃ u : State, exec (.halfReset h env) s = .next u ∧ u.boot.stage = .first ∧ bit u.boot.failMask s.boot.slot = true) ∧
  (∀ (h : Half) env s, s.badHalf h = false → s.hif.resetReq = none → exec (.halfReset h env) s = .next s)

/-! ## Management -/

/-- The bindings: an endpoint ID is set for the binding it came on; MCTP control is answered on every binding that is open; the I3C target takes a
dynamic address, and an answer on it raises an in-band interrupt; a message that its binding does not take is discarded: without an endpoint ID
every other message, on a host link the messages of the board alone and NC-SI, with another bus address or a wrong PEC any; one whose TLP fails its
checks is counted as that (R42, R467, R495, R496). Messages of the Molgori protocol that need no token: a challenge is 32 fresh bytes, kept until it
is used; CAP_SET puts a cap into force once the boot has come to its settings; LEDGER_GET returns records; FN_ABORT_REQ aborts the named function
with reason MGMT under its generation; STATUS_GET reports; UPDATE_COMMIT_REQ commits the image on trial or is refused with nothing changed; an item
of board data takes its place. An access beyond the debug port's reach, which the first stage has fixed, raises DEBUG_INTRUSION; one within it halts
or resumes a thread or a control processor, or reads or writes a register, acts that log entry 141 names (R54, R127, R464, R469, R476, R484, R498,
R509). -/
def Obligations.ManagementMessages : Prop :=
  ((∀ b eid s, s.takes b .control = true → eid ≠ 0 → eid ≠ 0xFF →
    ∃ u : State, exec (.setEndpointId b eid) s = .next u ∧ Tab.find (bindNo b) u.mgmt.eids = some eid.toNat ∧
      (∀ k, k ≠ bindNo b → Tab.find k u.mgmt.eids = Tab.find k s.mgmt.eids) ∧ u.out = s.out ++ s.mgmtOut b [1, 0, 0, eid, 0] ∧ OnlyIn [.mgmt, .out] s u) ∧
  (∀ b s, s.takes b .control = true →
    ∃ u : State, exec (.mctpControlMessage b 2) s = .next u ∧
      u.out = s.out ++ s.mgmtOut b [2, 0, BitVec.ofNat 8 (s.mgmt.eids.getD (bindNo b) 0), 0, 0] ∧ OnlyIn [.out] s u) ∧
  (∀ a s, s.mgmtOn = true → exec (.i3cDynamicAddress a) s = .next { s with mgmt := { s.mgmt with i3cAddr := some a.toNat } }) ∧
  (∀ b c s, s.mgmt.eids.any (fun e => e.1 == bindNo b) = false →
    c ∈ [Instr.challengeGet b, .statusGet b, .updateCommitReq b, .requestUpdate b, .cancelUpdate b, .getStatus b, .getTid b, .getPldmTypes b, .getPdrRepositoryInfo b,
      .getVersion b, .getCapabilities b true, .getCapabilities b false, .getDigests b] → exec c s = .next (s.misses b)) ∧
  (∀ l p c ch cmd s, c ∈ [Instr.lcTransition (.vdm l) p, .ownerLockSet (.vdm l) p, .kikInstall (.vdm l) p, .boardDataSet (.vdm l) p, .rootRevoke (.vdm l) p,
      .fnAbortReq (.vdm l) p, .ncsiCommand (.vdm l) ch cmd] → exec c s = .next s) ∧
  (∀ b c s, s.reaches b = false → c ∈ [Instr.mctpControlMessage b 2, .challengeGet b, .statusGet b, .requestUpdate b, .getTid b, .getVersion b] →
    exec c s = .next (s.misses b)) ∧
  (∀ (s : State) a x p l, (s.mgmt.i3cAddr ≠ some (BitVec.toNat a) → s.reaches (.i3c (some a)) = false) ∧ s.reaches (.smbus x false) = false ∧
    (BitVec.toNat a ≠ 0x60 + s.boot.mgmtAddr → s.reaches (.smbus (some a) p) = false) ∧ s.misses (.i3c x) = s ∧ s.misses (.smbus x p) = s ∧
    s.misses (.vdm l) = s ∧ ((s.link l).up = true → s.misses (.vdm l .ecrc) = s.tlpFails (pfOfLink l) .ecrc)) ∧
  (∀ (s : State) a x, s.mgmtOut (.i3c a) x = [.ibi, .mgmt (.i3c a) x])) ∧
  ((∀ b s, s.takes b .molgori = true →
    ∃ (u : State) (c : Bytes), exec (.challengeGet b) s = .next u ∧ c.length = 32 ∧ u.boot.challenge = some c ∧
      u.out = s.out ++ s.mgmtOut b ([1, 1, 0, 0] ++ c) ∧ OnlyIn [.boot, .out] s u) ∧
  (∀ b p s, s.takes b .molgori = true → p.length = 4 → (le p 0 2 = 0 ∨ (400 ≤ le p 0 2 ∧ le p 0 2 ≤ 850)) → (le p 2 1 = 1 ∨ le p 2 1 = 2) → le p 3 1 = 0 →
    s.capOn = true → s.boot.flashLeft = none →
    ∃ u : State, exec (.capSet b p) s = .next u ∧ u.power.capW = le p 0 2 ∧ u.power.limit = le p 2 1 ∧ u.power.mode = s.power.mode ∧
      u.out = s.out ++ s.mgmtOut b [7, 1, 0, 0] ∧ OnlyIn [.sets, .power, .out] s u) ∧
  (∀ b p s, s.takes b .molgori = true → p.length = 8 → 1 ≤ le p 4 1 → le p 4 1 ≤ 60 → p.drop 5 = [0, 0, 0] →
    ∃ u : State, exec (.ledgerGet b p) s = .next u ∧ OnlyIn [.out] s u ∧ u.out = s.out ++
      s.mgmtOut b ([8, 1, 0, 0] ++ (toLe 4 (s.ledger.from_ (le p 0 4) (le p 4 1)).2 ++ [0, 0, 0, 0] ++ (s.ledger.from_ (le p 0 4) (le p 4 1)).1.flatten))) ∧
  (∀ b p s t, s.takes b .board = true → p.length = 4 → le p 3 1 = 0 → t = le p 0 2 → s.fidOk t = true → le p 2 1 = (s.fn t).gen.toNat →
    (s.fn t).state = .active →
    ∃ u : State, exec (.fnAbortReq b p) s = .next u ∧ LeftActive s u t 7 ∧ (∃ o, u.out = o ++ u.mgmtOut b [9, 1, 0, 0])) ∧
  (∀ b s, s.takes b .molgori = true →
    ∃ u : State, exec (.statusGet b) s = .next u ∧ u.out = s.out ++ s.mgmtOut b ([0x0A, 1, 0, 0] ++ s.statusBytes) ∧ OnlyIn [.out] s u) ∧
  (∀ b s, s.takes b .molgori = true → s.commitRefusal = none → s.boot.flashLeft = none →
    ∃ u : State, exec (.updateCommitReq b) s = .next u ∧ u.upd.state = 5 ∧ u.commitMark s.boot.slot = true ∧ (s.hif.devState = 3 → u.hif.devState = 1) ∧
      (∃ o, u.out = o ++ u.mgmtOut b [0x0B, 1, 0, 0])) ∧
  (∀ b s x, s.takes b .molgori = true → s.commitRefusal = some x →
    ∃ u : State, exec (.updateCommitReq b) s = .next u ∧ u.out = s.out ++ s.mgmtOut b ([0x0B, 1] ++ toLe 2 x.1) ∧ OnlyIn [.out] s u) ∧
  (∀ b p s v, s.takes b .board = true → v = p.drop 4 → le p 1 3 = 0 → s.boardOk (le p 0 1) v = true → s.boot.lc ≠ 5 → s.sets.ownerLock = false →
    s.boot.flashLeft = none →
    (le p 0 1 = 3 → p.length = 16 →
      ∃ u : State, exec (.boardDataSet b p) s = .next u ∧ u.sets.prefixNext = slice v 0 12 ∧ u.sets.lrdPrefix = s.sets.lrdPrefix ∧
        u.out = s.out ++ s.mgmtOut b [5, 1, 0, 0] ∧ OnlyIn [.sets, .out] s u) ∧
    (le p 0 1 = 2 → p.length = 6 →
      ∃ (u : State), exec (.boardDataSet b p) s = .next u ∧
        (∀ i, s.sets.inUse = some i → ∃ c, Tab.find i u.sets.copies = some c ∧ c.bifs = (List.range 8).filter (bit (le v 0 2))) ∧
        (s.sets.inUse = none → s.boot.trial = true → u.sets.copies = s.sets.copies ∧
          u.sets.later = s.sets.later ++ [.bifs ((List.range 8).filter (bit (le v 0 2)))]) ∧ u.out = s.out ++ s.mgmtOut b [5, 1, 0, 0] ∧ OnlyIn [.sets, .out] s u) ∧
    (le p 0 1 = 4 → p.length = 6 →
      ∃ u : State, exec (.boardDataSet b p) s = .next u ∧ u.hif.infra = le v 0 2 ∧ u.out = s.out ++ s.mgmtOut b [5, 1, 0, 0] ∧ OnlyIn [.hif, .sets, .out] s u) ∧
    (le p 0 1 = 1 → p.length = 20 →
      ∃ (u : State), exec (.boardDataSet b p) s = .next u ∧
        (∀ i, s.sets.inUse = some i → ∃ c, Tab.find i u.sets.copies = some c ∧ ∀ n, n < 16 → c.media.getD n 0 = le v n 1) ∧
        OnlyIn [.sets, .out] s u)) ∧
  (∀ r a s, s.boot.stage ≠ .off → bit s.debugMask (reachRow r) = false → exec (.debugPortAccess r a) s = exec (.cipherAlarm .debugIntrusion) s) ∧
  (∀ r s, s.boot.stage ≠ .off → bit s.debugMask (reachRow r) = true → exec (.debugPortAccess r) s = .next s) ∧
  (∀ (t : ThreadId) s, s.boot.stage ≠ .off → s.boot.mainGood = true → bit s.debugMask (reachRow .runControl) = true →
    ((s.thread t).state = .running → ∃ u : State, exec (.debugPortAccess .runControl (.halt t)) s = .next u ∧ (u.thread t).state = .halted ∧
      (u.thread t).pc = (s.thread t).pc ∧ (u.thread t).regs = (s.thread t).regs) ∧
    ((s.thread t).state = .halted → ∃ u : State, exec (.debugPortAccess .runControl (.resume t)) s = .next u ∧
      (u.thread t).state = (s.thread t).was)) ∧
  (∀ (h : Half) s, s.boot.stage ≠ .off → s.boot.mainGood = true → bit s.debugMask (reachRow .runControl) = true → (s.cpHalf h).running = true →
    ∃ u : State, exec (.debugPortAccess .runControl (.haltCp h)) s = .next u ∧ (u.cpHalf h).halted = true ∧ u.cpHalf (1 - h) = s.cpHalf (1 - h)) ∧
  (∀ (o : BitVec 32) n (v : BitVec 64) s, s.boot.stage ≠ .off → s.boot.mainGood = true → bit s.debugMask (reachRow .engineRegs) = true →
    exec (.debugPortAccess .engineRegs (.write o n v)) s = .next (s.cpWrite o.toNat v.toNat) ∧
    exec (.debugPortAccess .engineRegs (.read o n)) s = .next ((s.cpRead o.toNat n 0).2.emit (.debug (BitVec.ofNat 64 (s.cpRead o.toNat n 0).1)))) ∧
  (∀ s : State, s.debugMask = (match s.boot.debugLc with
    | none => 1
    | some lc => reachMask lc)))

/-- Tokens: one that names the operation, the device and the latest challenge and is signed as its operation needs moves the life cycle, with the
owner's digest installed or the owner's material erased as the move says, burns a fuse step that the next first stage takes over, sets OWNER_LOCK,
installs an installation key or revokes a root; it uses up the challenge. The move out of BLANK protects the recovery region. A transition whose
token fails is denied and leaves the life cycle and the owner (R449, R470, R471, R472, R477, R498, R499). -/
def Obligations.TokenCommands : Prop :=
  (∀ b t s n, s.takes b .board = true → t.length = 284 ∨ t.length = 568 → n = le t 1 1 → s.tokenFits (t.take 284) 1 n = true →
    s.lcSigned t s.boot.lc n = true → s.boot.flashLeft = none →
    ∃ u : State, exec (.lcTransition b t) s = .next u ∧ u.boot.lc = s.boot.lc ∧ u.boot.lcNew = some n ∧ u.boot.lcSteps = s.boot.lcSteps + 1 ∧
      u.boot.challenge = none ∧ u.mgmt = {} ∧ u.fns = State.reset.fns ∧
      (s.boot.lc = 0 → u.boot.recoverWp = true) ∧ (s.boot.lc = 1 → n = 2 → u.boot.owner = some (slice t 44 48)) ∧
      (n = 4 ∨ n = 5 → u.boot.owner = none ∧ u.cry.kiks = [] ∧ u.sets.ownerLock = false) ∧ u.ledger.buf = []) ∧
  (∀ b t s, s.takes b .board = true → t.length = 284 ∨ t.length = 568 →
    (s.tokenFits (t.take 284) 1 (le t 1 1) = false ∨ s.lcSigned t s.boot.lc (le t 1 1) = false) →
    ∃ u : State, exec (.lcTransition b t) s = .next u ∧ u.boot.lc = s.boot.lc ∧ u.boot.lcNew = s.boot.lcNew ∧
      u.boot.owner = s.boot.owner ∧ u.boot.flash = s.boot.flash ∧
      u.out = s.out ++ s.mgmtOut b ([2, 1] ++ toLe 2 stDenied) ∧ OnlyIn [.boot, .out] s u) ∧
  (∀ b s n, s.boot.stage = .first → s.boot.stbyGood = true → RefClk.stby ∉ s.clock.missing → s.boot.lcNew = some n →
    ∃ u : State, exec (.firstStage b) s = .next u ∧ u.boot.lc = n ∧ u.boot.lcNew = none ∧ u.boot.debugLc = some n) ∧
  (∀ b t s a, s.takes b .board = true → a = le t 1 1 → a ≤ 1 → s.tokenFits t 2 a = true → allZero (slice t 44 48) = true → s.ownerToken t = true →
    (s.boot.lc = 2 ∨ s.boot.lc = 3) →
    ∃ u : State, exec (.ownerLockSet b t) s = .next u ∧ u.sets = { s.sets with ownerLock := a == 1 } ∧ u.boot = { s.boot with challenge := none } ∧
      u.out = s.out ++ s.mgmtOut b [3, 1, 0, 0] ∧ OnlyIn [.sets, .boot, .out] s u) ∧
  (∀ b p s k, s.takes b .board = true → p.length = 320 → k = le p 0 1 → k ≤ 3 → le p 1 3 = 0 → s.boot.lc = 2 → s.tokenFits (p.drop 36) 3 k = true →
    slice (p.drop 36) 44 48 = sha384 (slice p 4 32) → s.ownerToken (p.drop 36) = true →
    ∃ u : State, exec (.kikInstall b p) s = .next u ∧ Tab.find k u.cry.kiks = some (slice p 4 32) ∧
      (∀ j, j ≠ k → Tab.find j u.cry.kiks = Tab.find j s.cry.kiks) ∧ u.boot = { s.boot with challenge := none } ∧ OnlyIn [.cry, .boot, .out] s u) ∧
  (∀ b t s k, s.takes b .board = true → k = le t 1 1 → k < 4 → s.tokenFits t 4 k = true → allZero (slice t 44 48) = true → s.rootToken t = true →
    s.boot.lc ≠ 5 →
    ∃ u : State, exec (.rootRevoke b t) s = .next u ∧ u.boot = { s.boot with challenge := none, revoked := s.boot.revoked ||| 2 ^ k } ∧
      u.out = s.out ++ s.mgmtOut b [6, 1, 0, 0] ∧ OnlyIn [.boot, .out] s u)

/-- PLDM for platform monitoring: each request is answered on its binding with its success code, sensors with their latest sample, the state sensor
with the thermal level; an unknown sensor is refused; a sensor is disabled until it is enabled again. The codes are the standard's (R495, R500; log
entry 62). -/
def Obligations.PlatformMessages : Prop :=
  (∀ b s, s.takes b .pldmBase = true →
    (∃ (u : State) (x : Byte), exec (.getTid b) s = .next u ∧ u.out = s.out ++ s.mgmtOut b [0, 2, 0, x] ∧ OnlyIn [.out] s u) ∧
    (∃ u : State, exec (.getPldmTypes b) s = .next u ∧ u.out = s.out ++ s.mgmtOut b ([0, 4, 0] ++ toLe 8 (maskOf (s.pldmTypes b))) ∧ OnlyIn [.out] s u) ∧
    (∃ (u : State) (x : Bytes), exec (.getPdrRepositoryInfo b) s = .next u ∧ u.out = s.out ++ s.mgmtOut b ([2, 0x50, 0] ++ x) ∧ OnlyIn [.out] s u) ∧
    (∀ t : Byte, (s.pldmTypes b).contains t.toNat = true →
      (∃ (u : State) (x : Bytes), exec (.getPldmVersion b t) s = .next u ∧ u.out = s.out ++ s.mgmtOut b ([0, 3, 0] ++ x) ∧ OnlyIn [.out] s u) ∧
      (∃ u : State, exec (.getPldmCommands b t) s = .next u ∧ u.out = s.out ++ s.mgmtOut b ([0, 5, 0] ++ toLe 32 (maskOf (pldmCmds t.toNat))) ∧
        OnlyIn [.out] s u)) ∧
    (∀ h : BitVec 32, h.toNat ≤ 192 →
      ∃ u : State, exec (.getPdr b h) s = .next u ∧ OnlyIn [.out] s u ∧ u.out = s.out ++ s.mgmtOut b ([2, 0x51, 0] ++
        (toLe 4 (if max h.toNat 1 = 192 then 0 else max h.toNat 1 + 1) ++ toLe 4 0 ++ [5] ++ toLe 2 (pdrBytes (max h.toNat 1)).length ++
          pdrBytes (max h.toNat 1)))) ∧
    (∃ (u : State) (x : Bytes), exec (.getStateSensorReadings b 0x50) s = .next u ∧
      u.out = s.out ++ s.mgmtOut b ([2, 0x21, 0, 1, 0] ++ toLe 1 s.power.level ++ x) ∧ OnlyIn [.out] s u)) ∧
  (∀ b (i : BitVec 16) s, s.takes b .pldmBase = true → numericSensor i.toNat = true →
    (∀ v, s.numericReading i.toNat = some v → i.toNat ∉ s.mgmt.disabled →
      ∃ (u : State) (x : Bytes), exec (.getSensorReading b i) s = .next u ∧ x.length = 4 ∧
        u.out = s.out ++ s.mgmtOut b ([2, 0x11, 0, 5, 0] ++ x ++ toLe 4 (unsigned 32 v)) ∧ OnlyIn [.out] s u) ∧
    (∀ e : Byte, e.toNat ≤ 2 →
      ∃ u : State, exec (.setNumericSensorEnable b i e) s = .next u ∧ (i.toNat ∈ u.mgmt.disabled ↔ e ≠ 0) ∧
        (∀ j, j ≠ i.toNat → (j ∈ u.mgmt.disabled ↔ j ∈ s.mgmt.disabled)) ∧ u.out = s.out ++ s.mgmtOut b [2, 0x10, 0] ∧ OnlyIn [.mgmt, .out] s u)) ∧
  (∀ b (i : BitVec 16) s, s.takes b .pldmBase = true → numericSensor i.toNat = false →
    ∃ u : State, exec (.getSensorReading b i) s = .next u ∧ u.out = s.out ++ s.mgmtOut b [2, 0x11, 0x80] ∧ OnlyIn [.out] s u)

/-- PLDM for firmware update: an update that may begin is accepted, one that R476 refuses is answered not ready or busy; UPDATE_COMPONENT begins a
new image of the one component, whose record enters the journal, and asks for its first piece; another component is not taken; each piece asked for
is staged and the next one asked for, and with the last the image is STAGED; activation arms it with SEQ one above the running image's;
CANCEL_UPDATE ends it (R473, R476, R479, R480, R482, R484, R501). -/
def Obligations.FirmwareMessages : Prop :=
  (∀ b s, s.takes b .pldmUpdate = true → s.boot.stage ≠ .recovery → s.requestRefusal = none →
    (∃ u : State, exec (.requestUpdate b) s = .next u ∧ u.out = s.out ++ s.mgmtOut b [5, 0x10, 0, 0, 0, 0] ∧ OnlyIn [.out] s u) ∧
    (∃ u : State, exec (.passComponentTable b) s = .next u ∧ u.out = s.out ++ s.mgmtOut b [5, 0x13, 0, 0, 0] ∧ OnlyIn [.out] s u)) ∧
  (∀ b s x, s.takes b .pldmUpdate = true → s.boot.stage ≠ .recovery → s.requestRefusal = some x →
    ∃ (u : State) (c : Byte), exec (.requestUpdate b) s = .next u ∧ (c = 4 ∨ c = 0x86) ∧ u.out = s.out ++ s.mgmtOut b [5, 0x10, c] ∧ OnlyIn [.out] s u) ∧
  (∀ b (n t : BitVec 32) s, s.takes b .pldmUpdate = true → s.boot.stage ≠ .recovery → 1 ≤ n.toNat → n.toNat ≤ 12582912 →
    s.beginRefusal n.toNat (BitVec.ofNat 64 t.toNat) 1 = none → s.updResumes n.toNat (BitVec.ofNat 64 t.toNat) 1 = false →
    s.boot.flashLeft = none → s.upd.worn.contains s.upd.jpos = false →
    ∃ u : State, exec (.updateComponent b n t) s = .next u ∧ u.upd.state = 1 ∧ u.upd.next = 0 ∧ u.upd.page = [] ∧ u.armed s.inactive = false ∧
      Tab.find s.upd.jpos u.upd.journal = some ({
        type := 1, slot := s.inactive, agent := 1, tag := BitVec.ofNat 64 t.toNat, total := n.toNat
        oldSeq := (s.eraseRecord s.inactive).runningSeq, jseq := s.upd.jseq } : JRec).bytes ∧
      (∃ o, u.out = o ++ u.mgmtOut b ([5, 0x14, 0] ++ List.replicate 8 0) ++ u.mgmtOut b ([5, 0x15] ++ toLe 4 0 ++ toLe 4 u.pieceLen))) ∧
  (∀ b n t (c : BitVec 16) s, s.takes b .pldmUpdate = true → c ≠ 0x5120 →
    ∃ u : State, exec (.updateComponent b n t c) s = .next u ∧ u.out = s.out ++ s.mgmtOut b [5, 0x14, 0, 1, 6, 0, 0, 0, 0, 0, 0] ∧ OnlyIn [.out] s u) ∧
  (∀ b d s, s.takes b .pldmUpdate = true → s.boot.stage ≠ .recovery → s.stageRefusal 1 = none → d.length = s.pieceLen →
    s.upd.next + d.length < s.updTotal →
    ∃ u : State, exec (.requestFirmwareData b d true) s = .next u ∧ u.upd.state = 1 ∧ u.upd.next = s.upd.next + d.length ∧
      u.out = s.out ++ s.mgmtOut b ([5, 0x15] ++ toLe 4 u.upd.next ++ toLe 4 u.pieceLen)) ∧
  (∀ b d s, s.takes b .pldmUpdate = true → s.boot.stage ≠ .recovery → s.stageRefusal 1 = none → d.length = s.pieceLen →
    s.updTotal = s.upd.next + d.length →
    ∃ u : State, exec (.requestFirmwareData b d true) s = .next u ∧ u.upd.state = 2 ∧ u.upd.next = s.updTotal ∧
      (∃ o, u.out = o ++ u.mgmtOut b [5, 0x18, 0, 0, 0])) ∧
  (∀ b s, s.takes b .pldmUpdate = true → s.boot.stage ≠ .recovery → s.armRefusal 1 = none → s.boot.flashLeft = none →
    ∃ u : State, exec (.activateFirmware b false) s = .next u ∧ u.upd.state = 3 ∧ u.armed s.updSlot = true ∧
      u.slotSeq s.updSlot = (s.runningSeq + 1) % 4294967296 ∧ (∃ o, u.out = o ++ u.mgmtOut b [5, 0x1A, 0, 0, 0])) ∧
  (∀ b s, s.takes b .pldmUpdate = true →
    ∃ u : State, exec (.activateFirmware b true) s = .next u ∧ u.out = s.out ++ s.mgmtOut b [5, 0x1A, 0x8C] ∧ OnlyIn [.out] s u) ∧
  (∀ b s, s.takes b .pldmUpdate = true → s.boot.stage ≠ .recovery → s.cancelRefusal = none →
    ∃ u : State, exec (.cancelUpdate b) s = .next u ∧ u.upd.state = 0 ∧ u.upd.next = 0 ∧
      (∃ o, u.out = o ++ u.mgmtOut b ([5, 0x1D, 0] ++ List.replicate 9 0))) ∧
  (∀ b s, s.takes b .pldmUpdate = true →
    ∃ (u : State) (x y : Bytes), exec (.getStatus b) s = .next u ∧ u.out = s.out ++ s.mgmtOut b ([5, 0x1B, 0, s.pldmState] ++ x ++ toLe 1 s.pldmProgress ++ y) ∧
      OnlyIn [.out] s u)

/-- SPDM: versions 1.2 and 1.3 are offered, and answers carry the one the requester speaks; only ECDSA P-384 with SHA-384 negotiates; only
certificate slot 0 exists; challenges and signed measurements are refused while the identity key is absent or withheld; a measurement asked for is
returned; an answer too large is fetched in chunks. The codes are the standard's, and the version of an answer is the model's reading (R470, R495,
R502; log entries 62, 102). -/
def Obligations.AttestationMessages : Prop :=
  (∀ b s, s.takes b .spdm = true →
    ∃ u : State, exec (.getVersion b) s = .next u ∧ bindNo b ∉ u.mgmt.spdmOk ∧ u.spdmVer b = 0x13 ∧ u.out = s.out ++ s.mgmtOut b [0x10, 4, 0, 0, 0, 2, 0, 0x12, 0, 0x13] ∧
      OnlyIn [.mgmt, .out] s u) ∧
  (∀ b v12 s, s.takes b .spdm = true →
    ∃ (u : State) (x y : Bytes), exec (.getCapabilities b v12) s = .next u ∧ u.spdmVer b = (if v12 then 0x12 else 0x13) ∧
      (∀ c, bindNo c ≠ bindNo b → u.spdmVer c = s.spdmVer c) ∧
      u.out = s.out ++ s.mgmtOut b ([u.spdmVer b, 0x61, 0, 0] ++ x ++ toLe 4 0x00020016 ++ toLe 4 4096 ++ y) ∧ OnlyIn [.mgmt, .out] s u) ∧
  (∀ b s, s.takes b .spdm = true →
    ∃ u : State, exec (.negotiateAlgorithms b true true) s = .next u ∧ bindNo b ∈ u.mgmt.spdmOk ∧ OnlyIn [.mgmt, .out] s u) ∧
  (∀ b x y s, s.takes b .spdm = true → (x && y) = false →
    ∃ u : State, exec (.negotiateAlgorithms b x y) s = .next u ∧ u.out = s.out ++ s.mgmtOut b [s.spdmVer b, 0x7F, 1, 0] ∧ OnlyIn [.out] s u) ∧
  (∀ b s, s.takes b .spdm = true → s.mgmt.spdmOk.contains (bindNo b) = true →
    (∃ u : State, exec (.getDigests b) s = .next u ∧ u.out = s.out ++ s.mgmtOut b ([s.spdmVer b, 1, 0, 1] ++ sha384 Config.certChain) ∧ OnlyIn [.out] s u) ∧
    (∀ (o n : BitVec 16) p, n.toNat ≤ 4088 → p = (Config.certChain.drop o.toNat).take n.toNat →
      ∃ u : State, exec (.getCertificate b 0 o n) s = .next u ∧ OnlyIn [.out] s u ∧
        u.out = s.out ++ s.mgmtOut b (if o.toNat < Config.certChain.length then [s.spdmVer b, 2, 0, 0] ++
          (toLe 2 p.length ++ toLe 2 (Config.certChain.length - o.toNat - p.length) ++ p) else [s.spdmVer b, 0x7F, 1, 0])) ∧
    (∀ (k : Byte) (o n : BitVec 16), k ≠ 0 →
      ∃ u : State, exec (.getCertificate b k o n) s = .next u ∧ u.out = s.out ++ s.mgmtOut b [s.spdmVer b, 0x7F, 1, 0] ∧ OnlyIn [.out] s u) ∧
    (∀ z, s.hasIdentity = true →
      ∃ (u : State) (n g : Bytes), exec (.challenge b 0 z) s = .next u ∧ n.length = 32 ∧ g.length = 96 ∧
        u.out = s.out ++ s.mgmtOut b ([s.spdmVer b, 3, 0, 1] ++ (sha384 Config.certChain ++ n ++ [0, 0] ++ g)) ∧ OnlyIn [.out] s u) ∧
    (∀ k z, s.hasIdentity = false →
      ∃ u : State, exec (.challenge b k z) s = .next u ∧ u.out = s.out ++ s.mgmtOut b [s.spdmVer b, 0x7F, 7, 0] ∧ OnlyIn [.out] s u) ∧
    (∀ i z, s.hasIdentity = false →
      ∃ u : State, exec (.getMeasurements b i true z) s = .next u ∧ u.out = s.out ++ s.mgmtOut b [s.spdmVer b, 0x7F, 7, 0] ∧ OnlyIn [.out] s u) ∧
    (∀ (i : Byte) z m, s.measurement i.toNat = some m → i.toNat ≤ 10 → 1 ≤ i.toNat → m.2.length ≤ 256 →
      ∃ (u : State) (n : Bytes), exec (.getMeasurements b i false z) s = .next u ∧ n.length = 32 ∧ OnlyIn [.out] s u ∧
        u.out = s.out ++ s.mgmtOut b ([s.spdmVer b, 0x60, 0, 0] ++ ([1] ++ toLe 3 (measBlock i.toNat m).length ++ measBlock i.toNat m ++ n ++ [0, 0]))) ∧
    (∀ (q : BitVec 32) m, Tab.find (bindNo b) s.mgmt.large = some m → (q.toNat + 1) * 4080 < m.length →
      ∃ u : State, exec (.chunkGet b q) s = .next u ∧ OnlyIn [.out] s u ∧ u.out = s.out ++
        s.mgmtOut b ([s.spdmVer b, 6, 0, 0] ++ toLe 2 q.toNat ++ [0, 0] ++ toLe 4 4080 ++ (if q.toNat = 0 then toLe 4 m.length else []) ++
          (m.drop (q.toNat * 4080)).take 4080)))

/-- NC-SI: configuring commands set what they name on their channel, after Clear Initial State; enabling a channel gives it the passthrough and
disables the one that had it; a command that is not supported is answered so. Frames of the BMC leave on the LP of the enabled channel while it is
UP; frames of the wire that its filters take go to the BMC alone (R503, R504). -/
def Obligations.SidebandMessages : Prop :=
  (∀ b (c : Fin 16) s x, s.takes b .ncsi = true → Tab.find c.val s.mgmt.chans = some x →
    (∃ u : State, exec (.ncsiCommand b c .enableChannel) s = .next u ∧ u.mgmt.pass = some c.val ∧ u.ncChan c = some { x with on := true } ∧
      (∀ d y, s.mgmt.pass = some d → d ≠ c.val → s.ncChan d = some y → u.ncChan d = some { y with on := false }) ∧ OnlyIn [.mgmt, .out] s u) ∧
    (∃ u : State, exec (.ncsiCommand b c .disableChannel) s = .next u ∧ u.mgmt.pass ≠ some c.val ∧ u.ncChan c = some { x with on := false } ∧
      OnlyIn [.mgmt, .out] s u) ∧
    (∃ u : State, exec (.ncsiCommand b c .enableTx) s = .next u ∧ u.ncChan c = some { x with tx := true } ∧ u.mgmt.pass = s.mgmt.pass ∧
      OnlyIn [.mgmt, .out] s u) ∧
    (∀ (i : Fin 4) a, ∃ u : State, exec (.ncsiCommand b c (.setMac i a true)) s = .next u ∧ u.mgmt.pass = s.mgmt.pass ∧
      u.ncChan c = some { x with macs := Tab.set i (slice a 0 6) x.macs } ∧ OnlyIn [.mgmt, .out] s u) ∧
    (∃ u : State, exec (.ncsiCommand b c .getLinkStatus) s = .next u ∧
      u.out = s.out ++ s.mgmtOut b ([0x8A, BitVec.ofNat 8 c, 0, 0, 0, 0] ++ s.linkStatus c) ∧ OnlyIn [.mgmt, .out] s u) ∧
    (∀ k : Byte, ∃ u : State, exec (.ncsiCommand b c (.other k)) s = .next u ∧
      u.out = s.out ++ s.mgmtOut b [k ||| 0x80, BitVec.ofNat 8 c, 0, 3, 0x7F, 0xFF] ∧ u.mgmt.chans = s.mgmt.chans ∧ OnlyIn [.mgmt, .out] s u)) ∧
  (∀ b (c : Fin 16) s, s.takes b .ncsi = true → Tab.find c.val s.mgmt.chans = none →
    ∃ u : State, exec (.ncsiCommand b c .clearInitialState) s = .next u ∧ u.ncChan c = some {} ∧ u.mgmt.pass = s.mgmt.pass ∧ OnlyIn [.mgmt, .out] s u) ∧
  (∀ f s c x, s.mgmtOn = true → s.mgmt.pass = some c → s.ncChan c = some x → x.tx = true → (s.lp (8 * c)).state = .up → (padTo60 f).length ≤ 1518 →
    s.mgmt.txAt ≤ s.clock.now →
    ∃ u : State, exec (.ncsiTxPassthrough f) s = .next u ∧ u.out = s.out ++ [.frame (8 * c) (padTo60 f ++ fcsOf (padTo60 f))] ∧
      OnlyIn [.mgmt, .stats, .out] s u) ∧
  (∀ f s c, s.mgmt.pass = some c → (s.lp (8 * c)).state ≠ .up → exec (.ncsiTxPassthrough f) s = .next s) ∧
  (∀ (lp : LpId) (f : Bytes) n y s c g, s.mgmt.pass = some c → lp.val = 8 * c → s.lpExists lp = true → (s.lp lp).state = .up → 64 ≤ f.length →
    f.length ≤ 1522 → g = f.take (f.length - 4) → isMacCtrl g = false → ((s.ncChan c).getD {}).takes g = true → s.mgmt.passLevel ≤ 60000 →
    ∃ u : State, exec (.frameReceive lp f true n y) s = .next u ∧ u.out = s.out ++ [.bmcFrame g] ∧ u.net = s.net)

/-! ## Interruptions and memory errors -/

/-- A row that writes the flash or the fuses may be cut off by a loss of standby power, a POR, or a DEVICE_WARM that is due: the first `n` of its
writes and erasures stand, the rest are not made, and the device then does what the interruption does; where that cannot come the row runs whole. So
an ARM cut off after the arm record leaves an armed slot and the journal as it was, one cut off before it leaves the flash as it was, and a COMMIT
cut off after its mark leaves the image committed; what is torn reads as not there, as log entry 143 says (R451, R466, R472, R493). -/
def Obligations.PowerCuts : Prop :=
  (∀ s n c mk f k b d ok i z st co rd bad, s.canCut c = true →
    mk ∈ cuttable f k b d ok i z st co rd bad →
    ∃ t : State, exec (mk none) { s with boot := { s.boot with flashLeft := some n } } = .next t ∧
      exec (mk (some (n, c))) s = .next ((t.keepFlash s).cutBy c)) ∧
  (∀ s n c mk f k b d ok i z st co rd bad, s.canCut c = false →
    mk ∈ cuttable f k b d ok i z st co rd bad → exec (mk (some (n, c))) s = exec (mk none) s) ∧
  (∀ (s : State) a bs n, s.boot.flashLeft = some 0 → s.flashWrite a bs = s ∧ s.flashErase a n = s) ∧
  (∀ (s : State) a bs k, s.boot.flashLeft = some (k + 1) → s.wpHolds a = false →
    (s.flashWrite a bs).boot.flash = Mem.write 0xFF s.boot.flash a bs ∧ (s.flashWrite a bs).boot.flashLeft = some k) ∧
  (∀ (s t : State), ((t.keepFlash s).cutBy .power).boot.flash = t.boot.flash ∧ ((t.keepFlash s).cutBy .power).upd.journal = t.upd.journal ∧
    ((t.keepFlash s).cutBy .power).boot.lcNew = t.boot.lcNew ∧ ((t.keepFlash s).cutBy .power).boot.stage = .off ∧
    ((t.keepFlash s).cutBy .power).boot.failMask = 0) ∧
  (∀ (fid : Fid) s r p, Passes { op := 0x0803, cls := 1, issuer := 2, east := false, lenMin := 4, lenMax := 4 } s fid r p →
    seqNewer (le p 0 4) s.runningSeq = true → s.armRefusal 0 = none → s.boot.stbyGood = true →
    (∃ u : State, exec (.updateArm fid (some (0, .power))) s = .next u ∧ u.boot.flash = s.boot.flash ∧ u.upd.journal = s.upd.journal) ∧
    (∃ u : State, exec (.updateArm fid (some (1, .power))) s = .next u ∧ u.armed s.updSlot = true ∧ u.slotSeq s.updSlot = le p 0 4 ∧
      u.upd.journal = s.upd.journal ∧ u.boot.stage = .off)) ∧
  (∀ (fid : Fid) s r p, Passes { op := 0x0804, cls := 1, issuer := 2, east := false } s fid r p → s.commitRefusal = none → s.boot.stbyGood = true →
    ∃ u : State, exec (.updateCommit fid (some (1, .power))) s = .next u ∧ u.commitMark s.boot.slot = true ∧ u.upd.journal = s.upd.journal ∧
      u.boot.stage = .off)

/-! ## Rules stated whole -/

/-- LYS.CHRECV (R414): the oldest message, 64 bytes, goes to the aligned address in scratch, private or shared memory and is removed, and rd holds
the count of messages still committed; a thread that is not the reader receives nothing. -/
def Obligations.ChannelReceive : Prop :=
  (∀ (t : ThreadId) (rd rs1 rs2 : RegNo) s ch a c m ms, s.issues t = true → ch = (s.rv t rs1).toNat → ch < 4096 → a = (s.rv t rs2).toNat →
    xlysTarget a 64 64 = true → s.chan ch = some c → c.orphan = false → s.chanCut t c = false → c.reader = t.val → c.msgs = m :: ms → m.length = 64 →
    ∃ u : State, exec (.lysChrecv t rd rs1 rs2 .none) s = .next u ∧ u.chan ch = some { c with msgs := ms, full := [] } ∧
      (∀ i, i < 64 → u.memByte t (a + i) = m.getD i 0) ∧
      (∀ b, (b < a ∨ a + 64 ≤ b) → regionOf b ≠ some .window → u.memByte t b = s.memByte t b) ∧
      (u.thread t).pc = (s.thread t).pc + 4 ∧ (u.thread t).regs = ((s.thread t).setReg rd (BitVec.ofNat 64 ms.length)).regs ∧
      (∀ x, x ∈ c.full → (u.thread x).events = (s.thread x).events ||| 8) ∧ OnlyIn [.off] s u) ∧
  (∀ (t : ThreadId) (rd rs1 rs2 : RegNo) s ch c, s.issues t = true → ch = (s.rv t rs1).toNat → ch < 4096 →
    xlysTarget (s.rv t rs2).toNat 64 64 = true → s.chan ch = some c → c.orphan = false → s.chanCut t c = false → c.reader ≠ t.val →
    ∃ u : State, exec (.lysChrecv t rd rs1 rs2 .none) s = .next u ∧ ThreadOnly t ((s.thread t).past rd (failCode 8) 4) s u) ∧
  (∀ (t : ThreadId) (rd rs1 rs2 : RegNo) s, s.issues t = true → xlysTarget (s.rv t rs2).toNat 64 64 = false → (s.core (coreOf t)).mode ≠ 2 →
    (s.thread t).mtvec ≠ 0 →
    ∃ u : State, exec (.lysChrecv t rd rs1 rs2 .none) s = .next u ∧ u.off.chans = s.off.chans ∧ (u.thread t).mcause = 25 ∧
      (u.thread t).regs = (s.thread t).regs)

/-- A fault of a thread in START, TEST or RECOVERY (R394): mepc takes the PC of the faulting instruction, mcause and mtval are written, and
execution continues at mtvec, whatever the trap CSRs held before; with mtvec 0 the thread is parked FAULTED at that PC. In RUN mode a thread other
than thread 0 is parked, the fault is recorded, EV_THREAD_FAULT becomes pending for thread 0, and the thread issues nothing (R392). -/
def Obligations.ThreadFaults : Prop :=
  (∀ (t cause : Nat) (v : BitVec 64) (s : State), (s.core (coreOf t)).mode ≠ 2 → (s.thread t).mtvec ≠ 0 →
    (s.threadFault t cause v).thread t = { s.thread t with
      state := .running, pc := (s.thread t).mtvec, mepc := (s.thread t).pc, mcause := BitVec.ofNat 64 cause, mtval := v } ∧
    (∀ x, x ≠ t → (s.threadFault t cause v).thread x = s.thread x)) ∧
  (∀ (t cause : Nat) (v : BitVec 64) (s : State), t < 2048 → ((s.core (coreOf t)).mode = 2 ∨ (s.thread t).mtvec = 0) →
    ((s.threadFault t cause v).thread t).state = .faulted ∧ ((s.threadFault t cause v).thread t).pc = (s.thread t).pc ∧
    ((s.threadFault t cause v).thread t).mepc = (s.thread t).pc ∧ ((s.threadFault t cause v).thread t).mcause = BitVec.ofNat 64 cause ∧
    ((s.threadFault t cause v).thread t).mtval = v ∧ (s.threadFault t cause v).issues t = false ∧
    (t % 16 ≠ 0 → ((s.threadFault t cause v).thread (16 * coreOf t)).events.getLsbD 62 = true)) ∧
  (∀ (t : ThreadId) (s : State) h, s.issues t = false → exec (.instruction t h) s = .next s)

/-- Bucket records (R520): a charge that first takes a bucket to half its threshold, rounded up, writes FAULT_BUCKET_HALF, be it at the threshold
too; one below half, or after that record, writes none until the bucket has drained to 0; one that reaches the threshold writes FAULT_PERMANENT and
empties the bucket. The bucket a charge finds has drained by the leak periods that have passed. -/
def Obligations.BucketRecords : Prop :=
  (∀ (s : State) (r w l : Nat), l = (s.bucketNow r).level + w → l < resThreshold r → (resThreshold r + 1) / 2 ≤ l → (s.bucketNow r).half = false →
    (s.charge r w).2 = false ∧ (s.charge r w).1.ledger = (s.ledgerAdd 0x0102 r (toLe 4 l)).ledger ∧
    ((s.charge r w).1.bucket r).level = l ∧ ((s.charge r w).1.bucket r).half = true) ∧
  (∀ (s : State) (r w l : Nat), l = (s.bucketNow r).level + w → l < resThreshold r → (l < (resThreshold r + 1) / 2 ∨ (s.bucketNow r).half = true) →
    (s.charge r w).2 = false ∧ (s.charge r w).1.ledger = s.ledger ∧ ((s.charge r w).1.bucket r).level = l ∧
    ((s.charge r w).1.bucket r).half = (s.bucketNow r).half) ∧
  (∀ (s v : State) (r w l : Nat), l = (s.bucketNow r).level + w → resThreshold r ≤ l →
    v = (if (resThreshold r + 1) / 2 ≤ l ∧ (s.bucketNow r).half = false then s.ledgerAdd 0x0102 r (toLe 4 l) else s) →
    (s.charge r w).2 = true ∧ (s.charge r w).1.bucket r = {} ∧
    (s.charge r w).1.ledger = (v.ledgerAdd 0x0101 r (toLe 1 w ++ [0, 0, 0] ++ toLe 4 (resThreshold r))).ledger) ∧
  (∀ (s : State) (r : Nat) b n, b = s.bucket r → b.since ≤ s.clock.now → n = (s.clock.now - b.since) / resLeak r →
    (s.bucketNow r).level = b.level - n ∧ (s.bucketNow r).half = (b.half && decide (n < b.level))) ∧
  (∀ (r : BitVec 32) dt s, ∃ u : State, exec (.bucketLeak r dt) s = .next u ∧ u.ledger = s.ledger ∧
    u.bucket r.toNat = (s.advance dt).bucketNow r.toNat)

/-! ## The block -/

/-- The command at the front of the queue takes effect on the state with the queue's rest. With nothing waiting the block idles: its clocks go on by
a nanosecond and nothing else differs. How long an idle step lasts is the model's choice (log entry 9). -/
def Obligations.FrontAndIdle : Prop :=
  (∀ (c : Instr) (cs : List Instr) (s : State), step { s with pending := c :: cs } = exec c { s with pending := cs }) ∧
  (∀ s : State, s.pending = [] → ∃ u : State, step s = .next u ∧ u.clock.now = s.clock.now + 1 ∧ u.pending = [] ∧ OnlyIn [.clock] s u)

/-- First in, first out: no command's effect touches the commands that wait, so a step of a block with commands waiting takes away the first and
keeps the others as they are. -/
def Obligations.QueueInOrder : Prop :=
  (∀ (c : Instr) (s u : State), exec c s = .next u → u.pending = s.pending) ∧ (∀ (s u : State), step s = .next u → u.pending = s.pending.tail)

/-- Every command takes effect: no command ends in a fault or a refusal, in any state. -/
def Obligations.EveryCommandCompletes : Prop :=
 ∀ (c : Instr) (s : State), ∃ u : State, exec c s = .next u

/-- The flash keeps its one form, in every state a step reaches from one that has it: addresses rise and no erased byte is listed, so that equal
contents are equal data. -/
def Obligations.FlashKept : Prop :=
 ∀ (s u : State), FlashOk s → step s = .next u → FlashOk u

/-- After power-on reset: no command waits, the flash has its form, no function and no ring exists, HRT_RELEASE, HRT_PART_VALID and HRT_CP_STATUS
read 0, no fault and no retirement is recorded, and no counter has counted. -/
def Obligations.ResetState : Prop :=
  State.reset.pending = [] ∧ FlashOk State.reset ∧ (∀ fid, (State.reset.fn fid).state = .disabled) ∧ State.reset.rings = [] ∧
  State.reset.boot.release = 0 ∧ State.reset.boot.parts = 0 ∧ State.reset.boot.cpStatus = 0 ∧ State.reset.rel.retired = [] ∧
  (∀ r, State.reset.bucket r = {}) ∧ (∀ g i n, State.reset.stat g i n = 0)
end

