-- ==== Sys2Proof/Laws/Tab.lean ====
section
/-! SUPPORT. What the operations over tables and byte memories do: a read after a write, and that each keeps the canonical form. -/

namespace Sys2Proof

/-! ## Tables -/

@[simp] theorem Tab.find_nil {α : Type} (k : Nat) : Tab.find k ([] : Tab α) = none := rfl

theorem Tab.find_cons {α : Type} (k j : Nat) (v : α) (t : Tab α) : Tab.find k ((j, v) :: t) = if k = j then some v else Tab.find k t := rfl

@[simp] theorem Tab.getD_nil {α : Type} (k : Nat) (d : α) : Tab.getD ([] : Tab α) k d = d := rfl

/-- Reading a table after a write: the written key gives the value, every other key what it gave. -/
theorem Tab.find_set {α : Type} (k j : Nat) (v : α) (t : Tab α) : Tab.find j (Tab.set k v t) = if j = k then some v else Tab.find j t := by
  induction t with
  | nil => rfl
  | cons e t ih =>
    obtain ⟨i, w⟩ := e
    simp only [Tab.set]
    split
    · subst_vars; simp only [Tab.find_cons]; split <;> simp_all
    · split
      · simp only [Tab.find_cons]
      · simp only [Tab.find_cons, ih]; split <;> split <;> simp_all

@[simp] theorem Tab.find_set_self {α : Type} (k : Nat) (v : α) (t : Tab α) : Tab.find k (Tab.set k v t) = some v := by simp [Tab.find_set]
theorem Tab.find_set_ne {α : Type} {k j : Nat} (h : j ≠ k) (v : α) (t : Tab α) : Tab.find j (Tab.set k v t) = Tab.find j t := by
  simp [Tab.find_set, h]

/-- Reading a table after a removal. -/
theorem Tab.find_del {α : Type} (k j : Nat) (t : Tab α) : Tab.find j (Tab.del k t) = if j = k then none else Tab.find j t := by
  induction t with
  | nil => simp [Tab.del]
  | cons e t ih =>
    obtain ⟨i, w⟩ := e
    simp only [Tab.del, List.filter_cons] at ih ⊢
    by_cases hik : i = k
    · subst hik
      simp only [bne_self_eq_false, Bool.false_eq_true, if_false, ih, Tab.find_cons]
      split <;> simp_all
    · simp only [bne_iff_ne.mpr hik, if_true, Tab.find_cons, ih]
      split <;> split <;> simp_all

@[simp] theorem Tab.find_del_self {α : Type} (k : Nat) (t : Tab α) : Tab.find k (Tab.del k t) = none := by simp [Tab.find_del]

/-- Reading a table after an entry was changed. -/
theorem Tab.getD_upd {α : Type} (k j : Nat) (d : α) (f : α → α) (t : Tab α) :
    (Tab.upd k d f t).getD j d = if j = k then f (t.getD k d) else t.getD j d := by
  simp only [Tab.upd, Tab.getD, Tab.find_set]; split <;> rfl

/-- Of two writes at one key the second stands. -/
@[simp] theorem Tab.set_set {α : Type} (k : Nat) (v w : α) (t : Tab α) : Tab.set k v (Tab.set k w t) = Tab.set k v t := by
  induction t with
  | nil => simp [Tab.set]
  | cons e t ih =>
    obtain ⟨j, x⟩ := e
    simp only [Tab.set]
    split
    · simp [Tab.set]
    · split
      · simp [Tab.set]
      · rename_i h1 h2; simp only [Tab.set, if_neg h1, if_neg h2, ih]

theorem Tab.upd_upd {α : Type} (k : Nat) (d : α) (f g : α → α) (t : Tab α) : (t.upd k d f).upd k d g = t.upd k d (fun x => g (f x)) := by
  simp only [Tab.upd, Tab.getD, Tab.set_set, Tab.find_set_self, Option.getD_some]

/-- Reading a table all of whose entries were changed by a function of key and value. -/
theorem Tab.find_mapV {α : Type} (f : Nat → α → α) (k : Nat) (t : Tab α) : Tab.find k (Tab.mapV f t) = (Tab.find k t).map (f k) := by
  induction t with
  | nil => rfl
  | cons e t ih =>
    obtain ⟨i, w⟩ := e
    simp only [Tab.mapV, List.map_cons, Tab.find_cons] at ih ⊢
    split
    · subst_vars; rfl
    · exact ih

/-- A key that is found is listed. -/
theorem Tab.mem_of_find {α : Type} {k : Nat} {v : α} {t : Tab α} (h : Tab.find k t = some v) : (k, v) ∈ t := by
  induction t with
  | nil => simp at h
  | cons e t ih =>
    obtain ⟨i, w⟩ := e
    simp only [Tab.find_cons] at h
    split at h
    · simp_all
    · exact List.mem_cons_of_mem _ (ih h)

/-- A key that no entry carries is not found. -/
theorem Tab.find_none {α : Type} {k : Nat} {t : Tab α} (h : ∀ e ∈ t, e.1 ≠ k) : Tab.find k t = none := by
  induction t with
  | nil => rfl
  | cons e t ih =>
    obtain ⟨i, w⟩ := e
    rw [Tab.find_cons, if_neg (fun c => h (i, w) (by simp) c.symm)]
    exact ih (fun x hx => h x (List.mem_cons_of_mem _ hx))

/-! ## Rising keys -/

theorem Tab.rising_cons {α : Type} (j : Nat) (w : α) (t : Tab α) :
    Tab.rising ((j, w) :: t) = true ↔ (∀ e ∈ t, j < e.1) ∧ Tab.rising t = true := by
  induction t generalizing j w with
  | nil => simp [Tab.rising]
  | cons e t ih =>
    obtain ⟨k, x⟩ := e
    simp only [Tab.rising, Bool.and_eq_true, decide_eq_true_eq, List.forall_mem_cons]
    constructor
    · rintro ⟨h, r⟩
      exact ⟨⟨h, fun e he => Nat.lt_trans h (((ih k x).mp r).1 e he)⟩, r⟩
    · rintro ⟨⟨h, _⟩, r⟩
      exact ⟨h, r⟩

theorem Tab.mem_set {α : Type} {k : Nat} {v : α} {t : Tab α} {e : Nat × α} (h : e ∈ Tab.set k v t) : e = (k, v) ∨ e ∈ t := by
  induction t with
  | nil => simp [Tab.set] at h; exact .inl h
  | cons x t ih =>
    obtain ⟨j, w⟩ := x
    simp only [Tab.set] at h
    split at h
    · rcases List.mem_cons.mp h with h | h <;> simp [h]
    · split at h
      · rcases List.mem_cons.mp h with h | h <;> simp [h]
      · rcases List.mem_cons.mp h with h | h
        · simp [h]
        · rcases ih h with h | h <;> simp [h]

/-- A write keeps the keys rising. -/
theorem Tab.rising_set {α : Type} (k : Nat) (v : α) {t : Tab α} (h : Tab.rising t = true) : Tab.rising (Tab.set k v t) = true := by
  induction t with
  | nil => rfl
  | cons x t ih =>
    obtain ⟨j, w⟩ := x
    have ⟨hb, hr⟩ := (Tab.rising_cons j w t).mp h
    simp only [Tab.set]
    split
    · subst_vars; exact (Tab.rising_cons _ _ _).mpr ⟨hb, hr⟩
    · split
      · rename_i hk
        refine (Tab.rising_cons _ _ _).mpr ⟨fun e he => ?_, h⟩
        rcases List.mem_cons.mp he with he | he
        · subst he; exact hk
        · exact Nat.lt_trans hk (hb e he)
      · refine (Tab.rising_cons _ _ _).mpr ⟨fun e he => ?_, ih hr⟩
        rcases Tab.mem_set he with he | he
        · subst he; show j < k; omega
        · exact hb e he

/-- Leaving entries out keeps the keys rising. -/
theorem Tab.rising_filter {α : Type} (p : Nat × α → Bool) {t : Tab α} (h : Tab.rising t = true) : Tab.rising (t.filter p) = true := by
  induction t with
  | nil => rfl
  | cons x t ih =>
    obtain ⟨j, w⟩ := x
    have ⟨hb, hr⟩ := (Tab.rising_cons j w t).mp h
    rw [List.filter_cons]
    split
    · exact (Tab.rising_cons _ _ _).mpr ⟨fun e he => hb e (List.mem_filter.mp he).1, ih hr⟩
    · exact ih hr

theorem Tab.rising_del {α : Type} (k : Nat) {t : Tab α} (h : Tab.rising t = true) : Tab.rising (Tab.del k t) = true := Tab.rising_filter _ h

/-! ## Byte memories -/

/-- Reading one byte after one byte was written. -/
theorem Mem.get_put (d : Byte) (m : Tab Byte) (a x : Nat) (b : Byte) : Mem.get d (Mem.put d m a b) x = if x = a then b else Mem.get d m x := by
  simp only [Mem.get, Mem.put, Tab.getD]
  split
  · subst_vars; rw [Tab.find_del]; split <;> rfl
  · rw [Tab.find_set]; split <;> rfl

/-- Reading one byte after a byte string was written. -/
theorem Mem.get_write (d : Byte) (bs : Bytes) : ∀ (m : Tab Byte) (a x : Nat), Mem.get d (Mem.write d m a bs) x =
    if a ≤ x ∧ x < a + bs.length then bs.getD (x - a) d else Mem.get d m x := by
  induction bs with
  | nil => intro m a x; simp only [Mem.write, List.length_nil]; rw [if_neg (by omega)]
  | cons b bs ih =>
    intro m a x
    simp only [Mem.write, ih, Mem.get_put, List.length_cons]
    by_cases h : x = a
    · subst h; rw [if_neg (by omega), if_pos rfl, if_pos (by omega), Nat.sub_self]; rfl
    · by_cases h2 : a ≤ x ∧ x < a + (bs.length + 1)
      · rw [if_pos (by omega), if_pos h2]
        obtain ⟨n, rfl⟩ : ∃ n, x = a + 1 + n := ⟨x - (a + 1), by omega⟩
        rw [show a + 1 + n - (a + 1) = n by omega, show a + 1 + n - a = n + 1 by omega]; rfl
      · rw [if_neg (by omega), if_neg h, if_neg h2]

@[simp] theorem Mem.read_length (d : Byte) (m : Tab Byte) (a n : Nat) : (Mem.read d m a n).length = n := by
  induction n generalizing a with
  | zero => rfl
  | succ n ih => simp [Mem.read, ih]

/-- A byte string read is its bytes read one by one. -/
theorem Mem.read_getD (d : Byte) (m : Tab Byte) (a n i : Nat) (e : Byte) (h : i < n) : (Mem.read d m a n).getD i e = Mem.get d m (a + i) := by
  induction n generalizing a i with
  | zero => omega
  | succ n ih =>
    cases i with
    | zero => rfl
    | succ i => rw [show a + (i + 1) = a + 1 + i by omega, ← ih (a + 1) i (by omega)]; rfl

theorem Mem.read_congr {d : Byte} {m m' : Tab Byte} {a n : Nat} (h : ∀ x, a ≤ x → x < a + n → Mem.get d m x = Mem.get d m' x) :
    Mem.read d m a n = Mem.read d m' a n := by
  induction n generalizing a with
  | zero => rfl
  | succ n ih => simp only [Mem.read]; rw [h a (by omega) (by omega), ih (fun x h1 h2 => h x (by omega) (by omega))]

/-- A byte string read where it was written is what was written. -/
theorem Mem.read_write (d : Byte) (m : Tab Byte) (a : Nat) (bs : Bytes) : Mem.read d (Mem.write d m a bs) a bs.length = bs := by
  induction bs generalizing m a with
  | nil => rfl
  | cons b bs ih =>
    show Mem.get d (Mem.write d m a (b :: bs)) a :: Mem.read d (Mem.write d (Mem.put d m a b) (a + 1) bs) (a + 1) bs.length = b :: bs
    rw [ih, Mem.get_write, if_pos (by simp)]; simp

/-- Bytes read outside those written are as they were. -/
theorem Mem.read_write_out (d : Byte) (m : Tab Byte) (a b n : Nat) (bs : Bytes) (h : b + n ≤ a ∨ a + bs.length ≤ b) :
    Mem.read d (Mem.write d m a bs) b n = Mem.read d m b n :=
  Mem.read_congr (fun x h1 h2 => by rw [Mem.get_write, if_neg (by omega)])

theorem getD_at (bs : Bytes) (i : Nat) (d : Byte) (h : i < bs.length) : bs.getD i d = bs[i] := by
  rw [List.getD_eq_getElem?_getD, List.getElem?_eq_getElem h]; rfl

/-- Part of what was written. -/
theorem Mem.read_write_in (d : Byte) (m : Tab Byte) (a o n : Nat) (bs : Bytes) (h : o + n ≤ bs.length) :
    Mem.read d (Mem.write d m a bs) (a + o) n = (bs.drop o).take n := by
  apply List.ext_getElem
  · rw [Mem.read_length, List.length_take, List.length_drop]; omega
  · intro i h1 h2
    rw [Mem.read_length] at h1
    have e := Mem.read_getD d (Mem.write d m a bs) (a + o) n i d h1
    rw [Mem.get_write, if_pos (by omega), show a + o + i - a = o + i by omega, getD_at _ _ _ (by rw [Mem.read_length]; exact h1),
      getD_at _ _ _ (by omega)] at e
    rw [e, List.getElem_take, List.getElem_drop]

/-- Bytes none of which is listed. -/
theorem Mem.read_unlisted (d : Byte) (m : Tab Byte) (a n : Nat) (h : ∀ e ∈ m, e.1 < a ∨ a + n ≤ e.1) : Mem.read d m a n = List.replicate n d := by
  induction n generalizing a with
  | zero => rfl
  | succ n ih =>
    rw [List.replicate_succ, Mem.read, ih (a + 1) (fun e he => by rcases h e he with h | h <;> omega), Mem.get, Tab.getD,
      Tab.find_none (fun e he => by rcases h e he with h | h <;> omega)]
    rfl

/-! ## The canonical form -/

theorem Mem.wf_iff (d : Byte) (m : Tab Byte) : Mem.wf d m = true ↔ Tab.rising m = true ∧ ∀ e ∈ m, e.2 ≠ d := by
  simp [Mem.wf]

theorem Mem.wf_nil (d : Byte) : Mem.wf d [] = true := rfl

/-- Leaving bytes out keeps the form. -/
theorem Mem.wf_filter {d : Byte} {m : Tab Byte} (p : Nat × Byte → Bool) (h : Mem.wf d m = true) : Mem.wf d (m.filter p) = true := by
  have ⟨hr, hd⟩ := (Mem.wf_iff d m).mp h
  exact (Mem.wf_iff _ _).mpr ⟨Tab.rising_filter p hr, fun e he => hd e (List.mem_filter.mp he).1⟩

/-- Writing a byte keeps the form. -/
theorem Mem.wf_put {d : Byte} {m : Tab Byte} (a : Nat) (b : Byte) (h : Mem.wf d m = true) : Mem.wf d (Mem.put d m a b) = true := by
  unfold Mem.put
  split
  · exact Mem.wf_filter _ h
  · rename_i hb
    have ⟨hr, hd⟩ := (Mem.wf_iff d m).mp h
    refine (Mem.wf_iff _ _).mpr ⟨Tab.rising_set a b hr, fun e he => ?_⟩
    rcases Tab.mem_set he with he | he
    · subst he; exact hb
    · exact hd e he

/-- Writing a byte string keeps the form. -/
theorem Mem.wf_write {d : Byte} {m : Tab Byte} (a : Nat) (bs : Bytes) (h : Mem.wf d m = true) : Mem.wf d (Mem.write d m a bs) = true := by
  induction bs generalizing m a with
  | nil => exact h
  | cons b bs ih => exact ih (a + 1) (Mem.wf_put a b h)

/-! ## Numbers and byte strings -/

@[simp] theorem toLe_length (n v : Nat) : (toLe n v).length = n := by
  induction n generalizing v with
  | zero => rfl
  | succ n ih => simp [toLe, ih]

@[simp] theorem toBe_length (n v : Nat) : (toBe n v).length = n := by simp [toBe]

/-- A number comes back from its bytes modulo their width. -/
theorem leNat_toLe (n v : Nat) : leNat (toLe n v) = v % 256 ^ n := by
  induction n generalizing v with
  | zero => simp [toLe, leNat, Nat.mod_one]
  | succ n ih =>
    simp only [toLe, leNat, ih, BitVec.toNat_ofNat]
    have h : 256 ^ (n + 1) = 256 * 256 ^ n := by rw [Nat.pow_succ, Nat.mul_comm]
    rw [h, Nat.mod_mul]

@[simp] theorem slice_length (bs : Bytes) (o n : Nat) : (slice bs o n).length = n := by
  simp only [slice, List.length_append, List.length_replicate, List.length_take]; omega

end Sys2Proof
end

