-- ==== Sys2Proof/Laws/State.lean ====
section
/-! SUPPORT. The updates of the state: what each writes, and that every other field stays. No later proof needs to unfold a record update. -/

namespace Sys2Proof.Machine

open Sys2Proof

/-! ## Frames -/

theorem OnlyIn.refl (ps : List Field) (s : State) : OnlyIn ps s s := by intro p _; cases p <;> rfl

theorem OnlyIn.trans {ps : List Field} {s t u : State} (h : OnlyIn ps s t) (k : OnlyIn ps t u) : OnlyIn ps s u := by
  intro p hp
  have a := h p hp
  have b := k p hp
  cases p <;> exact b.trans a

theorem OnlyIn.mono {ps qs : List Field} {s t : State} (h : OnlyIn ps s t) (hq : ∀ p, p ∈ ps → p ∈ qs) : OnlyIn qs s t :=
  fun p hp => h p (fun c => hp (hq p c))

/-! ## Reading after an update -/

theorem State.fn_modFn (i j : Nat) (f : Fn → Fn) (s : State) : (s.modFn i f).fn j = if j = i then f (s.fn i) else s.fn j := by
  simp only [State.fn, State.modFn, Tab.getD_upd]
@[simp] theorem State.fn_modFn_self (i : Nat) (f : Fn → Fn) (s : State) : (s.modFn i f).fn i = f (s.fn i) := by rw [State.fn_modFn, if_pos rfl]
theorem State.resOf_modRes (i j : Nat) (f : FnRes → FnRes) (s : State) : (s.modRes i f).resOf j = if j = i then f (s.resOf i) else s.resOf j := by
  simp only [State.resOf, State.modRes, Tab.getD_upd]
@[simp] theorem State.resOf_modRes_self (i : Nat) (f : FnRes → FnRes) (s : State) : (s.modRes i f).resOf i = f (s.resOf i) := by rw [State.resOf_modRes, if_pos rfl]
theorem State.link_modLink (i j : Nat) (f : Link → Link) (s : State) : (s.modLink i f).link j = if j = i then f (s.link i) else s.link j := by
  simp only [State.link, State.modLink, Tab.getD_upd]
@[simp] theorem State.link_modLink_self (i : Nat) (f : Link → Link) (s : State) : (s.modLink i f).link i = f (s.link i) := by rw [State.link_modLink, if_pos rfl]
theorem State.workOf_modWork (i j : Nat) (f : RingWork → RingWork) (s : State) : (s.modWork i f).workOf j = if j = i then f (s.workOf i) else s.workOf j := by
  simp only [State.workOf, State.modWork, Tab.getD_upd]
@[simp] theorem State.workOf_modWork_self (i : Nat) (f : RingWork → RingWork) (s : State) : (s.modWork i f).workOf i = f (s.workOf i) := by rw [State.workOf_modWork, if_pos rfl]
theorem State.pipe_modPipe (i j : Nat) (f : Pipe → Pipe) (s : State) : (s.modPipe i f).pipe j = if j = i then f (s.pipe i) else s.pipe j := by
  simp only [State.pipe, State.modPipe, Tab.getD_upd]
@[simp] theorem State.pipe_modPipe_self (i : Nat) (f : Pipe → Pipe) (s : State) : (s.modPipe i f).pipe i = f (s.pipe i) := by rw [State.pipe_modPipe, if_pos rfl]
theorem State.np_modNp (i j : Nat) (f : Np → Np) (s : State) : (s.modNp i f).np j = if j = i then f (s.np i) else s.np j := by
  simp only [State.np, State.modNp, Tab.getD_upd]
@[simp] theorem State.np_modNp_self (i : Nat) (f : Np → Np) (s : State) : (s.modNp i f).np i = f (s.np i) := by rw [State.np_modNp, if_pos rfl]
theorem State.lp_modLp (i j : Nat) (f : Lp → Lp) (s : State) : (s.modLp i f).lp j = if j = i then f (s.lp i) else s.lp j := by
  simp only [State.lp, State.modLp, Tab.getD_upd]
@[simp] theorem State.lp_modLp_self (i : Nat) (f : Lp → Lp) (s : State) : (s.modLp i f).lp i = f (s.lp i) := by rw [State.lp_modLp, if_pos rfl]
theorem State.lane_modLane (i j : Nat) (f : Lane → Lane) (s : State) : (s.modLane i f).lane j = if j = i then f (s.lane i) else s.lane j := by
  simp only [State.lane, State.modLane, Tab.getD_upd]
@[simp] theorem State.lane_modLane_self (i : Nat) (f : Lane → Lane) (s : State) : (s.modLane i f).lane i = f (s.lane i) := by rw [State.lane_modLane, if_pos rfl]
theorem State.egq_modEgq (i j : Nat) (f : EgQ → EgQ) (s : State) : (s.modEgq i f).egq j = if j = i then f (s.egq i) else s.egq j := by
  simp only [State.egq, State.modEgq, Tab.getD_upd]
@[simp] theorem State.egq_modEgq_self (i : Nat) (f : EgQ → EgQ) (s : State) : (s.modEgq i f).egq i = f (s.egq i) := by rw [State.egq_modEgq, if_pos rfl]
theorem State.spread_modSpread (i j : Nat) (f : Spread → Spread) (s : State) : (s.modSpread i f).spread j = if j = i then f (s.spread i) else s.spread j := by
  simp only [State.spread, State.modSpread, Tab.getD_upd]
@[simp] theorem State.spread_modSpread_self (i : Nat) (f : Spread → Spread) (s : State) : (s.modSpread i f).spread i = f (s.spread i) := by rw [State.spread_modSpread, if_pos rfl]
theorem State.engine_modEngine (i j : Nat) (f : Engine → Engine) (s : State) : (s.modEngine i f).engine j = if j = i then f (s.engine i) else s.engine j := by
  simp only [State.engine, State.modEngine, Tab.getD_upd]
@[simp] theorem State.engine_modEngine_self (i : Nat) (f : Engine → Engine) (s : State) : (s.modEngine i f).engine i = f (s.engine i) := by rw [State.engine_modEngine, if_pos rfl]
theorem State.core_modCore (i j : Nat) (f : Core → Core) (s : State) : (s.modCore i f).core j = if j = i then f (s.core i) else s.core j := by
  simp only [State.core, State.modCore, Tab.getD_upd]
@[simp] theorem State.core_modCore_self (i : Nat) (f : Core → Core) (s : State) : (s.modCore i f).core i = f (s.core i) := by rw [State.core_modCore, if_pos rfl]
theorem State.thread_modThread (i j : Nat) (f : Thread → Thread) (s : State) : (s.modThread i f).thread j = if j = i then f (s.thread i) else s.thread j := by
  simp only [State.thread, State.modThread, Tab.getD_upd]
@[simp] theorem State.thread_modThread_self (i : Nat) (f : Thread → Thread) (s : State) : (s.modThread i f).thread i = f (s.thread i) := by rw [State.thread_modThread, if_pos rfl]
theorem State.ring_setRing (i j : Nat) (r : Ring) (s : State) : (s.setRing i r).ring j = if j = i then some r else s.ring j := Tab.find_set i j r _
theorem State.ring_modRing (i j : Nat) (f : Ring → Ring) (s : State) : (s.modRing i f).ring j = if j = i then (s.ring i).map f else s.ring j := by
  unfold State.modRing
  split
  · rename_i h; rw [h]; split
    · subst_vars; exact h
    · rfl
  · rename_i r h; rw [State.ring_setRing, h]; rfl
theorem State.chan_setChan (i j : Nat) (x : Chan) (s : State) : (s.setChan i x).chan j = if j = i then some x else s.chan j := Tab.find_set i j x _
theorem State.bucket_setBucket (i j : Nat) (b : Bucket) (s : State) : (s.setBucket i b).bucket j = if j = i then b else s.bucket j := by
  simp only [State.bucket, State.setBucket, Tab.getD, Tab.find_set]; split <;> rfl
theorem State.stat_bumpBy (g i n k g' i' n' : Nat) (s : State) : (s.bumpBy g i n k).stat g' i' n' =
    if statKey g' i' n' = statKey g i n then (s.stat g i n + k) % 2 ^ 64 else s.stat g' i' n' :=
  Tab.getD_upd (statKey g i n) (statKey g' i' n') 0 (fun v => (v + k) % 18446744073709551616) s.stats
theorem State.stat_bump (g i n : Nat) (s : State) : (s.bump g i n).stat g i n = (s.stat g i n + 1) % 2 ^ 64 := by
  rw [State.bump, State.stat_bumpBy, if_pos rfl]

/-- A walk over a list keeps whatever each of its steps keeps. -/
theorem State.each_keeps {α β : Type} (g : State → β) (f : α → State → State) (h : ∀ x s, g (f x s) = g s) (l : List α) (s : State) :
    g (s.each f l) = g s := by
  induction l generalizing s with
  | nil => rfl
  | cons x xs ih => simp only [State.each]; rw [ih, h]

/-- A walk over a list keeps an invariant that each of its steps keeps. -/
theorem State.each_inv {α : Type} (P : State → Prop) (f : α → State → State) (h : ∀ x s, P s → P (f x s)) (l : List α) (s : State) (hs : P s) :
    P (s.each f l) := by
  induction l generalizing s with
  | nil => exact hs
  | cons x xs ih => exact ih _ (h x s hs)

/-! ## Flash (R449) -/

theorem flashOk_reset : FlashOk State.reset := rfl
theorem State.flashWrite_eq {s : State} {a : Nat} (bs : Bytes) (hw : s.wpHolds a = false) (hg : s.flashGo = true) :
    s.flashWrite a bs = State.flashTick { s with boot := { s.boot with flash := Mem.write 0xFF s.boot.flash a bs } } := by
  simp [State.flashWrite, State.flashOp, hw, hg]
theorem State.flashErase_eq {s : State} {a : Nat} (n : Nat) (hw : s.wpHolds a = false) (hg : s.flashGo = true) :
    s.flashErase a n = State.flashTick { s with boot := { s.boot with
      flash := s.boot.flash.filter (fun e => decide (e.1 < a) || decide (a + n ≤ e.1)) } } := by
  simp [State.flashErase, State.flashOp, hw, hg]
/-- A flash operation on the write-protected recovery region, or one that the power no longer lets run, changes nothing (R449, R493). -/
theorem State.flashWrite_stay {s : State} {a : Nat} (bs : Bytes) (h : s.wpHolds a = true ∨ s.flashGo = false) : s.flashWrite a bs = s := by
  unfold State.flashWrite State.flashOp; rcases h with h | h <;> simp [h]
theorem State.flashErase_stay {s : State} {a : Nat} (n : Nat) (h : s.wpHolds a = true ∨ s.flashGo = false) : s.flashErase a n = s := by
  unfold State.flashErase State.flashOp; rcases h with h | h <;> simp [h]
/-- A flash operation runs, or it changes nothing. -/
theorem State.flash_cases (a : Nat) (s : State) : (s.wpHolds a = false ∧ s.flashGo = true) ∨ (s.wpHolds a = true ∨ s.flashGo = false) := by
  cases s.wpHolds a <;> cases s.flashGo <;> simp
theorem flashOk_flashWrite {s : State} (a : Nat) (bs : Bytes) (h : FlashOk s) : FlashOk (s.flashWrite a bs) := by
  rcases State.flash_cases a s with ⟨x, y⟩ | x
  · rw [State.flashWrite_eq bs x y]; exact Mem.wf_write a bs h
  · rw [State.flashWrite_stay bs x]; exact h
theorem flashOk_flashErase {s : State} (a n : Nat) (h : FlashOk s) : FlashOk (s.flashErase a n) := by
  rcases State.flash_cases a s with ⟨x, y⟩ | x
  · rw [State.flashErase_eq n x y]; exact Mem.wf_filter _ h
  · rw [State.flashErase_stay n x]; exact h
/-- What is programmed reads back. -/
theorem State.flashRead_flashWrite (a : Nat) (bs : Bytes) (s : State) (hw : s.wpHolds a = false) (hg : s.flashGo = true) :
    (s.flashWrite a bs).flashRead a bs.length = bs := by
  rw [State.flashWrite_eq bs hw hg]; exact Mem.read_write _ _ _ _
theorem State.flashRead_flashWrite_out (a b n : Nat) (bs : Bytes) (s : State) (h : b + n ≤ a ∨ a + bs.length ≤ b) :
    (s.flashWrite a bs).flashRead b n = s.flashRead b n := by
  rcases State.flash_cases a s with ⟨x, y⟩ | x
  · rw [State.flashWrite_eq bs x y]; exact Mem.read_write_out _ _ _ _ _ _ h
  · rw [State.flashWrite_stay bs x]

/-! ## Every other field stays -/

theorem State.modFn_only (i : Nat) (f : Fn → Fn) (s : State) : OnlyIn [.fns] s (s.modFn i f) := by
  intro p hp; cases p <;> first | exact absurd (List.mem_singleton.mpr rfl) hp | rfl
@[simp] theorem State.modFn_clock (i : Nat) (f : Fn → Fn) (s : State) : (s.modFn i f).clock = s.clock := rfl
@[simp] theorem State.modFn_hif (i : Nat) (f : Fn → Fn) (s : State) : (s.modFn i f).hif = s.hif := rfl
@[simp] theorem State.modFn_links (i : Nat) (f : Fn → Fn) (s : State) : (s.modFn i f).links = s.links := rfl
@[simp] theorem State.modFn_res (i : Nat) (f : Fn → Fn) (s : State) : (s.modFn i f).res = s.res := rfl
@[simp] theorem State.modFn_tickets (i : Nat) (f : Fn → Fn) (s : State) : (s.modFn i f).tickets = s.tickets := rfl
@[simp] theorem State.modFn_cpW (i : Nat) (f : Fn → Fn) (s : State) : (s.modFn i f).cpW = s.cpW := rfl
@[simp] theorem State.modFn_cpE (i : Nat) (f : Fn → Fn) (s : State) : (s.modFn i f).cpE = s.cpE := rfl
@[simp] theorem State.modFn_rings (i : Nat) (f : Fn → Fn) (s : State) : (s.modFn i f).rings = s.rings := rfl
@[simp] theorem State.modFn_work (i : Nat) (f : Fn → Fn) (s : State) : (s.modFn i f).work = s.work := rfl
@[simp] theorem State.modFn_net (i : Nat) (f : Fn → Fn) (s : State) : (s.modFn i f).net = s.net := rfl
@[simp] theorem State.modFn_rel (i : Nat) (f : Fn → Fn) (s : State) : (s.modFn i f).rel = s.rel := rfl
@[simp] theorem State.modFn_ledger (i : Nat) (f : Fn → Fn) (s : State) : (s.modFn i f).ledger = s.ledger := rfl
@[simp] theorem State.modFn_sets (i : Nat) (f : Fn → Fn) (s : State) : (s.modFn i f).sets = s.sets := rfl
@[simp] theorem State.modFn_lrd (i : Nat) (f : Fn → Fn) (s : State) : (s.modFn i f).lrd = s.lrd := rfl
@[simp] theorem State.modFn_cry (i : Nat) (f : Fn → Fn) (s : State) : (s.modFn i f).cry = s.cry := rfl
@[simp] theorem State.modFn_off (i : Nat) (f : Fn → Fn) (s : State) : (s.modFn i f).off = s.off := rfl
@[simp] theorem State.modFn_micro (i : Nat) (f : Fn → Fn) (s : State) : (s.modFn i f).micro = s.micro := rfl
@[simp] theorem State.modFn_boot (i : Nat) (f : Fn → Fn) (s : State) : (s.modFn i f).boot = s.boot := rfl
@[simp] theorem State.modFn_upd (i : Nat) (f : Fn → Fn) (s : State) : (s.modFn i f).upd = s.upd := rfl
@[simp] theorem State.modFn_power (i : Nat) (f : Fn → Fn) (s : State) : (s.modFn i f).power = s.power := rfl
@[simp] theorem State.modFn_mgmt (i : Nat) (f : Fn → Fn) (s : State) : (s.modFn i f).mgmt = s.mgmt := rfl
@[simp] theorem State.modFn_stats (i : Nat) (f : Fn → Fn) (s : State) : (s.modFn i f).stats = s.stats := rfl
@[simp] theorem State.modFn_out (i : Nat) (f : Fn → Fn) (s : State) : (s.modFn i f).out = s.out := rfl
@[simp] theorem State.modFn_free (i : Nat) (f : Fn → Fn) (s : State) : (s.modFn i f).free = s.free := rfl
@[simp] theorem State.modFn_pending (i : Nat) (f : Fn → Fn) (s : State) : (s.modFn i f).pending = s.pending := rfl

theorem State.modRes_only (i : Nat) (f : FnRes → FnRes) (s : State) : OnlyIn [.res] s (s.modRes i f) := by
  intro p hp; cases p <;> first | exact absurd (List.mem_singleton.mpr rfl) hp | rfl
@[simp] theorem State.modRes_clock (i : Nat) (f : FnRes → FnRes) (s : State) : (s.modRes i f).clock = s.clock := rfl
@[simp] theorem State.modRes_hif (i : Nat) (f : FnRes → FnRes) (s : State) : (s.modRes i f).hif = s.hif := rfl
@[simp] theorem State.modRes_links (i : Nat) (f : FnRes → FnRes) (s : State) : (s.modRes i f).links = s.links := rfl
@[simp] theorem State.modRes_fns (i : Nat) (f : FnRes → FnRes) (s : State) : (s.modRes i f).fns = s.fns := rfl
@[simp] theorem State.modRes_tickets (i : Nat) (f : FnRes → FnRes) (s : State) : (s.modRes i f).tickets = s.tickets := rfl
@[simp] theorem State.modRes_cpW (i : Nat) (f : FnRes → FnRes) (s : State) : (s.modRes i f).cpW = s.cpW := rfl
@[simp] theorem State.modRes_cpE (i : Nat) (f : FnRes → FnRes) (s : State) : (s.modRes i f).cpE = s.cpE := rfl
@[simp] theorem State.modRes_rings (i : Nat) (f : FnRes → FnRes) (s : State) : (s.modRes i f).rings = s.rings := rfl
@[simp] theorem State.modRes_work (i : Nat) (f : FnRes → FnRes) (s : State) : (s.modRes i f).work = s.work := rfl
@[simp] theorem State.modRes_net (i : Nat) (f : FnRes → FnRes) (s : State) : (s.modRes i f).net = s.net := rfl
@[simp] theorem State.modRes_rel (i : Nat) (f : FnRes → FnRes) (s : State) : (s.modRes i f).rel = s.rel := rfl
@[simp] theorem State.modRes_ledger (i : Nat) (f : FnRes → FnRes) (s : State) : (s.modRes i f).ledger = s.ledger := rfl
@[simp] theorem State.modRes_sets (i : Nat) (f : FnRes → FnRes) (s : State) : (s.modRes i f).sets = s.sets := rfl
@[simp] theorem State.modRes_lrd (i : Nat) (f : FnRes → FnRes) (s : State) : (s.modRes i f).lrd = s.lrd := rfl
@[simp] theorem State.modRes_cry (i : Nat) (f : FnRes → FnRes) (s : State) : (s.modRes i f).cry = s.cry := rfl
@[simp] theorem State.modRes_off (i : Nat) (f : FnRes → FnRes) (s : State) : (s.modRes i f).off = s.off := rfl
@[simp] theorem State.modRes_micro (i : Nat) (f : FnRes → FnRes) (s : State) : (s.modRes i f).micro = s.micro := rfl
@[simp] theorem State.modRes_boot (i : Nat) (f : FnRes → FnRes) (s : State) : (s.modRes i f).boot = s.boot := rfl
@[simp] theorem State.modRes_upd (i : Nat) (f : FnRes → FnRes) (s : State) : (s.modRes i f).upd = s.upd := rfl
@[simp] theorem State.modRes_power (i : Nat) (f : FnRes → FnRes) (s : State) : (s.modRes i f).power = s.power := rfl
@[simp] theorem State.modRes_mgmt (i : Nat) (f : FnRes → FnRes) (s : State) : (s.modRes i f).mgmt = s.mgmt := rfl
@[simp] theorem State.modRes_stats (i : Nat) (f : FnRes → FnRes) (s : State) : (s.modRes i f).stats = s.stats := rfl
@[simp] theorem State.modRes_out (i : Nat) (f : FnRes → FnRes) (s : State) : (s.modRes i f).out = s.out := rfl
@[simp] theorem State.modRes_free (i : Nat) (f : FnRes → FnRes) (s : State) : (s.modRes i f).free = s.free := rfl
@[simp] theorem State.modRes_pending (i : Nat) (f : FnRes → FnRes) (s : State) : (s.modRes i f).pending = s.pending := rfl

theorem State.modLink_only (i : Nat) (f : Link → Link) (s : State) : OnlyIn [.links] s (s.modLink i f) := by
  intro p hp; cases p <;> first | exact absurd (List.mem_singleton.mpr rfl) hp | rfl
@[simp] theorem State.modLink_clock (i : Nat) (f : Link → Link) (s : State) : (s.modLink i f).clock = s.clock := rfl
@[simp] theorem State.modLink_hif (i : Nat) (f : Link → Link) (s : State) : (s.modLink i f).hif = s.hif := rfl
@[simp] theorem State.modLink_fns (i : Nat) (f : Link → Link) (s : State) : (s.modLink i f).fns = s.fns := rfl
@[simp] theorem State.modLink_res (i : Nat) (f : Link → Link) (s : State) : (s.modLink i f).res = s.res := rfl
@[simp] theorem State.modLink_tickets (i : Nat) (f : Link → Link) (s : State) : (s.modLink i f).tickets = s.tickets := rfl
@[simp] theorem State.modLink_cpW (i : Nat) (f : Link → Link) (s : State) : (s.modLink i f).cpW = s.cpW := rfl
@[simp] theorem State.modLink_cpE (i : Nat) (f : Link → Link) (s : State) : (s.modLink i f).cpE = s.cpE := rfl
@[simp] theorem State.modLink_rings (i : Nat) (f : Link → Link) (s : State) : (s.modLink i f).rings = s.rings := rfl
@[simp] theorem State.modLink_work (i : Nat) (f : Link → Link) (s : State) : (s.modLink i f).work = s.work := rfl
@[simp] theorem State.modLink_net (i : Nat) (f : Link → Link) (s : State) : (s.modLink i f).net = s.net := rfl
@[simp] theorem State.modLink_rel (i : Nat) (f : Link → Link) (s : State) : (s.modLink i f).rel = s.rel := rfl
@[simp] theorem State.modLink_ledger (i : Nat) (f : Link → Link) (s : State) : (s.modLink i f).ledger = s.ledger := rfl
@[simp] theorem State.modLink_sets (i : Nat) (f : Link → Link) (s : State) : (s.modLink i f).sets = s.sets := rfl
@[simp] theorem State.modLink_lrd (i : Nat) (f : Link → Link) (s : State) : (s.modLink i f).lrd = s.lrd := rfl
@[simp] theorem State.modLink_cry (i : Nat) (f : Link → Link) (s : State) : (s.modLink i f).cry = s.cry := rfl
@[simp] theorem State.modLink_off (i : Nat) (f : Link → Link) (s : State) : (s.modLink i f).off = s.off := rfl
@[simp] theorem State.modLink_micro (i : Nat) (f : Link → Link) (s : State) : (s.modLink i f).micro = s.micro := rfl
@[simp] theorem State.modLink_boot (i : Nat) (f : Link → Link) (s : State) : (s.modLink i f).boot = s.boot := rfl
@[simp] theorem State.modLink_upd (i : Nat) (f : Link → Link) (s : State) : (s.modLink i f).upd = s.upd := rfl
@[simp] theorem State.modLink_power (i : Nat) (f : Link → Link) (s : State) : (s.modLink i f).power = s.power := rfl
@[simp] theorem State.modLink_mgmt (i : Nat) (f : Link → Link) (s : State) : (s.modLink i f).mgmt = s.mgmt := rfl
@[simp] theorem State.modLink_stats (i : Nat) (f : Link → Link) (s : State) : (s.modLink i f).stats = s.stats := rfl
@[simp] theorem State.modLink_out (i : Nat) (f : Link → Link) (s : State) : (s.modLink i f).out = s.out := rfl
@[simp] theorem State.modLink_free (i : Nat) (f : Link → Link) (s : State) : (s.modLink i f).free = s.free := rfl
@[simp] theorem State.modLink_pending (i : Nat) (f : Link → Link) (s : State) : (s.modLink i f).pending = s.pending := rfl

theorem State.setRing_only (i : Nat) (r : Ring) (s : State) : OnlyIn [.rings] s (s.setRing i r) := by
  intro p hp; cases p <;> first | exact absurd (List.mem_singleton.mpr rfl) hp | rfl
@[simp] theorem State.setRing_clock (i : Nat) (r : Ring) (s : State) : (s.setRing i r).clock = s.clock := rfl
@[simp] theorem State.setRing_hif (i : Nat) (r : Ring) (s : State) : (s.setRing i r).hif = s.hif := rfl
@[simp] theorem State.setRing_links (i : Nat) (r : Ring) (s : State) : (s.setRing i r).links = s.links := rfl
@[simp] theorem State.setRing_fns (i : Nat) (r : Ring) (s : State) : (s.setRing i r).fns = s.fns := rfl
@[simp] theorem State.setRing_res (i : Nat) (r : Ring) (s : State) : (s.setRing i r).res = s.res := rfl
@[simp] theorem State.setRing_tickets (i : Nat) (r : Ring) (s : State) : (s.setRing i r).tickets = s.tickets := rfl
@[simp] theorem State.setRing_cpW (i : Nat) (r : Ring) (s : State) : (s.setRing i r).cpW = s.cpW := rfl
@[simp] theorem State.setRing_cpE (i : Nat) (r : Ring) (s : State) : (s.setRing i r).cpE = s.cpE := rfl
@[simp] theorem State.setRing_work (i : Nat) (r : Ring) (s : State) : (s.setRing i r).work = s.work := rfl
@[simp] theorem State.setRing_net (i : Nat) (r : Ring) (s : State) : (s.setRing i r).net = s.net := rfl
@[simp] theorem State.setRing_rel (i : Nat) (r : Ring) (s : State) : (s.setRing i r).rel = s.rel := rfl
@[simp] theorem State.setRing_ledger (i : Nat) (r : Ring) (s : State) : (s.setRing i r).ledger = s.ledger := rfl
@[simp] theorem State.setRing_sets (i : Nat) (r : Ring) (s : State) : (s.setRing i r).sets = s.sets := rfl
@[simp] theorem State.setRing_lrd (i : Nat) (r : Ring) (s : State) : (s.setRing i r).lrd = s.lrd := rfl
@[simp] theorem State.setRing_cry (i : Nat) (r : Ring) (s : State) : (s.setRing i r).cry = s.cry := rfl
@[simp] theorem State.setRing_off (i : Nat) (r : Ring) (s : State) : (s.setRing i r).off = s.off := rfl
@[simp] theorem State.setRing_micro (i : Nat) (r : Ring) (s : State) : (s.setRing i r).micro = s.micro := rfl
@[simp] theorem State.setRing_boot (i : Nat) (r : Ring) (s : State) : (s.setRing i r).boot = s.boot := rfl
@[simp] theorem State.setRing_upd (i : Nat) (r : Ring) (s : State) : (s.setRing i r).upd = s.upd := rfl
@[simp] theorem State.setRing_power (i : Nat) (r : Ring) (s : State) : (s.setRing i r).power = s.power := rfl
@[simp] theorem State.setRing_mgmt (i : Nat) (r : Ring) (s : State) : (s.setRing i r).mgmt = s.mgmt := rfl
@[simp] theorem State.setRing_stats (i : Nat) (r : Ring) (s : State) : (s.setRing i r).stats = s.stats := rfl
@[simp] theorem State.setRing_out (i : Nat) (r : Ring) (s : State) : (s.setRing i r).out = s.out := rfl
@[simp] theorem State.setRing_free (i : Nat) (r : Ring) (s : State) : (s.setRing i r).free = s.free := rfl
@[simp] theorem State.setRing_pending (i : Nat) (r : Ring) (s : State) : (s.setRing i r).pending = s.pending := rfl

theorem State.modRing_only (i : Nat) (f : Ring → Ring) (s : State) : OnlyIn [.rings] s (s.modRing i f) := by
  unfold State.modRing; split
  · exact OnlyIn.refl _ _
  · exact State.setRing_only _ _ s
@[simp] theorem State.modRing_clock (i : Nat) (f : Ring → Ring) (s : State) : (s.modRing i f).clock = s.clock := by unfold State.modRing; split <;> rfl
@[simp] theorem State.modRing_hif (i : Nat) (f : Ring → Ring) (s : State) : (s.modRing i f).hif = s.hif := by unfold State.modRing; split <;> rfl
@[simp] theorem State.modRing_links (i : Nat) (f : Ring → Ring) (s : State) : (s.modRing i f).links = s.links := by unfold State.modRing; split <;> rfl
@[simp] theorem State.modRing_fns (i : Nat) (f : Ring → Ring) (s : State) : (s.modRing i f).fns = s.fns := by unfold State.modRing; split <;> rfl
@[simp] theorem State.modRing_res (i : Nat) (f : Ring → Ring) (s : State) : (s.modRing i f).res = s.res := by unfold State.modRing; split <;> rfl
@[simp] theorem State.modRing_tickets (i : Nat) (f : Ring → Ring) (s : State) : (s.modRing i f).tickets = s.tickets := by unfold State.modRing; split <;> rfl
@[simp] theorem State.modRing_cpW (i : Nat) (f : Ring → Ring) (s : State) : (s.modRing i f).cpW = s.cpW := by unfold State.modRing; split <;> rfl
@[simp] theorem State.modRing_cpE (i : Nat) (f : Ring → Ring) (s : State) : (s.modRing i f).cpE = s.cpE := by unfold State.modRing; split <;> rfl
@[simp] theorem State.modRing_work (i : Nat) (f : Ring → Ring) (s : State) : (s.modRing i f).work = s.work := by unfold State.modRing; split <;> rfl
@[simp] theorem State.modRing_net (i : Nat) (f : Ring → Ring) (s : State) : (s.modRing i f).net = s.net := by unfold State.modRing; split <;> rfl
@[simp] theorem State.modRing_rel (i : Nat) (f : Ring → Ring) (s : State) : (s.modRing i f).rel = s.rel := by unfold State.modRing; split <;> rfl
@[simp] theorem State.modRing_ledger (i : Nat) (f : Ring → Ring) (s : State) : (s.modRing i f).ledger = s.ledger := by unfold State.modRing; split <;> rfl
@[simp] theorem State.modRing_sets (i : Nat) (f : Ring → Ring) (s : State) : (s.modRing i f).sets = s.sets := by unfold State.modRing; split <;> rfl
@[simp] theorem State.modRing_lrd (i : Nat) (f : Ring → Ring) (s : State) : (s.modRing i f).lrd = s.lrd := by unfold State.modRing; split <;> rfl
@[simp] theorem State.modRing_cry (i : Nat) (f : Ring → Ring) (s : State) : (s.modRing i f).cry = s.cry := by unfold State.modRing; split <;> rfl
@[simp] theorem State.modRing_off (i : Nat) (f : Ring → Ring) (s : State) : (s.modRing i f).off = s.off := by unfold State.modRing; split <;> rfl
@[simp] theorem State.modRing_micro (i : Nat) (f : Ring → Ring) (s : State) : (s.modRing i f).micro = s.micro := by unfold State.modRing; split <;> rfl
@[simp] theorem State.modRing_boot (i : Nat) (f : Ring → Ring) (s : State) : (s.modRing i f).boot = s.boot := by unfold State.modRing; split <;> rfl
@[simp] theorem State.modRing_upd (i : Nat) (f : Ring → Ring) (s : State) : (s.modRing i f).upd = s.upd := by unfold State.modRing; split <;> rfl
@[simp] theorem State.modRing_power (i : Nat) (f : Ring → Ring) (s : State) : (s.modRing i f).power = s.power := by unfold State.modRing; split <;> rfl
@[simp] theorem State.modRing_mgmt (i : Nat) (f : Ring → Ring) (s : State) : (s.modRing i f).mgmt = s.mgmt := by unfold State.modRing; split <;> rfl
@[simp] theorem State.modRing_stats (i : Nat) (f : Ring → Ring) (s : State) : (s.modRing i f).stats = s.stats := by unfold State.modRing; split <;> rfl
@[simp] theorem State.modRing_out (i : Nat) (f : Ring → Ring) (s : State) : (s.modRing i f).out = s.out := by unfold State.modRing; split <;> rfl
@[simp] theorem State.modRing_free (i : Nat) (f : Ring → Ring) (s : State) : (s.modRing i f).free = s.free := by unfold State.modRing; split <;> rfl
@[simp] theorem State.modRing_pending (i : Nat) (f : Ring → Ring) (s : State) : (s.modRing i f).pending = s.pending := by unfold State.modRing; split <;> rfl

theorem State.modWork_only (i : Nat) (f : RingWork → RingWork) (s : State) : OnlyIn [.work] s (s.modWork i f) := by
  intro p hp; cases p <;> first | exact absurd (List.mem_singleton.mpr rfl) hp | rfl
@[simp] theorem State.modWork_clock (i : Nat) (f : RingWork → RingWork) (s : State) : (s.modWork i f).clock = s.clock := rfl
@[simp] theorem State.modWork_hif (i : Nat) (f : RingWork → RingWork) (s : State) : (s.modWork i f).hif = s.hif := rfl
@[simp] theorem State.modWork_links (i : Nat) (f : RingWork → RingWork) (s : State) : (s.modWork i f).links = s.links := rfl
@[simp] theorem State.modWork_fns (i : Nat) (f : RingWork → RingWork) (s : State) : (s.modWork i f).fns = s.fns := rfl
@[simp] theorem State.modWork_res (i : Nat) (f : RingWork → RingWork) (s : State) : (s.modWork i f).res = s.res := rfl
@[simp] theorem State.modWork_tickets (i : Nat) (f : RingWork → RingWork) (s : State) : (s.modWork i f).tickets = s.tickets := rfl
@[simp] theorem State.modWork_cpW (i : Nat) (f : RingWork → RingWork) (s : State) : (s.modWork i f).cpW = s.cpW := rfl
@[simp] theorem State.modWork_cpE (i : Nat) (f : RingWork → RingWork) (s : State) : (s.modWork i f).cpE = s.cpE := rfl
@[simp] theorem State.modWork_rings (i : Nat) (f : RingWork → RingWork) (s : State) : (s.modWork i f).rings = s.rings := rfl
@[simp] theorem State.modWork_net (i : Nat) (f : RingWork → RingWork) (s : State) : (s.modWork i f).net = s.net := rfl
@[simp] theorem State.modWork_rel (i : Nat) (f : RingWork → RingWork) (s : State) : (s.modWork i f).rel = s.rel := rfl
@[simp] theorem State.modWork_ledger (i : Nat) (f : RingWork → RingWork) (s : State) : (s.modWork i f).ledger = s.ledger := rfl
@[simp] theorem State.modWork_sets (i : Nat) (f : RingWork → RingWork) (s : State) : (s.modWork i f).sets = s.sets := rfl
@[simp] theorem State.modWork_lrd (i : Nat) (f : RingWork → RingWork) (s : State) : (s.modWork i f).lrd = s.lrd := rfl
@[simp] theorem State.modWork_cry (i : Nat) (f : RingWork → RingWork) (s : State) : (s.modWork i f).cry = s.cry := rfl
@[simp] theorem State.modWork_off (i : Nat) (f : RingWork → RingWork) (s : State) : (s.modWork i f).off = s.off := rfl
@[simp] theorem State.modWork_micro (i : Nat) (f : RingWork → RingWork) (s : State) : (s.modWork i f).micro = s.micro := rfl
@[simp] theorem State.modWork_boot (i : Nat) (f : RingWork → RingWork) (s : State) : (s.modWork i f).boot = s.boot := rfl
@[simp] theorem State.modWork_upd (i : Nat) (f : RingWork → RingWork) (s : State) : (s.modWork i f).upd = s.upd := rfl
@[simp] theorem State.modWork_power (i : Nat) (f : RingWork → RingWork) (s : State) : (s.modWork i f).power = s.power := rfl
@[simp] theorem State.modWork_mgmt (i : Nat) (f : RingWork → RingWork) (s : State) : (s.modWork i f).mgmt = s.mgmt := rfl
@[simp] theorem State.modWork_stats (i : Nat) (f : RingWork → RingWork) (s : State) : (s.modWork i f).stats = s.stats := rfl
@[simp] theorem State.modWork_out (i : Nat) (f : RingWork → RingWork) (s : State) : (s.modWork i f).out = s.out := rfl
@[simp] theorem State.modWork_free (i : Nat) (f : RingWork → RingWork) (s : State) : (s.modWork i f).free = s.free := rfl
@[simp] theorem State.modWork_pending (i : Nat) (f : RingWork → RingWork) (s : State) : (s.modWork i f).pending = s.pending := rfl

theorem State.modPipe_only (i : Nat) (f : Pipe → Pipe) (s : State) : OnlyIn [.net] s (s.modPipe i f) := by
  intro p hp; cases p <;> first | exact absurd (List.mem_singleton.mpr rfl) hp | rfl
@[simp] theorem State.modPipe_clock (i : Nat) (f : Pipe → Pipe) (s : State) : (s.modPipe i f).clock = s.clock := rfl
@[simp] theorem State.modPipe_hif (i : Nat) (f : Pipe → Pipe) (s : State) : (s.modPipe i f).hif = s.hif := rfl
@[simp] theorem State.modPipe_links (i : Nat) (f : Pipe → Pipe) (s : State) : (s.modPipe i f).links = s.links := rfl
@[simp] theorem State.modPipe_fns (i : Nat) (f : Pipe → Pipe) (s : State) : (s.modPipe i f).fns = s.fns := rfl
@[simp] theorem State.modPipe_res (i : Nat) (f : Pipe → Pipe) (s : State) : (s.modPipe i f).res = s.res := rfl
@[simp] theorem State.modPipe_tickets (i : Nat) (f : Pipe → Pipe) (s : State) : (s.modPipe i f).tickets = s.tickets := rfl
@[simp] theorem State.modPipe_cpW (i : Nat) (f : Pipe → Pipe) (s : State) : (s.modPipe i f).cpW = s.cpW := rfl
@[simp] theorem State.modPipe_cpE (i : Nat) (f : Pipe → Pipe) (s : State) : (s.modPipe i f).cpE = s.cpE := rfl
@[simp] theorem State.modPipe_rings (i : Nat) (f : Pipe → Pipe) (s : State) : (s.modPipe i f).rings = s.rings := rfl
@[simp] theorem State.modPipe_work (i : Nat) (f : Pipe → Pipe) (s : State) : (s.modPipe i f).work = s.work := rfl
@[simp] theorem State.modPipe_rel (i : Nat) (f : Pipe → Pipe) (s : State) : (s.modPipe i f).rel = s.rel := rfl
@[simp] theorem State.modPipe_ledger (i : Nat) (f : Pipe → Pipe) (s : State) : (s.modPipe i f).ledger = s.ledger := rfl
@[simp] theorem State.modPipe_sets (i : Nat) (f : Pipe → Pipe) (s : State) : (s.modPipe i f).sets = s.sets := rfl
@[simp] theorem State.modPipe_lrd (i : Nat) (f : Pipe → Pipe) (s : State) : (s.modPipe i f).lrd = s.lrd := rfl
@[simp] theorem State.modPipe_cry (i : Nat) (f : Pipe → Pipe) (s : State) : (s.modPipe i f).cry = s.cry := rfl
@[simp] theorem State.modPipe_off (i : Nat) (f : Pipe → Pipe) (s : State) : (s.modPipe i f).off = s.off := rfl
@[simp] theorem State.modPipe_micro (i : Nat) (f : Pipe → Pipe) (s : State) : (s.modPipe i f).micro = s.micro := rfl
@[simp] theorem State.modPipe_boot (i : Nat) (f : Pipe → Pipe) (s : State) : (s.modPipe i f).boot = s.boot := rfl
@[simp] theorem State.modPipe_upd (i : Nat) (f : Pipe → Pipe) (s : State) : (s.modPipe i f).upd = s.upd := rfl
@[simp] theorem State.modPipe_power (i : Nat) (f : Pipe → Pipe) (s : State) : (s.modPipe i f).power = s.power := rfl
@[simp] theorem State.modPipe_mgmt (i : Nat) (f : Pipe → Pipe) (s : State) : (s.modPipe i f).mgmt = s.mgmt := rfl
@[simp] theorem State.modPipe_stats (i : Nat) (f : Pipe → Pipe) (s : State) : (s.modPipe i f).stats = s.stats := rfl
@[simp] theorem State.modPipe_out (i : Nat) (f : Pipe → Pipe) (s : State) : (s.modPipe i f).out = s.out := rfl
@[simp] theorem State.modPipe_free (i : Nat) (f : Pipe → Pipe) (s : State) : (s.modPipe i f).free = s.free := rfl
@[simp] theorem State.modPipe_pending (i : Nat) (f : Pipe → Pipe) (s : State) : (s.modPipe i f).pending = s.pending := rfl

theorem State.modNp_only (i : Nat) (f : Np → Np) (s : State) : OnlyIn [.net] s (s.modNp i f) := by
  intro p hp; cases p <;> first | exact absurd (List.mem_singleton.mpr rfl) hp | rfl
@[simp] theorem State.modNp_clock (i : Nat) (f : Np → Np) (s : State) : (s.modNp i f).clock = s.clock := rfl
@[simp] theorem State.modNp_hif (i : Nat) (f : Np → Np) (s : State) : (s.modNp i f).hif = s.hif := rfl
@[simp] theorem State.modNp_links (i : Nat) (f : Np → Np) (s : State) : (s.modNp i f).links = s.links := rfl
@[simp] theorem State.modNp_fns (i : Nat) (f : Np → Np) (s : State) : (s.modNp i f).fns = s.fns := rfl
@[simp] theorem State.modNp_res (i : Nat) (f : Np → Np) (s : State) : (s.modNp i f).res = s.res := rfl
@[simp] theorem State.modNp_tickets (i : Nat) (f : Np → Np) (s : State) : (s.modNp i f).tickets = s.tickets := rfl
@[simp] theorem State.modNp_cpW (i : Nat) (f : Np → Np) (s : State) : (s.modNp i f).cpW = s.cpW := rfl
@[simp] theorem State.modNp_cpE (i : Nat) (f : Np → Np) (s : State) : (s.modNp i f).cpE = s.cpE := rfl
@[simp] theorem State.modNp_rings (i : Nat) (f : Np → Np) (s : State) : (s.modNp i f).rings = s.rings := rfl
@[simp] theorem State.modNp_work (i : Nat) (f : Np → Np) (s : State) : (s.modNp i f).work = s.work := rfl
@[simp] theorem State.modNp_rel (i : Nat) (f : Np → Np) (s : State) : (s.modNp i f).rel = s.rel := rfl
@[simp] theorem State.modNp_ledger (i : Nat) (f : Np → Np) (s : State) : (s.modNp i f).ledger = s.ledger := rfl
@[simp] theorem State.modNp_sets (i : Nat) (f : Np → Np) (s : State) : (s.modNp i f).sets = s.sets := rfl
@[simp] theorem State.modNp_lrd (i : Nat) (f : Np → Np) (s : State) : (s.modNp i f).lrd = s.lrd := rfl
@[simp] theorem State.modNp_cry (i : Nat) (f : Np → Np) (s : State) : (s.modNp i f).cry = s.cry := rfl
@[simp] theorem State.modNp_off (i : Nat) (f : Np → Np) (s : State) : (s.modNp i f).off = s.off := rfl
@[simp] theorem State.modNp_micro (i : Nat) (f : Np → Np) (s : State) : (s.modNp i f).micro = s.micro := rfl
@[simp] theorem State.modNp_boot (i : Nat) (f : Np → Np) (s : State) : (s.modNp i f).boot = s.boot := rfl
@[simp] theorem State.modNp_upd (i : Nat) (f : Np → Np) (s : State) : (s.modNp i f).upd = s.upd := rfl
@[simp] theorem State.modNp_power (i : Nat) (f : Np → Np) (s : State) : (s.modNp i f).power = s.power := rfl
@[simp] theorem State.modNp_mgmt (i : Nat) (f : Np → Np) (s : State) : (s.modNp i f).mgmt = s.mgmt := rfl
@[simp] theorem State.modNp_stats (i : Nat) (f : Np → Np) (s : State) : (s.modNp i f).stats = s.stats := rfl
@[simp] theorem State.modNp_out (i : Nat) (f : Np → Np) (s : State) : (s.modNp i f).out = s.out := rfl
@[simp] theorem State.modNp_free (i : Nat) (f : Np → Np) (s : State) : (s.modNp i f).free = s.free := rfl
@[simp] theorem State.modNp_pending (i : Nat) (f : Np → Np) (s : State) : (s.modNp i f).pending = s.pending := rfl

theorem State.modLp_only (i : Nat) (f : Lp → Lp) (s : State) : OnlyIn [.net] s (s.modLp i f) := by
  intro p hp; cases p <;> first | exact absurd (List.mem_singleton.mpr rfl) hp | rfl
@[simp] theorem State.modLp_clock (i : Nat) (f : Lp → Lp) (s : State) : (s.modLp i f).clock = s.clock := rfl
@[simp] theorem State.modLp_hif (i : Nat) (f : Lp → Lp) (s : State) : (s.modLp i f).hif = s.hif := rfl
@[simp] theorem State.modLp_links (i : Nat) (f : Lp → Lp) (s : State) : (s.modLp i f).links = s.links := rfl
@[simp] theorem State.modLp_fns (i : Nat) (f : Lp → Lp) (s : State) : (s.modLp i f).fns = s.fns := rfl
@[simp] theorem State.modLp_res (i : Nat) (f : Lp → Lp) (s : State) : (s.modLp i f).res = s.res := rfl
@[simp] theorem State.modLp_tickets (i : Nat) (f : Lp → Lp) (s : State) : (s.modLp i f).tickets = s.tickets := rfl
@[simp] theorem State.modLp_cpW (i : Nat) (f : Lp → Lp) (s : State) : (s.modLp i f).cpW = s.cpW := rfl
@[simp] theorem State.modLp_cpE (i : Nat) (f : Lp → Lp) (s : State) : (s.modLp i f).cpE = s.cpE := rfl
@[simp] theorem State.modLp_rings (i : Nat) (f : Lp → Lp) (s : State) : (s.modLp i f).rings = s.rings := rfl
@[simp] theorem State.modLp_work (i : Nat) (f : Lp → Lp) (s : State) : (s.modLp i f).work = s.work := rfl
@[simp] theorem State.modLp_rel (i : Nat) (f : Lp → Lp) (s : State) : (s.modLp i f).rel = s.rel := rfl
@[simp] theorem State.modLp_ledger (i : Nat) (f : Lp → Lp) (s : State) : (s.modLp i f).ledger = s.ledger := rfl
@[simp] theorem State.modLp_sets (i : Nat) (f : Lp → Lp) (s : State) : (s.modLp i f).sets = s.sets := rfl
@[simp] theorem State.modLp_lrd (i : Nat) (f : Lp → Lp) (s : State) : (s.modLp i f).lrd = s.lrd := rfl
@[simp] theorem State.modLp_cry (i : Nat) (f : Lp → Lp) (s : State) : (s.modLp i f).cry = s.cry := rfl
@[simp] theorem State.modLp_off (i : Nat) (f : Lp → Lp) (s : State) : (s.modLp i f).off = s.off := rfl
@[simp] theorem State.modLp_micro (i : Nat) (f : Lp → Lp) (s : State) : (s.modLp i f).micro = s.micro := rfl
@[simp] theorem State.modLp_boot (i : Nat) (f : Lp → Lp) (s : State) : (s.modLp i f).boot = s.boot := rfl
@[simp] theorem State.modLp_upd (i : Nat) (f : Lp → Lp) (s : State) : (s.modLp i f).upd = s.upd := rfl
@[simp] theorem State.modLp_power (i : Nat) (f : Lp → Lp) (s : State) : (s.modLp i f).power = s.power := rfl
@[simp] theorem State.modLp_mgmt (i : Nat) (f : Lp → Lp) (s : State) : (s.modLp i f).mgmt = s.mgmt := rfl
@[simp] theorem State.modLp_stats (i : Nat) (f : Lp → Lp) (s : State) : (s.modLp i f).stats = s.stats := rfl
@[simp] theorem State.modLp_out (i : Nat) (f : Lp → Lp) (s : State) : (s.modLp i f).out = s.out := rfl
@[simp] theorem State.modLp_free (i : Nat) (f : Lp → Lp) (s : State) : (s.modLp i f).free = s.free := rfl
@[simp] theorem State.modLp_pending (i : Nat) (f : Lp → Lp) (s : State) : (s.modLp i f).pending = s.pending := rfl

theorem State.modLane_only (i : Nat) (f : Lane → Lane) (s : State) : OnlyIn [.net] s (s.modLane i f) := by
  intro p hp; cases p <;> first | exact absurd (List.mem_singleton.mpr rfl) hp | rfl
@[simp] theorem State.modLane_clock (i : Nat) (f : Lane → Lane) (s : State) : (s.modLane i f).clock = s.clock := rfl
@[simp] theorem State.modLane_hif (i : Nat) (f : Lane → Lane) (s : State) : (s.modLane i f).hif = s.hif := rfl
@[simp] theorem State.modLane_links (i : Nat) (f : Lane → Lane) (s : State) : (s.modLane i f).links = s.links := rfl
@[simp] theorem State.modLane_fns (i : Nat) (f : Lane → Lane) (s : State) : (s.modLane i f).fns = s.fns := rfl
@[simp] theorem State.modLane_res (i : Nat) (f : Lane → Lane) (s : State) : (s.modLane i f).res = s.res := rfl
@[simp] theorem State.modLane_tickets (i : Nat) (f : Lane → Lane) (s : State) : (s.modLane i f).tickets = s.tickets := rfl
@[simp] theorem State.modLane_cpW (i : Nat) (f : Lane → Lane) (s : State) : (s.modLane i f).cpW = s.cpW := rfl
@[simp] theorem State.modLane_cpE (i : Nat) (f : Lane → Lane) (s : State) : (s.modLane i f).cpE = s.cpE := rfl
@[simp] theorem State.modLane_rings (i : Nat) (f : Lane → Lane) (s : State) : (s.modLane i f).rings = s.rings := rfl
@[simp] theorem State.modLane_work (i : Nat) (f : Lane → Lane) (s : State) : (s.modLane i f).work = s.work := rfl
@[simp] theorem State.modLane_rel (i : Nat) (f : Lane → Lane) (s : State) : (s.modLane i f).rel = s.rel := rfl
@[simp] theorem State.modLane_ledger (i : Nat) (f : Lane → Lane) (s : State) : (s.modLane i f).ledger = s.ledger := rfl
@[simp] theorem State.modLane_sets (i : Nat) (f : Lane → Lane) (s : State) : (s.modLane i f).sets = s.sets := rfl
@[simp] theorem State.modLane_lrd (i : Nat) (f : Lane → Lane) (s : State) : (s.modLane i f).lrd = s.lrd := rfl
@[simp] theorem State.modLane_cry (i : Nat) (f : Lane → Lane) (s : State) : (s.modLane i f).cry = s.cry := rfl
@[simp] theorem State.modLane_off (i : Nat) (f : Lane → Lane) (s : State) : (s.modLane i f).off = s.off := rfl
@[simp] theorem State.modLane_micro (i : Nat) (f : Lane → Lane) (s : State) : (s.modLane i f).micro = s.micro := rfl
@[simp] theorem State.modLane_boot (i : Nat) (f : Lane → Lane) (s : State) : (s.modLane i f).boot = s.boot := rfl
@[simp] theorem State.modLane_upd (i : Nat) (f : Lane → Lane) (s : State) : (s.modLane i f).upd = s.upd := rfl
@[simp] theorem State.modLane_power (i : Nat) (f : Lane → Lane) (s : State) : (s.modLane i f).power = s.power := rfl
@[simp] theorem State.modLane_mgmt (i : Nat) (f : Lane → Lane) (s : State) : (s.modLane i f).mgmt = s.mgmt := rfl
@[simp] theorem State.modLane_stats (i : Nat) (f : Lane → Lane) (s : State) : (s.modLane i f).stats = s.stats := rfl
@[simp] theorem State.modLane_out (i : Nat) (f : Lane → Lane) (s : State) : (s.modLane i f).out = s.out := rfl
@[simp] theorem State.modLane_free (i : Nat) (f : Lane → Lane) (s : State) : (s.modLane i f).free = s.free := rfl
@[simp] theorem State.modLane_pending (i : Nat) (f : Lane → Lane) (s : State) : (s.modLane i f).pending = s.pending := rfl

theorem State.modEgq_only (i : Nat) (f : EgQ → EgQ) (s : State) : OnlyIn [.net] s (s.modEgq i f) := by
  intro p hp; cases p <;> first | exact absurd (List.mem_singleton.mpr rfl) hp | rfl
@[simp] theorem State.modEgq_clock (i : Nat) (f : EgQ → EgQ) (s : State) : (s.modEgq i f).clock = s.clock := rfl
@[simp] theorem State.modEgq_hif (i : Nat) (f : EgQ → EgQ) (s : State) : (s.modEgq i f).hif = s.hif := rfl
@[simp] theorem State.modEgq_links (i : Nat) (f : EgQ → EgQ) (s : State) : (s.modEgq i f).links = s.links := rfl
@[simp] theorem State.modEgq_fns (i : Nat) (f : EgQ → EgQ) (s : State) : (s.modEgq i f).fns = s.fns := rfl
@[simp] theorem State.modEgq_res (i : Nat) (f : EgQ → EgQ) (s : State) : (s.modEgq i f).res = s.res := rfl
@[simp] theorem State.modEgq_tickets (i : Nat) (f : EgQ → EgQ) (s : State) : (s.modEgq i f).tickets = s.tickets := rfl
@[simp] theorem State.modEgq_cpW (i : Nat) (f : EgQ → EgQ) (s : State) : (s.modEgq i f).cpW = s.cpW := rfl
@[simp] theorem State.modEgq_cpE (i : Nat) (f : EgQ → EgQ) (s : State) : (s.modEgq i f).cpE = s.cpE := rfl
@[simp] theorem State.modEgq_rings (i : Nat) (f : EgQ → EgQ) (s : State) : (s.modEgq i f).rings = s.rings := rfl
@[simp] theorem State.modEgq_work (i : Nat) (f : EgQ → EgQ) (s : State) : (s.modEgq i f).work = s.work := rfl
@[simp] theorem State.modEgq_rel (i : Nat) (f : EgQ → EgQ) (s : State) : (s.modEgq i f).rel = s.rel := rfl
@[simp] theorem State.modEgq_ledger (i : Nat) (f : EgQ → EgQ) (s : State) : (s.modEgq i f).ledger = s.ledger := rfl
@[simp] theorem State.modEgq_sets (i : Nat) (f : EgQ → EgQ) (s : State) : (s.modEgq i f).sets = s.sets := rfl
@[simp] theorem State.modEgq_lrd (i : Nat) (f : EgQ → EgQ) (s : State) : (s.modEgq i f).lrd = s.lrd := rfl
@[simp] theorem State.modEgq_cry (i : Nat) (f : EgQ → EgQ) (s : State) : (s.modEgq i f).cry = s.cry := rfl
@[simp] theorem State.modEgq_off (i : Nat) (f : EgQ → EgQ) (s : State) : (s.modEgq i f).off = s.off := rfl
@[simp] theorem State.modEgq_micro (i : Nat) (f : EgQ → EgQ) (s : State) : (s.modEgq i f).micro = s.micro := rfl
@[simp] theorem State.modEgq_boot (i : Nat) (f : EgQ → EgQ) (s : State) : (s.modEgq i f).boot = s.boot := rfl
@[simp] theorem State.modEgq_upd (i : Nat) (f : EgQ → EgQ) (s : State) : (s.modEgq i f).upd = s.upd := rfl
@[simp] theorem State.modEgq_power (i : Nat) (f : EgQ → EgQ) (s : State) : (s.modEgq i f).power = s.power := rfl
@[simp] theorem State.modEgq_mgmt (i : Nat) (f : EgQ → EgQ) (s : State) : (s.modEgq i f).mgmt = s.mgmt := rfl
@[simp] theorem State.modEgq_stats (i : Nat) (f : EgQ → EgQ) (s : State) : (s.modEgq i f).stats = s.stats := rfl
@[simp] theorem State.modEgq_out (i : Nat) (f : EgQ → EgQ) (s : State) : (s.modEgq i f).out = s.out := rfl
@[simp] theorem State.modEgq_free (i : Nat) (f : EgQ → EgQ) (s : State) : (s.modEgq i f).free = s.free := rfl
@[simp] theorem State.modEgq_pending (i : Nat) (f : EgQ → EgQ) (s : State) : (s.modEgq i f).pending = s.pending := rfl

theorem State.modSpread_only (i : Nat) (f : Spread → Spread) (s : State) : OnlyIn [.net] s (s.modSpread i f) := by
  intro p hp; cases p <;> first | exact absurd (List.mem_singleton.mpr rfl) hp | rfl
@[simp] theorem State.modSpread_clock (i : Nat) (f : Spread → Spread) (s : State) : (s.modSpread i f).clock = s.clock := rfl
@[simp] theorem State.modSpread_hif (i : Nat) (f : Spread → Spread) (s : State) : (s.modSpread i f).hif = s.hif := rfl
@[simp] theorem State.modSpread_links (i : Nat) (f : Spread → Spread) (s : State) : (s.modSpread i f).links = s.links := rfl
@[simp] theorem State.modSpread_fns (i : Nat) (f : Spread → Spread) (s : State) : (s.modSpread i f).fns = s.fns := rfl
@[simp] theorem State.modSpread_res (i : Nat) (f : Spread → Spread) (s : State) : (s.modSpread i f).res = s.res := rfl
@[simp] theorem State.modSpread_tickets (i : Nat) (f : Spread → Spread) (s : State) : (s.modSpread i f).tickets = s.tickets := rfl
@[simp] theorem State.modSpread_cpW (i : Nat) (f : Spread → Spread) (s : State) : (s.modSpread i f).cpW = s.cpW := rfl
@[simp] theorem State.modSpread_cpE (i : Nat) (f : Spread → Spread) (s : State) : (s.modSpread i f).cpE = s.cpE := rfl
@[simp] theorem State.modSpread_rings (i : Nat) (f : Spread → Spread) (s : State) : (s.modSpread i f).rings = s.rings := rfl
@[simp] theorem State.modSpread_work (i : Nat) (f : Spread → Spread) (s : State) : (s.modSpread i f).work = s.work := rfl
@[simp] theorem State.modSpread_rel (i : Nat) (f : Spread → Spread) (s : State) : (s.modSpread i f).rel = s.rel := rfl
@[simp] theorem State.modSpread_ledger (i : Nat) (f : Spread → Spread) (s : State) : (s.modSpread i f).ledger = s.ledger := rfl
@[simp] theorem State.modSpread_sets (i : Nat) (f : Spread → Spread) (s : State) : (s.modSpread i f).sets = s.sets := rfl
@[simp] theorem State.modSpread_lrd (i : Nat) (f : Spread → Spread) (s : State) : (s.modSpread i f).lrd = s.lrd := rfl
@[simp] theorem State.modSpread_cry (i : Nat) (f : Spread → Spread) (s : State) : (s.modSpread i f).cry = s.cry := rfl
@[simp] theorem State.modSpread_off (i : Nat) (f : Spread → Spread) (s : State) : (s.modSpread i f).off = s.off := rfl
@[simp] theorem State.modSpread_micro (i : Nat) (f : Spread → Spread) (s : State) : (s.modSpread i f).micro = s.micro := rfl
@[simp] theorem State.modSpread_boot (i : Nat) (f : Spread → Spread) (s : State) : (s.modSpread i f).boot = s.boot := rfl
@[simp] theorem State.modSpread_upd (i : Nat) (f : Spread → Spread) (s : State) : (s.modSpread i f).upd = s.upd := rfl
@[simp] theorem State.modSpread_power (i : Nat) (f : Spread → Spread) (s : State) : (s.modSpread i f).power = s.power := rfl
@[simp] theorem State.modSpread_mgmt (i : Nat) (f : Spread → Spread) (s : State) : (s.modSpread i f).mgmt = s.mgmt := rfl
@[simp] theorem State.modSpread_stats (i : Nat) (f : Spread → Spread) (s : State) : (s.modSpread i f).stats = s.stats := rfl
@[simp] theorem State.modSpread_out (i : Nat) (f : Spread → Spread) (s : State) : (s.modSpread i f).out = s.out := rfl
@[simp] theorem State.modSpread_free (i : Nat) (f : Spread → Spread) (s : State) : (s.modSpread i f).free = s.free := rfl
@[simp] theorem State.modSpread_pending (i : Nat) (f : Spread → Spread) (s : State) : (s.modSpread i f).pending = s.pending := rfl

theorem State.bumpBy_only (g i n k : Nat) (s : State) : OnlyIn [.stats] s (s.bumpBy g i n k) := by
  intro p hp; cases p <;> first | exact absurd (List.mem_singleton.mpr rfl) hp | rfl
@[simp] theorem State.bumpBy_clock (g i n k : Nat) (s : State) : (s.bumpBy g i n k).clock = s.clock := rfl
@[simp] theorem State.bumpBy_hif (g i n k : Nat) (s : State) : (s.bumpBy g i n k).hif = s.hif := rfl
@[simp] theorem State.bumpBy_links (g i n k : Nat) (s : State) : (s.bumpBy g i n k).links = s.links := rfl
@[simp] theorem State.bumpBy_fns (g i n k : Nat) (s : State) : (s.bumpBy g i n k).fns = s.fns := rfl
@[simp] theorem State.bumpBy_res (g i n k : Nat) (s : State) : (s.bumpBy g i n k).res = s.res := rfl
@[simp] theorem State.bumpBy_tickets (g i n k : Nat) (s : State) : (s.bumpBy g i n k).tickets = s.tickets := rfl
@[simp] theorem State.bumpBy_cpW (g i n k : Nat) (s : State) : (s.bumpBy g i n k).cpW = s.cpW := rfl
@[simp] theorem State.bumpBy_cpE (g i n k : Nat) (s : State) : (s.bumpBy g i n k).cpE = s.cpE := rfl
@[simp] theorem State.bumpBy_rings (g i n k : Nat) (s : State) : (s.bumpBy g i n k).rings = s.rings := rfl
@[simp] theorem State.bumpBy_work (g i n k : Nat) (s : State) : (s.bumpBy g i n k).work = s.work := rfl
@[simp] theorem State.bumpBy_net (g i n k : Nat) (s : State) : (s.bumpBy g i n k).net = s.net := rfl
@[simp] theorem State.bumpBy_rel (g i n k : Nat) (s : State) : (s.bumpBy g i n k).rel = s.rel := rfl
@[simp] theorem State.bumpBy_ledger (g i n k : Nat) (s : State) : (s.bumpBy g i n k).ledger = s.ledger := rfl
@[simp] theorem State.bumpBy_sets (g i n k : Nat) (s : State) : (s.bumpBy g i n k).sets = s.sets := rfl
@[simp] theorem State.bumpBy_lrd (g i n k : Nat) (s : State) : (s.bumpBy g i n k).lrd = s.lrd := rfl
@[simp] theorem State.bumpBy_cry (g i n k : Nat) (s : State) : (s.bumpBy g i n k).cry = s.cry := rfl
@[simp] theorem State.bumpBy_off (g i n k : Nat) (s : State) : (s.bumpBy g i n k).off = s.off := rfl
@[simp] theorem State.bumpBy_micro (g i n k : Nat) (s : State) : (s.bumpBy g i n k).micro = s.micro := rfl
@[simp] theorem State.bumpBy_boot (g i n k : Nat) (s : State) : (s.bumpBy g i n k).boot = s.boot := rfl
@[simp] theorem State.bumpBy_upd (g i n k : Nat) (s : State) : (s.bumpBy g i n k).upd = s.upd := rfl
@[simp] theorem State.bumpBy_power (g i n k : Nat) (s : State) : (s.bumpBy g i n k).power = s.power := rfl
@[simp] theorem State.bumpBy_mgmt (g i n k : Nat) (s : State) : (s.bumpBy g i n k).mgmt = s.mgmt := rfl
@[simp] theorem State.bumpBy_out (g i n k : Nat) (s : State) : (s.bumpBy g i n k).out = s.out := rfl
@[simp] theorem State.bumpBy_free (g i n k : Nat) (s : State) : (s.bumpBy g i n k).free = s.free := rfl
@[simp] theorem State.bumpBy_pending (g i n k : Nat) (s : State) : (s.bumpBy g i n k).pending = s.pending := rfl

theorem State.bump_only (g i n : Nat) (s : State) : OnlyIn [.stats] s (s.bump g i n) := by
  intro p hp; cases p <;> first | exact absurd (List.mem_singleton.mpr rfl) hp | rfl
@[simp] theorem State.bump_clock (g i n : Nat) (s : State) : (s.bump g i n).clock = s.clock := rfl
@[simp] theorem State.bump_hif (g i n : Nat) (s : State) : (s.bump g i n).hif = s.hif := rfl
@[simp] theorem State.bump_links (g i n : Nat) (s : State) : (s.bump g i n).links = s.links := rfl
@[simp] theorem State.bump_fns (g i n : Nat) (s : State) : (s.bump g i n).fns = s.fns := rfl
@[simp] theorem State.bump_res (g i n : Nat) (s : State) : (s.bump g i n).res = s.res := rfl
@[simp] theorem State.bump_tickets (g i n : Nat) (s : State) : (s.bump g i n).tickets = s.tickets := rfl
@[simp] theorem State.bump_cpW (g i n : Nat) (s : State) : (s.bump g i n).cpW = s.cpW := rfl
@[simp] theorem State.bump_cpE (g i n : Nat) (s : State) : (s.bump g i n).cpE = s.cpE := rfl
@[simp] theorem State.bump_rings (g i n : Nat) (s : State) : (s.bump g i n).rings = s.rings := rfl
@[simp] theorem State.bump_work (g i n : Nat) (s : State) : (s.bump g i n).work = s.work := rfl
@[simp] theorem State.bump_net (g i n : Nat) (s : State) : (s.bump g i n).net = s.net := rfl
@[simp] theorem State.bump_rel (g i n : Nat) (s : State) : (s.bump g i n).rel = s.rel := rfl
@[simp] theorem State.bump_ledger (g i n : Nat) (s : State) : (s.bump g i n).ledger = s.ledger := rfl
@[simp] theorem State.bump_sets (g i n : Nat) (s : State) : (s.bump g i n).sets = s.sets := rfl
@[simp] theorem State.bump_lrd (g i n : Nat) (s : State) : (s.bump g i n).lrd = s.lrd := rfl
@[simp] theorem State.bump_cry (g i n : Nat) (s : State) : (s.bump g i n).cry = s.cry := rfl
@[simp] theorem State.bump_off (g i n : Nat) (s : State) : (s.bump g i n).off = s.off := rfl
@[simp] theorem State.bump_micro (g i n : Nat) (s : State) : (s.bump g i n).micro = s.micro := rfl
@[simp] theorem State.bump_boot (g i n : Nat) (s : State) : (s.bump g i n).boot = s.boot := rfl
@[simp] theorem State.bump_upd (g i n : Nat) (s : State) : (s.bump g i n).upd = s.upd := rfl
@[simp] theorem State.bump_power (g i n : Nat) (s : State) : (s.bump g i n).power = s.power := rfl
@[simp] theorem State.bump_mgmt (g i n : Nat) (s : State) : (s.bump g i n).mgmt = s.mgmt := rfl
@[simp] theorem State.bump_out (g i n : Nat) (s : State) : (s.bump g i n).out = s.out := rfl
@[simp] theorem State.bump_free (g i n : Nat) (s : State) : (s.bump g i n).free = s.free := rfl
@[simp] theorem State.bump_pending (g i n : Nat) (s : State) : (s.bump g i n).pending = s.pending := rfl

theorem State.advance_only (dt : Nat) (s : State) : OnlyIn [.clock] s (s.advance dt) := by
  intro p hp; cases p <;> first | exact absurd (List.mem_singleton.mpr rfl) hp | rfl
@[simp] theorem State.advance_hif (dt : Nat) (s : State) : (s.advance dt).hif = s.hif := rfl
@[simp] theorem State.advance_links (dt : Nat) (s : State) : (s.advance dt).links = s.links := rfl
@[simp] theorem State.advance_fns (dt : Nat) (s : State) : (s.advance dt).fns = s.fns := rfl
@[simp] theorem State.advance_res (dt : Nat) (s : State) : (s.advance dt).res = s.res := rfl
@[simp] theorem State.advance_tickets (dt : Nat) (s : State) : (s.advance dt).tickets = s.tickets := rfl
@[simp] theorem State.advance_cpW (dt : Nat) (s : State) : (s.advance dt).cpW = s.cpW := rfl
@[simp] theorem State.advance_cpE (dt : Nat) (s : State) : (s.advance dt).cpE = s.cpE := rfl
@[simp] theorem State.advance_rings (dt : Nat) (s : State) : (s.advance dt).rings = s.rings := rfl
@[simp] theorem State.advance_work (dt : Nat) (s : State) : (s.advance dt).work = s.work := rfl
@[simp] theorem State.advance_net (dt : Nat) (s : State) : (s.advance dt).net = s.net := rfl
@[simp] theorem State.advance_rel (dt : Nat) (s : State) : (s.advance dt).rel = s.rel := rfl
@[simp] theorem State.advance_ledger (dt : Nat) (s : State) : (s.advance dt).ledger = s.ledger := rfl
@[simp] theorem State.advance_sets (dt : Nat) (s : State) : (s.advance dt).sets = s.sets := rfl
@[simp] theorem State.advance_lrd (dt : Nat) (s : State) : (s.advance dt).lrd = s.lrd := rfl
@[simp] theorem State.advance_cry (dt : Nat) (s : State) : (s.advance dt).cry = s.cry := rfl
@[simp] theorem State.advance_off (dt : Nat) (s : State) : (s.advance dt).off = s.off := rfl
@[simp] theorem State.advance_micro (dt : Nat) (s : State) : (s.advance dt).micro = s.micro := rfl
@[simp] theorem State.advance_boot (dt : Nat) (s : State) : (s.advance dt).boot = s.boot := rfl
@[simp] theorem State.advance_upd (dt : Nat) (s : State) : (s.advance dt).upd = s.upd := rfl
@[simp] theorem State.advance_power (dt : Nat) (s : State) : (s.advance dt).power = s.power := rfl
@[simp] theorem State.advance_mgmt (dt : Nat) (s : State) : (s.advance dt).mgmt = s.mgmt := rfl
@[simp] theorem State.advance_stats (dt : Nat) (s : State) : (s.advance dt).stats = s.stats := rfl
@[simp] theorem State.advance_out (dt : Nat) (s : State) : (s.advance dt).out = s.out := rfl
@[simp] theorem State.advance_free (dt : Nat) (s : State) : (s.advance dt).free = s.free := rfl
@[simp] theorem State.advance_pending (dt : Nat) (s : State) : (s.advance dt).pending = s.pending := rfl

theorem State.emit_only (o : Out) (s : State) : OnlyIn [.out] s (s.emit o) := by
  intro p hp; cases p <;> first | exact absurd (List.mem_singleton.mpr rfl) hp | rfl
@[simp] theorem State.emit_clock (o : Out) (s : State) : (s.emit o).clock = s.clock := rfl
@[simp] theorem State.emit_hif (o : Out) (s : State) : (s.emit o).hif = s.hif := rfl
@[simp] theorem State.emit_links (o : Out) (s : State) : (s.emit o).links = s.links := rfl
@[simp] theorem State.emit_fns (o : Out) (s : State) : (s.emit o).fns = s.fns := rfl
@[simp] theorem State.emit_res (o : Out) (s : State) : (s.emit o).res = s.res := rfl
@[simp] theorem State.emit_tickets (o : Out) (s : State) : (s.emit o).tickets = s.tickets := rfl
@[simp] theorem State.emit_cpW (o : Out) (s : State) : (s.emit o).cpW = s.cpW := rfl
@[simp] theorem State.emit_cpE (o : Out) (s : State) : (s.emit o).cpE = s.cpE := rfl
@[simp] theorem State.emit_rings (o : Out) (s : State) : (s.emit o).rings = s.rings := rfl
@[simp] theorem State.emit_work (o : Out) (s : State) : (s.emit o).work = s.work := rfl
@[simp] theorem State.emit_net (o : Out) (s : State) : (s.emit o).net = s.net := rfl
@[simp] theorem State.emit_rel (o : Out) (s : State) : (s.emit o).rel = s.rel := rfl
@[simp] theorem State.emit_ledger (o : Out) (s : State) : (s.emit o).ledger = s.ledger := rfl
@[simp] theorem State.emit_sets (o : Out) (s : State) : (s.emit o).sets = s.sets := rfl
@[simp] theorem State.emit_lrd (o : Out) (s : State) : (s.emit o).lrd = s.lrd := rfl
@[simp] theorem State.emit_cry (o : Out) (s : State) : (s.emit o).cry = s.cry := rfl
@[simp] theorem State.emit_off (o : Out) (s : State) : (s.emit o).off = s.off := rfl
@[simp] theorem State.emit_micro (o : Out) (s : State) : (s.emit o).micro = s.micro := rfl
@[simp] theorem State.emit_boot (o : Out) (s : State) : (s.emit o).boot = s.boot := rfl
@[simp] theorem State.emit_upd (o : Out) (s : State) : (s.emit o).upd = s.upd := rfl
@[simp] theorem State.emit_power (o : Out) (s : State) : (s.emit o).power = s.power := rfl
@[simp] theorem State.emit_mgmt (o : Out) (s : State) : (s.emit o).mgmt = s.mgmt := rfl
@[simp] theorem State.emit_stats (o : Out) (s : State) : (s.emit o).stats = s.stats := rfl
@[simp] theorem State.emit_free (o : Out) (s : State) : (s.emit o).free = s.free := rfl
@[simp] theorem State.emit_pending (o : Out) (s : State) : (s.emit o).pending = s.pending := rfl

theorem State.modLrd_only (f : Lrd → Lrd) (s : State) : OnlyIn [.lrd] s (s.modLrd f) := by
  intro p hp; cases p <;> first | exact absurd (List.mem_singleton.mpr rfl) hp | rfl
@[simp] theorem State.modLrd_clock (f : Lrd → Lrd) (s : State) : (s.modLrd f).clock = s.clock := rfl
@[simp] theorem State.modLrd_hif (f : Lrd → Lrd) (s : State) : (s.modLrd f).hif = s.hif := rfl
@[simp] theorem State.modLrd_links (f : Lrd → Lrd) (s : State) : (s.modLrd f).links = s.links := rfl
@[simp] theorem State.modLrd_fns (f : Lrd → Lrd) (s : State) : (s.modLrd f).fns = s.fns := rfl
@[simp] theorem State.modLrd_res (f : Lrd → Lrd) (s : State) : (s.modLrd f).res = s.res := rfl
@[simp] theorem State.modLrd_tickets (f : Lrd → Lrd) (s : State) : (s.modLrd f).tickets = s.tickets := rfl
@[simp] theorem State.modLrd_cpW (f : Lrd → Lrd) (s : State) : (s.modLrd f).cpW = s.cpW := rfl
@[simp] theorem State.modLrd_cpE (f : Lrd → Lrd) (s : State) : (s.modLrd f).cpE = s.cpE := rfl
@[simp] theorem State.modLrd_rings (f : Lrd → Lrd) (s : State) : (s.modLrd f).rings = s.rings := rfl
@[simp] theorem State.modLrd_work (f : Lrd → Lrd) (s : State) : (s.modLrd f).work = s.work := rfl
@[simp] theorem State.modLrd_net (f : Lrd → Lrd) (s : State) : (s.modLrd f).net = s.net := rfl
@[simp] theorem State.modLrd_rel (f : Lrd → Lrd) (s : State) : (s.modLrd f).rel = s.rel := rfl
@[simp] theorem State.modLrd_ledger (f : Lrd → Lrd) (s : State) : (s.modLrd f).ledger = s.ledger := rfl
@[simp] theorem State.modLrd_sets (f : Lrd → Lrd) (s : State) : (s.modLrd f).sets = s.sets := rfl
@[simp] theorem State.modLrd_cry (f : Lrd → Lrd) (s : State) : (s.modLrd f).cry = s.cry := rfl
@[simp] theorem State.modLrd_off (f : Lrd → Lrd) (s : State) : (s.modLrd f).off = s.off := rfl
@[simp] theorem State.modLrd_micro (f : Lrd → Lrd) (s : State) : (s.modLrd f).micro = s.micro := rfl
@[simp] theorem State.modLrd_boot (f : Lrd → Lrd) (s : State) : (s.modLrd f).boot = s.boot := rfl
@[simp] theorem State.modLrd_upd (f : Lrd → Lrd) (s : State) : (s.modLrd f).upd = s.upd := rfl
@[simp] theorem State.modLrd_power (f : Lrd → Lrd) (s : State) : (s.modLrd f).power = s.power := rfl
@[simp] theorem State.modLrd_mgmt (f : Lrd → Lrd) (s : State) : (s.modLrd f).mgmt = s.mgmt := rfl
@[simp] theorem State.modLrd_stats (f : Lrd → Lrd) (s : State) : (s.modLrd f).stats = s.stats := rfl
@[simp] theorem State.modLrd_out (f : Lrd → Lrd) (s : State) : (s.modLrd f).out = s.out := rfl
@[simp] theorem State.modLrd_free (f : Lrd → Lrd) (s : State) : (s.modLrd f).free = s.free := rfl
@[simp] theorem State.modLrd_pending (f : Lrd → Lrd) (s : State) : (s.modLrd f).pending = s.pending := rfl

theorem State.modCry_only (f : Cry → Cry) (s : State) : OnlyIn [.cry] s (s.modCry f) := by
  intro p hp; cases p <;> first | exact absurd (List.mem_singleton.mpr rfl) hp | rfl
@[simp] theorem State.modCry_clock (f : Cry → Cry) (s : State) : (s.modCry f).clock = s.clock := rfl
@[simp] theorem State.modCry_hif (f : Cry → Cry) (s : State) : (s.modCry f).hif = s.hif := rfl
@[simp] theorem State.modCry_links (f : Cry → Cry) (s : State) : (s.modCry f).links = s.links := rfl
@[simp] theorem State.modCry_fns (f : Cry → Cry) (s : State) : (s.modCry f).fns = s.fns := rfl
@[simp] theorem State.modCry_res (f : Cry → Cry) (s : State) : (s.modCry f).res = s.res := rfl
@[simp] theorem State.modCry_tickets (f : Cry → Cry) (s : State) : (s.modCry f).tickets = s.tickets := rfl
@[simp] theorem State.modCry_cpW (f : Cry → Cry) (s : State) : (s.modCry f).cpW = s.cpW := rfl
@[simp] theorem State.modCry_cpE (f : Cry → Cry) (s : State) : (s.modCry f).cpE = s.cpE := rfl
@[simp] theorem State.modCry_rings (f : Cry → Cry) (s : State) : (s.modCry f).rings = s.rings := rfl
@[simp] theorem State.modCry_work (f : Cry → Cry) (s : State) : (s.modCry f).work = s.work := rfl
@[simp] theorem State.modCry_net (f : Cry → Cry) (s : State) : (s.modCry f).net = s.net := rfl
@[simp] theorem State.modCry_rel (f : Cry → Cry) (s : State) : (s.modCry f).rel = s.rel := rfl
@[simp] theorem State.modCry_ledger (f : Cry → Cry) (s : State) : (s.modCry f).ledger = s.ledger := rfl
@[simp] theorem State.modCry_sets (f : Cry → Cry) (s : State) : (s.modCry f).sets = s.sets := rfl
@[simp] theorem State.modCry_lrd (f : Cry → Cry) (s : State) : (s.modCry f).lrd = s.lrd := rfl
@[simp] theorem State.modCry_off (f : Cry → Cry) (s : State) : (s.modCry f).off = s.off := rfl
@[simp] theorem State.modCry_micro (f : Cry → Cry) (s : State) : (s.modCry f).micro = s.micro := rfl
@[simp] theorem State.modCry_boot (f : Cry → Cry) (s : State) : (s.modCry f).boot = s.boot := rfl
@[simp] theorem State.modCry_upd (f : Cry → Cry) (s : State) : (s.modCry f).upd = s.upd := rfl
@[simp] theorem State.modCry_power (f : Cry → Cry) (s : State) : (s.modCry f).power = s.power := rfl
@[simp] theorem State.modCry_mgmt (f : Cry → Cry) (s : State) : (s.modCry f).mgmt = s.mgmt := rfl
@[simp] theorem State.modCry_stats (f : Cry → Cry) (s : State) : (s.modCry f).stats = s.stats := rfl
@[simp] theorem State.modCry_out (f : Cry → Cry) (s : State) : (s.modCry f).out = s.out := rfl
@[simp] theorem State.modCry_free (f : Cry → Cry) (s : State) : (s.modCry f).free = s.free := rfl
@[simp] theorem State.modCry_pending (f : Cry → Cry) (s : State) : (s.modCry f).pending = s.pending := rfl

theorem State.modPower_only (f : Power → Power) (s : State) : OnlyIn [.power] s (s.modPower f) := by
  intro p hp; cases p <;> first | exact absurd (List.mem_singleton.mpr rfl) hp | rfl
@[simp] theorem State.modPower_clock (f : Power → Power) (s : State) : (s.modPower f).clock = s.clock := rfl
@[simp] theorem State.modPower_hif (f : Power → Power) (s : State) : (s.modPower f).hif = s.hif := rfl
@[simp] theorem State.modPower_links (f : Power → Power) (s : State) : (s.modPower f).links = s.links := rfl
@[simp] theorem State.modPower_fns (f : Power → Power) (s : State) : (s.modPower f).fns = s.fns := rfl
@[simp] theorem State.modPower_res (f : Power → Power) (s : State) : (s.modPower f).res = s.res := rfl
@[simp] theorem State.modPower_tickets (f : Power → Power) (s : State) : (s.modPower f).tickets = s.tickets := rfl
@[simp] theorem State.modPower_cpW (f : Power → Power) (s : State) : (s.modPower f).cpW = s.cpW := rfl
@[simp] theorem State.modPower_cpE (f : Power → Power) (s : State) : (s.modPower f).cpE = s.cpE := rfl
@[simp] theorem State.modPower_rings (f : Power → Power) (s : State) : (s.modPower f).rings = s.rings := rfl
@[simp] theorem State.modPower_work (f : Power → Power) (s : State) : (s.modPower f).work = s.work := rfl
@[simp] theorem State.modPower_net (f : Power → Power) (s : State) : (s.modPower f).net = s.net := rfl
@[simp] theorem State.modPower_rel (f : Power → Power) (s : State) : (s.modPower f).rel = s.rel := rfl
@[simp] theorem State.modPower_ledger (f : Power → Power) (s : State) : (s.modPower f).ledger = s.ledger := rfl
@[simp] theorem State.modPower_sets (f : Power → Power) (s : State) : (s.modPower f).sets = s.sets := rfl
@[simp] theorem State.modPower_lrd (f : Power → Power) (s : State) : (s.modPower f).lrd = s.lrd := rfl
@[simp] theorem State.modPower_cry (f : Power → Power) (s : State) : (s.modPower f).cry = s.cry := rfl
@[simp] theorem State.modPower_off (f : Power → Power) (s : State) : (s.modPower f).off = s.off := rfl
@[simp] theorem State.modPower_micro (f : Power → Power) (s : State) : (s.modPower f).micro = s.micro := rfl
@[simp] theorem State.modPower_boot (f : Power → Power) (s : State) : (s.modPower f).boot = s.boot := rfl
@[simp] theorem State.modPower_upd (f : Power → Power) (s : State) : (s.modPower f).upd = s.upd := rfl
@[simp] theorem State.modPower_mgmt (f : Power → Power) (s : State) : (s.modPower f).mgmt = s.mgmt := rfl
@[simp] theorem State.modPower_stats (f : Power → Power) (s : State) : (s.modPower f).stats = s.stats := rfl
@[simp] theorem State.modPower_out (f : Power → Power) (s : State) : (s.modPower f).out = s.out := rfl
@[simp] theorem State.modPower_free (f : Power → Power) (s : State) : (s.modPower f).free = s.free := rfl
@[simp] theorem State.modPower_pending (f : Power → Power) (s : State) : (s.modPower f).pending = s.pending := rfl

theorem State.modMgmt_only (f : Mgmt → Mgmt) (s : State) : OnlyIn [.mgmt] s (s.modMgmt f) := by
  intro p hp; cases p <;> first | exact absurd (List.mem_singleton.mpr rfl) hp | rfl
@[simp] theorem State.modMgmt_clock (f : Mgmt → Mgmt) (s : State) : (s.modMgmt f).clock = s.clock := rfl
@[simp] theorem State.modMgmt_hif (f : Mgmt → Mgmt) (s : State) : (s.modMgmt f).hif = s.hif := rfl
@[simp] theorem State.modMgmt_links (f : Mgmt → Mgmt) (s : State) : (s.modMgmt f).links = s.links := rfl
@[simp] theorem State.modMgmt_fns (f : Mgmt → Mgmt) (s : State) : (s.modMgmt f).fns = s.fns := rfl
@[simp] theorem State.modMgmt_res (f : Mgmt → Mgmt) (s : State) : (s.modMgmt f).res = s.res := rfl
@[simp] theorem State.modMgmt_tickets (f : Mgmt → Mgmt) (s : State) : (s.modMgmt f).tickets = s.tickets := rfl
@[simp] theorem State.modMgmt_cpW (f : Mgmt → Mgmt) (s : State) : (s.modMgmt f).cpW = s.cpW := rfl
@[simp] theorem State.modMgmt_cpE (f : Mgmt → Mgmt) (s : State) : (s.modMgmt f).cpE = s.cpE := rfl
@[simp] theorem State.modMgmt_rings (f : Mgmt → Mgmt) (s : State) : (s.modMgmt f).rings = s.rings := rfl
@[simp] theorem State.modMgmt_work (f : Mgmt → Mgmt) (s : State) : (s.modMgmt f).work = s.work := rfl
@[simp] theorem State.modMgmt_net (f : Mgmt → Mgmt) (s : State) : (s.modMgmt f).net = s.net := rfl
@[simp] theorem State.modMgmt_rel (f : Mgmt → Mgmt) (s : State) : (s.modMgmt f).rel = s.rel := rfl
@[simp] theorem State.modMgmt_ledger (f : Mgmt → Mgmt) (s : State) : (s.modMgmt f).ledger = s.ledger := rfl
@[simp] theorem State.modMgmt_sets (f : Mgmt → Mgmt) (s : State) : (s.modMgmt f).sets = s.sets := rfl
@[simp] theorem State.modMgmt_lrd (f : Mgmt → Mgmt) (s : State) : (s.modMgmt f).lrd = s.lrd := rfl
@[simp] theorem State.modMgmt_cry (f : Mgmt → Mgmt) (s : State) : (s.modMgmt f).cry = s.cry := rfl
@[simp] theorem State.modMgmt_off (f : Mgmt → Mgmt) (s : State) : (s.modMgmt f).off = s.off := rfl
@[simp] theorem State.modMgmt_micro (f : Mgmt → Mgmt) (s : State) : (s.modMgmt f).micro = s.micro := rfl
@[simp] theorem State.modMgmt_boot (f : Mgmt → Mgmt) (s : State) : (s.modMgmt f).boot = s.boot := rfl
@[simp] theorem State.modMgmt_upd (f : Mgmt → Mgmt) (s : State) : (s.modMgmt f).upd = s.upd := rfl
@[simp] theorem State.modMgmt_power (f : Mgmt → Mgmt) (s : State) : (s.modMgmt f).power = s.power := rfl
@[simp] theorem State.modMgmt_stats (f : Mgmt → Mgmt) (s : State) : (s.modMgmt f).stats = s.stats := rfl
@[simp] theorem State.modMgmt_out (f : Mgmt → Mgmt) (s : State) : (s.modMgmt f).out = s.out := rfl
@[simp] theorem State.modMgmt_free (f : Mgmt → Mgmt) (s : State) : (s.modMgmt f).free = s.free := rfl
@[simp] theorem State.modMgmt_pending (f : Mgmt → Mgmt) (s : State) : (s.modMgmt f).pending = s.pending := rfl

theorem State.modEngine_only (i : Nat) (f : Engine → Engine) (s : State) : OnlyIn [.micro] s (s.modEngine i f) := by
  intro p hp; cases p <;> first | exact absurd (List.mem_singleton.mpr rfl) hp | rfl
@[simp] theorem State.modEngine_clock (i : Nat) (f : Engine → Engine) (s : State) : (s.modEngine i f).clock = s.clock := rfl
@[simp] theorem State.modEngine_hif (i : Nat) (f : Engine → Engine) (s : State) : (s.modEngine i f).hif = s.hif := rfl
@[simp] theorem State.modEngine_links (i : Nat) (f : Engine → Engine) (s : State) : (s.modEngine i f).links = s.links := rfl
@[simp] theorem State.modEngine_fns (i : Nat) (f : Engine → Engine) (s : State) : (s.modEngine i f).fns = s.fns := rfl
@[simp] theorem State.modEngine_res (i : Nat) (f : Engine → Engine) (s : State) : (s.modEngine i f).res = s.res := rfl
@[simp] theorem State.modEngine_tickets (i : Nat) (f : Engine → Engine) (s : State) : (s.modEngine i f).tickets = s.tickets := rfl
@[simp] theorem State.modEngine_cpW (i : Nat) (f : Engine → Engine) (s : State) : (s.modEngine i f).cpW = s.cpW := rfl
@[simp] theorem State.modEngine_cpE (i : Nat) (f : Engine → Engine) (s : State) : (s.modEngine i f).cpE = s.cpE := rfl
@[simp] theorem State.modEngine_rings (i : Nat) (f : Engine → Engine) (s : State) : (s.modEngine i f).rings = s.rings := rfl
@[simp] theorem State.modEngine_work (i : Nat) (f : Engine → Engine) (s : State) : (s.modEngine i f).work = s.work := rfl
@[simp] theorem State.modEngine_net (i : Nat) (f : Engine → Engine) (s : State) : (s.modEngine i f).net = s.net := rfl
@[simp] theorem State.modEngine_rel (i : Nat) (f : Engine → Engine) (s : State) : (s.modEngine i f).rel = s.rel := rfl
@[simp] theorem State.modEngine_ledger (i : Nat) (f : Engine → Engine) (s : State) : (s.modEngine i f).ledger = s.ledger := rfl
@[simp] theorem State.modEngine_sets (i : Nat) (f : Engine → Engine) (s : State) : (s.modEngine i f).sets = s.sets := rfl
@[simp] theorem State.modEngine_lrd (i : Nat) (f : Engine → Engine) (s : State) : (s.modEngine i f).lrd = s.lrd := rfl
@[simp] theorem State.modEngine_cry (i : Nat) (f : Engine → Engine) (s : State) : (s.modEngine i f).cry = s.cry := rfl
@[simp] theorem State.modEngine_off (i : Nat) (f : Engine → Engine) (s : State) : (s.modEngine i f).off = s.off := rfl
@[simp] theorem State.modEngine_boot (i : Nat) (f : Engine → Engine) (s : State) : (s.modEngine i f).boot = s.boot := rfl
@[simp] theorem State.modEngine_upd (i : Nat) (f : Engine → Engine) (s : State) : (s.modEngine i f).upd = s.upd := rfl
@[simp] theorem State.modEngine_power (i : Nat) (f : Engine → Engine) (s : State) : (s.modEngine i f).power = s.power := rfl
@[simp] theorem State.modEngine_mgmt (i : Nat) (f : Engine → Engine) (s : State) : (s.modEngine i f).mgmt = s.mgmt := rfl
@[simp] theorem State.modEngine_stats (i : Nat) (f : Engine → Engine) (s : State) : (s.modEngine i f).stats = s.stats := rfl
@[simp] theorem State.modEngine_out (i : Nat) (f : Engine → Engine) (s : State) : (s.modEngine i f).out = s.out := rfl
@[simp] theorem State.modEngine_free (i : Nat) (f : Engine → Engine) (s : State) : (s.modEngine i f).free = s.free := rfl
@[simp] theorem State.modEngine_pending (i : Nat) (f : Engine → Engine) (s : State) : (s.modEngine i f).pending = s.pending := rfl

theorem State.modCore_only (i : Nat) (f : Core → Core) (s : State) : OnlyIn [.off] s (s.modCore i f) := by
  intro p hp; cases p <;> first | exact absurd (List.mem_singleton.mpr rfl) hp | rfl
@[simp] theorem State.modCore_clock (i : Nat) (f : Core → Core) (s : State) : (s.modCore i f).clock = s.clock := rfl
@[simp] theorem State.modCore_hif (i : Nat) (f : Core → Core) (s : State) : (s.modCore i f).hif = s.hif := rfl
@[simp] theorem State.modCore_links (i : Nat) (f : Core → Core) (s : State) : (s.modCore i f).links = s.links := rfl
@[simp] theorem State.modCore_fns (i : Nat) (f : Core → Core) (s : State) : (s.modCore i f).fns = s.fns := rfl
@[simp] theorem State.modCore_res (i : Nat) (f : Core → Core) (s : State) : (s.modCore i f).res = s.res := rfl
@[simp] theorem State.modCore_tickets (i : Nat) (f : Core → Core) (s : State) : (s.modCore i f).tickets = s.tickets := rfl
@[simp] theorem State.modCore_cpW (i : Nat) (f : Core → Core) (s : State) : (s.modCore i f).cpW = s.cpW := rfl
@[simp] theorem State.modCore_cpE (i : Nat) (f : Core → Core) (s : State) : (s.modCore i f).cpE = s.cpE := rfl
@[simp] theorem State.modCore_rings (i : Nat) (f : Core → Core) (s : State) : (s.modCore i f).rings = s.rings := rfl
@[simp] theorem State.modCore_work (i : Nat) (f : Core → Core) (s : State) : (s.modCore i f).work = s.work := rfl
@[simp] theorem State.modCore_net (i : Nat) (f : Core → Core) (s : State) : (s.modCore i f).net = s.net := rfl
@[simp] theorem State.modCore_rel (i : Nat) (f : Core → Core) (s : State) : (s.modCore i f).rel = s.rel := rfl
@[simp] theorem State.modCore_ledger (i : Nat) (f : Core → Core) (s : State) : (s.modCore i f).ledger = s.ledger := rfl
@[simp] theorem State.modCore_sets (i : Nat) (f : Core → Core) (s : State) : (s.modCore i f).sets = s.sets := rfl
@[simp] theorem State.modCore_lrd (i : Nat) (f : Core → Core) (s : State) : (s.modCore i f).lrd = s.lrd := rfl
@[simp] theorem State.modCore_cry (i : Nat) (f : Core → Core) (s : State) : (s.modCore i f).cry = s.cry := rfl
@[simp] theorem State.modCore_micro (i : Nat) (f : Core → Core) (s : State) : (s.modCore i f).micro = s.micro := rfl
@[simp] theorem State.modCore_boot (i : Nat) (f : Core → Core) (s : State) : (s.modCore i f).boot = s.boot := rfl
@[simp] theorem State.modCore_upd (i : Nat) (f : Core → Core) (s : State) : (s.modCore i f).upd = s.upd := rfl
@[simp] theorem State.modCore_power (i : Nat) (f : Core → Core) (s : State) : (s.modCore i f).power = s.power := rfl
@[simp] theorem State.modCore_mgmt (i : Nat) (f : Core → Core) (s : State) : (s.modCore i f).mgmt = s.mgmt := rfl
@[simp] theorem State.modCore_stats (i : Nat) (f : Core → Core) (s : State) : (s.modCore i f).stats = s.stats := rfl
@[simp] theorem State.modCore_out (i : Nat) (f : Core → Core) (s : State) : (s.modCore i f).out = s.out := rfl
@[simp] theorem State.modCore_free (i : Nat) (f : Core → Core) (s : State) : (s.modCore i f).free = s.free := rfl
@[simp] theorem State.modCore_pending (i : Nat) (f : Core → Core) (s : State) : (s.modCore i f).pending = s.pending := rfl

theorem State.modThread_only (i : Nat) (f : Thread → Thread) (s : State) : OnlyIn [.off] s (s.modThread i f) := by
  intro p hp; cases p <;> first | exact absurd (List.mem_singleton.mpr rfl) hp | rfl
@[simp] theorem State.modThread_clock (i : Nat) (f : Thread → Thread) (s : State) : (s.modThread i f).clock = s.clock := rfl
@[simp] theorem State.modThread_hif (i : Nat) (f : Thread → Thread) (s : State) : (s.modThread i f).hif = s.hif := rfl
@[simp] theorem State.modThread_links (i : Nat) (f : Thread → Thread) (s : State) : (s.modThread i f).links = s.links := rfl
@[simp] theorem State.modThread_fns (i : Nat) (f : Thread → Thread) (s : State) : (s.modThread i f).fns = s.fns := rfl
@[simp] theorem State.modThread_res (i : Nat) (f : Thread → Thread) (s : State) : (s.modThread i f).res = s.res := rfl
@[simp] theorem State.modThread_tickets (i : Nat) (f : Thread → Thread) (s : State) : (s.modThread i f).tickets = s.tickets := rfl
@[simp] theorem State.modThread_cpW (i : Nat) (f : Thread → Thread) (s : State) : (s.modThread i f).cpW = s.cpW := rfl
@[simp] theorem State.modThread_cpE (i : Nat) (f : Thread → Thread) (s : State) : (s.modThread i f).cpE = s.cpE := rfl
@[simp] theorem State.modThread_rings (i : Nat) (f : Thread → Thread) (s : State) : (s.modThread i f).rings = s.rings := rfl
@[simp] theorem State.modThread_work (i : Nat) (f : Thread → Thread) (s : State) : (s.modThread i f).work = s.work := rfl
@[simp] theorem State.modThread_net (i : Nat) (f : Thread → Thread) (s : State) : (s.modThread i f).net = s.net := rfl
@[simp] theorem State.modThread_rel (i : Nat) (f : Thread → Thread) (s : State) : (s.modThread i f).rel = s.rel := rfl
@[simp] theorem State.modThread_ledger (i : Nat) (f : Thread → Thread) (s : State) : (s.modThread i f).ledger = s.ledger := rfl
@[simp] theorem State.modThread_sets (i : Nat) (f : Thread → Thread) (s : State) : (s.modThread i f).sets = s.sets := rfl
@[simp] theorem State.modThread_lrd (i : Nat) (f : Thread → Thread) (s : State) : (s.modThread i f).lrd = s.lrd := rfl
@[simp] theorem State.modThread_cry (i : Nat) (f : Thread → Thread) (s : State) : (s.modThread i f).cry = s.cry := rfl
@[simp] theorem State.modThread_micro (i : Nat) (f : Thread → Thread) (s : State) : (s.modThread i f).micro = s.micro := rfl
@[simp] theorem State.modThread_boot (i : Nat) (f : Thread → Thread) (s : State) : (s.modThread i f).boot = s.boot := rfl
@[simp] theorem State.modThread_upd (i : Nat) (f : Thread → Thread) (s : State) : (s.modThread i f).upd = s.upd := rfl
@[simp] theorem State.modThread_power (i : Nat) (f : Thread → Thread) (s : State) : (s.modThread i f).power = s.power := rfl
@[simp] theorem State.modThread_mgmt (i : Nat) (f : Thread → Thread) (s : State) : (s.modThread i f).mgmt = s.mgmt := rfl
@[simp] theorem State.modThread_stats (i : Nat) (f : Thread → Thread) (s : State) : (s.modThread i f).stats = s.stats := rfl
@[simp] theorem State.modThread_out (i : Nat) (f : Thread → Thread) (s : State) : (s.modThread i f).out = s.out := rfl
@[simp] theorem State.modThread_free (i : Nat) (f : Thread → Thread) (s : State) : (s.modThread i f).free = s.free := rfl
@[simp] theorem State.modThread_pending (i : Nat) (f : Thread → Thread) (s : State) : (s.modThread i f).pending = s.pending := rfl

theorem State.setChan_only (i : Nat) (x : Chan) (s : State) : OnlyIn [.off] s (s.setChan i x) := by
  intro p hp; cases p <;> first | exact absurd (List.mem_singleton.mpr rfl) hp | rfl
@[simp] theorem State.setChan_clock (i : Nat) (x : Chan) (s : State) : (s.setChan i x).clock = s.clock := rfl
@[simp] theorem State.setChan_hif (i : Nat) (x : Chan) (s : State) : (s.setChan i x).hif = s.hif := rfl
@[simp] theorem State.setChan_links (i : Nat) (x : Chan) (s : State) : (s.setChan i x).links = s.links := rfl
@[simp] theorem State.setChan_fns (i : Nat) (x : Chan) (s : State) : (s.setChan i x).fns = s.fns := rfl
@[simp] theorem State.setChan_res (i : Nat) (x : Chan) (s : State) : (s.setChan i x).res = s.res := rfl
@[simp] theorem State.setChan_tickets (i : Nat) (x : Chan) (s : State) : (s.setChan i x).tickets = s.tickets := rfl
@[simp] theorem State.setChan_cpW (i : Nat) (x : Chan) (s : State) : (s.setChan i x).cpW = s.cpW := rfl
@[simp] theorem State.setChan_cpE (i : Nat) (x : Chan) (s : State) : (s.setChan i x).cpE = s.cpE := rfl
@[simp] theorem State.setChan_rings (i : Nat) (x : Chan) (s : State) : (s.setChan i x).rings = s.rings := rfl
@[simp] theorem State.setChan_work (i : Nat) (x : Chan) (s : State) : (s.setChan i x).work = s.work := rfl
@[simp] theorem State.setChan_net (i : Nat) (x : Chan) (s : State) : (s.setChan i x).net = s.net := rfl
@[simp] theorem State.setChan_rel (i : Nat) (x : Chan) (s : State) : (s.setChan i x).rel = s.rel := rfl
@[simp] theorem State.setChan_ledger (i : Nat) (x : Chan) (s : State) : (s.setChan i x).ledger = s.ledger := rfl
@[simp] theorem State.setChan_sets (i : Nat) (x : Chan) (s : State) : (s.setChan i x).sets = s.sets := rfl
@[simp] theorem State.setChan_lrd (i : Nat) (x : Chan) (s : State) : (s.setChan i x).lrd = s.lrd := rfl
@[simp] theorem State.setChan_cry (i : Nat) (x : Chan) (s : State) : (s.setChan i x).cry = s.cry := rfl
@[simp] theorem State.setChan_micro (i : Nat) (x : Chan) (s : State) : (s.setChan i x).micro = s.micro := rfl
@[simp] theorem State.setChan_boot (i : Nat) (x : Chan) (s : State) : (s.setChan i x).boot = s.boot := rfl
@[simp] theorem State.setChan_upd (i : Nat) (x : Chan) (s : State) : (s.setChan i x).upd = s.upd := rfl
@[simp] theorem State.setChan_power (i : Nat) (x : Chan) (s : State) : (s.setChan i x).power = s.power := rfl
@[simp] theorem State.setChan_mgmt (i : Nat) (x : Chan) (s : State) : (s.setChan i x).mgmt = s.mgmt := rfl
@[simp] theorem State.setChan_stats (i : Nat) (x : Chan) (s : State) : (s.setChan i x).stats = s.stats := rfl
@[simp] theorem State.setChan_out (i : Nat) (x : Chan) (s : State) : (s.setChan i x).out = s.out := rfl
@[simp] theorem State.setChan_free (i : Nat) (x : Chan) (s : State) : (s.setChan i x).free = s.free := rfl
@[simp] theorem State.setChan_pending (i : Nat) (x : Chan) (s : State) : (s.setChan i x).pending = s.pending := rfl

theorem State.setBucket_only (i : Nat) (b : Bucket) (s : State) : OnlyIn [.rel] s (s.setBucket i b) := by
  intro p hp; cases p <;> first | exact absurd (List.mem_singleton.mpr rfl) hp | rfl
@[simp] theorem State.setBucket_clock (i : Nat) (b : Bucket) (s : State) : (s.setBucket i b).clock = s.clock := rfl
@[simp] theorem State.setBucket_hif (i : Nat) (b : Bucket) (s : State) : (s.setBucket i b).hif = s.hif := rfl
@[simp] theorem State.setBucket_links (i : Nat) (b : Bucket) (s : State) : (s.setBucket i b).links = s.links := rfl
@[simp] theorem State.setBucket_fns (i : Nat) (b : Bucket) (s : State) : (s.setBucket i b).fns = s.fns := rfl
@[simp] theorem State.setBucket_res (i : Nat) (b : Bucket) (s : State) : (s.setBucket i b).res = s.res := rfl
@[simp] theorem State.setBucket_tickets (i : Nat) (b : Bucket) (s : State) : (s.setBucket i b).tickets = s.tickets := rfl
@[simp] theorem State.setBucket_cpW (i : Nat) (b : Bucket) (s : State) : (s.setBucket i b).cpW = s.cpW := rfl
@[simp] theorem State.setBucket_cpE (i : Nat) (b : Bucket) (s : State) : (s.setBucket i b).cpE = s.cpE := rfl
@[simp] theorem State.setBucket_rings (i : Nat) (b : Bucket) (s : State) : (s.setBucket i b).rings = s.rings := rfl
@[simp] theorem State.setBucket_work (i : Nat) (b : Bucket) (s : State) : (s.setBucket i b).work = s.work := rfl
@[simp] theorem State.setBucket_net (i : Nat) (b : Bucket) (s : State) : (s.setBucket i b).net = s.net := rfl
@[simp] theorem State.setBucket_ledger (i : Nat) (b : Bucket) (s : State) : (s.setBucket i b).ledger = s.ledger := rfl
@[simp] theorem State.setBucket_sets (i : Nat) (b : Bucket) (s : State) : (s.setBucket i b).sets = s.sets := rfl
@[simp] theorem State.setBucket_lrd (i : Nat) (b : Bucket) (s : State) : (s.setBucket i b).lrd = s.lrd := rfl
@[simp] theorem State.setBucket_cry (i : Nat) (b : Bucket) (s : State) : (s.setBucket i b).cry = s.cry := rfl
@[simp] theorem State.setBucket_off (i : Nat) (b : Bucket) (s : State) : (s.setBucket i b).off = s.off := rfl
@[simp] theorem State.setBucket_micro (i : Nat) (b : Bucket) (s : State) : (s.setBucket i b).micro = s.micro := rfl
@[simp] theorem State.setBucket_boot (i : Nat) (b : Bucket) (s : State) : (s.setBucket i b).boot = s.boot := rfl
@[simp] theorem State.setBucket_upd (i : Nat) (b : Bucket) (s : State) : (s.setBucket i b).upd = s.upd := rfl
@[simp] theorem State.setBucket_power (i : Nat) (b : Bucket) (s : State) : (s.setBucket i b).power = s.power := rfl
@[simp] theorem State.setBucket_mgmt (i : Nat) (b : Bucket) (s : State) : (s.setBucket i b).mgmt = s.mgmt := rfl
@[simp] theorem State.setBucket_stats (i : Nat) (b : Bucket) (s : State) : (s.setBucket i b).stats = s.stats := rfl
@[simp] theorem State.setBucket_out (i : Nat) (b : Bucket) (s : State) : (s.setBucket i b).out = s.out := rfl
@[simp] theorem State.setBucket_free (i : Nat) (b : Bucket) (s : State) : (s.setBucket i b).free = s.free := rfl
@[simp] theorem State.setBucket_pending (i : Nat) (b : Bucket) (s : State) : (s.setBucket i b).pending = s.pending := rfl

theorem State.flashWrite_only (a : Nat) (b : Bytes) (s : State) : OnlyIn [.boot] s (s.flashWrite a b) := by
  unfold State.flashWrite State.flashOp State.flashTick; split
  · exact OnlyIn.refl _ _
  · split
    · intro p hp; cases p <;> first | exact absurd (List.mem_singleton.mpr rfl) hp | rfl
    · exact OnlyIn.refl _ _
@[simp] theorem State.flashWrite_clock (a : Nat) (b : Bytes) (s : State) : (s.flashWrite a b).clock = s.clock := State.flashWrite_only a b s .clock (by decide)
@[simp] theorem State.flashWrite_hif (a : Nat) (b : Bytes) (s : State) : (s.flashWrite a b).hif = s.hif := State.flashWrite_only a b s .hif (by decide)
@[simp] theorem State.flashWrite_links (a : Nat) (b : Bytes) (s : State) : (s.flashWrite a b).links = s.links := State.flashWrite_only a b s .links (by decide)
@[simp] theorem State.flashWrite_fns (a : Nat) (b : Bytes) (s : State) : (s.flashWrite a b).fns = s.fns := State.flashWrite_only a b s .fns (by decide)
@[simp] theorem State.flashWrite_res (a : Nat) (b : Bytes) (s : State) : (s.flashWrite a b).res = s.res := State.flashWrite_only a b s .res (by decide)
@[simp] theorem State.flashWrite_tickets (a : Nat) (b : Bytes) (s : State) : (s.flashWrite a b).tickets = s.tickets := State.flashWrite_only a b s .tickets (by decide)
@[simp] theorem State.flashWrite_cpW (a : Nat) (b : Bytes) (s : State) : (s.flashWrite a b).cpW = s.cpW := State.flashWrite_only a b s .cpW (by decide)
@[simp] theorem State.flashWrite_cpE (a : Nat) (b : Bytes) (s : State) : (s.flashWrite a b).cpE = s.cpE := State.flashWrite_only a b s .cpE (by decide)
@[simp] theorem State.flashWrite_rings (a : Nat) (b : Bytes) (s : State) : (s.flashWrite a b).rings = s.rings := State.flashWrite_only a b s .rings (by decide)
@[simp] theorem State.flashWrite_work (a : Nat) (b : Bytes) (s : State) : (s.flashWrite a b).work = s.work := State.flashWrite_only a b s .work (by decide)
@[simp] theorem State.flashWrite_net (a : Nat) (b : Bytes) (s : State) : (s.flashWrite a b).net = s.net := State.flashWrite_only a b s .net (by decide)
@[simp] theorem State.flashWrite_rel (a : Nat) (b : Bytes) (s : State) : (s.flashWrite a b).rel = s.rel := State.flashWrite_only a b s .rel (by decide)
@[simp] theorem State.flashWrite_ledger (a : Nat) (b : Bytes) (s : State) : (s.flashWrite a b).ledger = s.ledger := State.flashWrite_only a b s .ledger (by decide)
@[simp] theorem State.flashWrite_sets (a : Nat) (b : Bytes) (s : State) : (s.flashWrite a b).sets = s.sets := State.flashWrite_only a b s .sets (by decide)
@[simp] theorem State.flashWrite_lrd (a : Nat) (b : Bytes) (s : State) : (s.flashWrite a b).lrd = s.lrd := State.flashWrite_only a b s .lrd (by decide)
@[simp] theorem State.flashWrite_cry (a : Nat) (b : Bytes) (s : State) : (s.flashWrite a b).cry = s.cry := State.flashWrite_only a b s .cry (by decide)
@[simp] theorem State.flashWrite_off (a : Nat) (b : Bytes) (s : State) : (s.flashWrite a b).off = s.off := State.flashWrite_only a b s .off (by decide)
@[simp] theorem State.flashWrite_micro (a : Nat) (b : Bytes) (s : State) : (s.flashWrite a b).micro = s.micro := State.flashWrite_only a b s .micro (by decide)
@[simp] theorem State.flashWrite_upd (a : Nat) (b : Bytes) (s : State) : (s.flashWrite a b).upd = s.upd := State.flashWrite_only a b s .upd (by decide)
@[simp] theorem State.flashWrite_power (a : Nat) (b : Bytes) (s : State) : (s.flashWrite a b).power = s.power := State.flashWrite_only a b s .power (by decide)
@[simp] theorem State.flashWrite_mgmt (a : Nat) (b : Bytes) (s : State) : (s.flashWrite a b).mgmt = s.mgmt := State.flashWrite_only a b s .mgmt (by decide)
@[simp] theorem State.flashWrite_stats (a : Nat) (b : Bytes) (s : State) : (s.flashWrite a b).stats = s.stats := State.flashWrite_only a b s .stats (by decide)
@[simp] theorem State.flashWrite_out (a : Nat) (b : Bytes) (s : State) : (s.flashWrite a b).out = s.out := State.flashWrite_only a b s .out (by decide)
@[simp] theorem State.flashWrite_free (a : Nat) (b : Bytes) (s : State) : (s.flashWrite a b).free = s.free := by unfold State.flashWrite State.flashOp State.flashTick; split <;> first | rfl | (split <;> rfl)
@[simp] theorem State.flashWrite_pending (a : Nat) (b : Bytes) (s : State) : (s.flashWrite a b).pending = s.pending := by unfold State.flashWrite State.flashOp State.flashTick; split <;> first | rfl | (split <;> rfl)

theorem State.flashErase_only (a n : Nat) (s : State) : OnlyIn [.boot] s (s.flashErase a n) := by
  unfold State.flashErase State.flashOp State.flashTick; split
  · exact OnlyIn.refl _ _
  · split
    · intro p hp; cases p <;> first | exact absurd (List.mem_singleton.mpr rfl) hp | rfl
    · exact OnlyIn.refl _ _
@[simp] theorem State.flashErase_clock (a n : Nat) (s : State) : (s.flashErase a n).clock = s.clock := State.flashErase_only a n s .clock (by decide)
@[simp] theorem State.flashErase_hif (a n : Nat) (s : State) : (s.flashErase a n).hif = s.hif := State.flashErase_only a n s .hif (by decide)
@[simp] theorem State.flashErase_links (a n : Nat) (s : State) : (s.flashErase a n).links = s.links := State.flashErase_only a n s .links (by decide)
@[simp] theorem State.flashErase_fns (a n : Nat) (s : State) : (s.flashErase a n).fns = s.fns := State.flashErase_only a n s .fns (by decide)
@[simp] theorem State.flashErase_res (a n : Nat) (s : State) : (s.flashErase a n).res = s.res := State.flashErase_only a n s .res (by decide)
@[simp] theorem State.flashErase_tickets (a n : Nat) (s : State) : (s.flashErase a n).tickets = s.tickets := State.flashErase_only a n s .tickets (by decide)
@[simp] theorem State.flashErase_cpW (a n : Nat) (s : State) : (s.flashErase a n).cpW = s.cpW := State.flashErase_only a n s .cpW (by decide)
@[simp] theorem State.flashErase_cpE (a n : Nat) (s : State) : (s.flashErase a n).cpE = s.cpE := State.flashErase_only a n s .cpE (by decide)
@[simp] theorem State.flashErase_rings (a n : Nat) (s : State) : (s.flashErase a n).rings = s.rings := State.flashErase_only a n s .rings (by decide)
@[simp] theorem State.flashErase_work (a n : Nat) (s : State) : (s.flashErase a n).work = s.work := State.flashErase_only a n s .work (by decide)
@[simp] theorem State.flashErase_net (a n : Nat) (s : State) : (s.flashErase a n).net = s.net := State.flashErase_only a n s .net (by decide)
@[simp] theorem State.flashErase_rel (a n : Nat) (s : State) : (s.flashErase a n).rel = s.rel := State.flashErase_only a n s .rel (by decide)
@[simp] theorem State.flashErase_ledger (a n : Nat) (s : State) : (s.flashErase a n).ledger = s.ledger := State.flashErase_only a n s .ledger (by decide)
@[simp] theorem State.flashErase_sets (a n : Nat) (s : State) : (s.flashErase a n).sets = s.sets := State.flashErase_only a n s .sets (by decide)
@[simp] theorem State.flashErase_lrd (a n : Nat) (s : State) : (s.flashErase a n).lrd = s.lrd := State.flashErase_only a n s .lrd (by decide)
@[simp] theorem State.flashErase_cry (a n : Nat) (s : State) : (s.flashErase a n).cry = s.cry := State.flashErase_only a n s .cry (by decide)
@[simp] theorem State.flashErase_off (a n : Nat) (s : State) : (s.flashErase a n).off = s.off := State.flashErase_only a n s .off (by decide)
@[simp] theorem State.flashErase_micro (a n : Nat) (s : State) : (s.flashErase a n).micro = s.micro := State.flashErase_only a n s .micro (by decide)
@[simp] theorem State.flashErase_upd (a n : Nat) (s : State) : (s.flashErase a n).upd = s.upd := State.flashErase_only a n s .upd (by decide)
@[simp] theorem State.flashErase_power (a n : Nat) (s : State) : (s.flashErase a n).power = s.power := State.flashErase_only a n s .power (by decide)
@[simp] theorem State.flashErase_mgmt (a n : Nat) (s : State) : (s.flashErase a n).mgmt = s.mgmt := State.flashErase_only a n s .mgmt (by decide)
@[simp] theorem State.flashErase_stats (a n : Nat) (s : State) : (s.flashErase a n).stats = s.stats := State.flashErase_only a n s .stats (by decide)
@[simp] theorem State.flashErase_out (a n : Nat) (s : State) : (s.flashErase a n).out = s.out := State.flashErase_only a n s .out (by decide)
@[simp] theorem State.flashErase_free (a n : Nat) (s : State) : (s.flashErase a n).free = s.free := by unfold State.flashErase State.flashOp State.flashTick; split <;> first | rfl | (split <;> rfl)
@[simp] theorem State.flashErase_pending (a n : Nat) (s : State) : (s.flashErase a n).pending = s.pending := by unfold State.flashErase State.flashOp State.flashTick; split <;> first | rfl | (split <;> rfl)

theorem State.ledgerAdd_only (c i : Nat) (d : Bytes) (s : State) : OnlyIn [.ledger] s (s.ledgerAdd c i d) := by
  intro p hp; cases p <;> first | exact absurd (List.mem_singleton.mpr rfl) hp | rfl
@[simp] theorem State.ledgerAdd_clock (c i : Nat) (d : Bytes) (s : State) : (s.ledgerAdd c i d).clock = s.clock := rfl
@[simp] theorem State.ledgerAdd_hif (c i : Nat) (d : Bytes) (s : State) : (s.ledgerAdd c i d).hif = s.hif := rfl
@[simp] theorem State.ledgerAdd_links (c i : Nat) (d : Bytes) (s : State) : (s.ledgerAdd c i d).links = s.links := rfl
@[simp] theorem State.ledgerAdd_fns (c i : Nat) (d : Bytes) (s : State) : (s.ledgerAdd c i d).fns = s.fns := rfl
@[simp] theorem State.ledgerAdd_res (c i : Nat) (d : Bytes) (s : State) : (s.ledgerAdd c i d).res = s.res := rfl
@[simp] theorem State.ledgerAdd_tickets (c i : Nat) (d : Bytes) (s : State) : (s.ledgerAdd c i d).tickets = s.tickets := rfl
@[simp] theorem State.ledgerAdd_cpW (c i : Nat) (d : Bytes) (s : State) : (s.ledgerAdd c i d).cpW = s.cpW := rfl
@[simp] theorem State.ledgerAdd_cpE (c i : Nat) (d : Bytes) (s : State) : (s.ledgerAdd c i d).cpE = s.cpE := rfl
@[simp] theorem State.ledgerAdd_rings (c i : Nat) (d : Bytes) (s : State) : (s.ledgerAdd c i d).rings = s.rings := rfl
@[simp] theorem State.ledgerAdd_work (c i : Nat) (d : Bytes) (s : State) : (s.ledgerAdd c i d).work = s.work := rfl
@[simp] theorem State.ledgerAdd_net (c i : Nat) (d : Bytes) (s : State) : (s.ledgerAdd c i d).net = s.net := rfl
@[simp] theorem State.ledgerAdd_rel (c i : Nat) (d : Bytes) (s : State) : (s.ledgerAdd c i d).rel = s.rel := rfl
@[simp] theorem State.ledgerAdd_sets (c i : Nat) (d : Bytes) (s : State) : (s.ledgerAdd c i d).sets = s.sets := rfl
@[simp] theorem State.ledgerAdd_lrd (c i : Nat) (d : Bytes) (s : State) : (s.ledgerAdd c i d).lrd = s.lrd := rfl
@[simp] theorem State.ledgerAdd_cry (c i : Nat) (d : Bytes) (s : State) : (s.ledgerAdd c i d).cry = s.cry := rfl
@[simp] theorem State.ledgerAdd_off (c i : Nat) (d : Bytes) (s : State) : (s.ledgerAdd c i d).off = s.off := rfl
@[simp] theorem State.ledgerAdd_micro (c i : Nat) (d : Bytes) (s : State) : (s.ledgerAdd c i d).micro = s.micro := rfl
@[simp] theorem State.ledgerAdd_boot (c i : Nat) (d : Bytes) (s : State) : (s.ledgerAdd c i d).boot = s.boot := rfl
@[simp] theorem State.ledgerAdd_upd (c i : Nat) (d : Bytes) (s : State) : (s.ledgerAdd c i d).upd = s.upd := rfl
@[simp] theorem State.ledgerAdd_power (c i : Nat) (d : Bytes) (s : State) : (s.ledgerAdd c i d).power = s.power := rfl
@[simp] theorem State.ledgerAdd_mgmt (c i : Nat) (d : Bytes) (s : State) : (s.ledgerAdd c i d).mgmt = s.mgmt := rfl
@[simp] theorem State.ledgerAdd_stats (c i : Nat) (d : Bytes) (s : State) : (s.ledgerAdd c i d).stats = s.stats := rfl
@[simp] theorem State.ledgerAdd_out (c i : Nat) (d : Bytes) (s : State) : (s.ledgerAdd c i d).out = s.out := rfl
@[simp] theorem State.ledgerAdd_free (c i : Nat) (d : Bytes) (s : State) : (s.ledgerAdd c i d).free = s.free := rfl
@[simp] theorem State.ledgerAdd_pending (c i : Nat) (d : Bytes) (s : State) : (s.ledgerAdd c i d).pending = s.pending := rfl

theorem State.setPass_only (h : Nat) (p : Option (List Nat)) (s : State) : OnlyIn [.hif] s (s.setPass h p) := by
  intro p hp; cases p <;> first | exact absurd (List.mem_singleton.mpr rfl) hp | rfl
@[simp] theorem State.setPass_clock (h : Nat) (p : Option (List Nat)) (s : State) : (s.setPass h p).clock = s.clock := rfl
@[simp] theorem State.setPass_links (h : Nat) (p : Option (List Nat)) (s : State) : (s.setPass h p).links = s.links := rfl
@[simp] theorem State.setPass_fns (h : Nat) (p : Option (List Nat)) (s : State) : (s.setPass h p).fns = s.fns := rfl
@[simp] theorem State.setPass_res (h : Nat) (p : Option (List Nat)) (s : State) : (s.setPass h p).res = s.res := rfl
@[simp] theorem State.setPass_tickets (h : Nat) (p : Option (List Nat)) (s : State) : (s.setPass h p).tickets = s.tickets := rfl
@[simp] theorem State.setPass_cpW (h : Nat) (p : Option (List Nat)) (s : State) : (s.setPass h p).cpW = s.cpW := rfl
@[simp] theorem State.setPass_cpE (h : Nat) (p : Option (List Nat)) (s : State) : (s.setPass h p).cpE = s.cpE := rfl
@[simp] theorem State.setPass_rings (h : Nat) (p : Option (List Nat)) (s : State) : (s.setPass h p).rings = s.rings := rfl
@[simp] theorem State.setPass_work (h : Nat) (p : Option (List Nat)) (s : State) : (s.setPass h p).work = s.work := rfl
@[simp] theorem State.setPass_net (h : Nat) (p : Option (List Nat)) (s : State) : (s.setPass h p).net = s.net := rfl
@[simp] theorem State.setPass_rel (h : Nat) (p : Option (List Nat)) (s : State) : (s.setPass h p).rel = s.rel := rfl
@[simp] theorem State.setPass_ledger (h : Nat) (p : Option (List Nat)) (s : State) : (s.setPass h p).ledger = s.ledger := rfl
@[simp] theorem State.setPass_sets (h : Nat) (p : Option (List Nat)) (s : State) : (s.setPass h p).sets = s.sets := rfl
@[simp] theorem State.setPass_lrd (h : Nat) (p : Option (List Nat)) (s : State) : (s.setPass h p).lrd = s.lrd := rfl
@[simp] theorem State.setPass_cry (h : Nat) (p : Option (List Nat)) (s : State) : (s.setPass h p).cry = s.cry := rfl
@[simp] theorem State.setPass_off (h : Nat) (p : Option (List Nat)) (s : State) : (s.setPass h p).off = s.off := rfl
@[simp] theorem State.setPass_micro (h : Nat) (p : Option (List Nat)) (s : State) : (s.setPass h p).micro = s.micro := rfl
@[simp] theorem State.setPass_boot (h : Nat) (p : Option (List Nat)) (s : State) : (s.setPass h p).boot = s.boot := rfl
@[simp] theorem State.setPass_upd (h : Nat) (p : Option (List Nat)) (s : State) : (s.setPass h p).upd = s.upd := rfl
@[simp] theorem State.setPass_power (h : Nat) (p : Option (List Nat)) (s : State) : (s.setPass h p).power = s.power := rfl
@[simp] theorem State.setPass_mgmt (h : Nat) (p : Option (List Nat)) (s : State) : (s.setPass h p).mgmt = s.mgmt := rfl
@[simp] theorem State.setPass_stats (h : Nat) (p : Option (List Nat)) (s : State) : (s.setPass h p).stats = s.stats := rfl
@[simp] theorem State.setPass_out (h : Nat) (p : Option (List Nat)) (s : State) : (s.setPass h p).out = s.out := rfl
@[simp] theorem State.setPass_free (h : Nat) (p : Option (List Nat)) (s : State) : (s.setPass h p).free = s.free := rfl
@[simp] theorem State.setPass_pending (h : Nat) (p : Option (List Nat)) (s : State) : (s.setPass h p).pending = s.pending := rfl

end Sys2Proof.Machine
end

