-- ==== Sys2Proof/Laws/Ops.lean ====
section
/-! SUPPORT. The shared operations: what each can change, said once. Later proofs cite these and do not unfold the operations. -/

namespace Sys2Proof.Machine

open Sys2Proof

/-! ## Walks -/

/-- A walk over a list stays within the fields each of its steps stays within. -/
theorem State.each_only {α : Type} {ps : List Field} (f : α → State → State) (h : ∀ x s, OnlyIn ps s (f x s)) (l : List α) (s : State) :
    OnlyIn ps s (s.each f l) := by
  induction l generalizing s with
  | nil => exact OnlyIn.refl _ _
  | cons x xs ih => exact (h x s).trans (ih _)

theorem State.when_only {ps : List Field} (c : Bool) (f : State → State) (s : State) (h : OnlyIn ps s (f s)) : OnlyIn ps s (s.when c f) := by
  unfold State.when
  split
  · exact h
  · exact OnlyIn.refl _ _

/-! ## TLPs, vectors, reads, index blocks -/

theorem State.tlp_only (fid : Nat) (o : Out) (s : State) : OnlyIn [.out] s (s.tlp fid o) := State.emit_only _ s

theorem State.dmaWrite_only (fid : Nat) (a : BitVec 64) (d : Bytes) (s : State) : OnlyIn [.out] s (s.dmaWrite fid a d) := by
  unfold State.dmaWrite
  split
  · exact OnlyIn.refl _ _
  · exact State.each_only _ (fun _ s => State.tlp_only _ _ s) _ s

theorem State.sendMsi_only (fid vec : Nat) (s : State) : OnlyIn [.fns, .out] s (s.sendMsi fid vec) := by
  unfold State.sendMsi
  dsimp only
  split
  · exact OnlyIn.refl _ _
  · split
    · exact (State.modFn_only _ _ s).mono (by decide)
    · exact (State.tlp_only _ _ s).mono (by decide)

theorem State.sendRead_only (l t : Nat) (r : HostRead) (s : State) : OnlyIn [.links, .out] s (s.sendRead l t r) :=
  ((State.modLink_only _ _ s).mono (by decide)).trans ((State.tlp_only _ _ _).mono (by decide))

theorem State.queueRead_only (l : Nat) (r : HostRead) (s : State) : OnlyIn [.links, .out] s (s.queueRead l r) := by
  unfold State.queueRead
  split
  · exact State.sendRead_only _ _ _ s
  · exact (State.modLink_only _ _ s).mono (by decide)

/-- A host read is sent or waits: links and what leaves the device may change, nothing else. -/
theorem State.issueRead_only (fid : Nat) (a : BitVec 64) (n : Nat) (u : ReadUse) (s : State) :
    OnlyIn [.links, .out] s (s.issueRead fid a n u) := by
  unfold State.issueRead
  split
  · exact OnlyIn.refl _ _
  · exact State.each_only _ (fun _ s => State.queueRead_only _ _ s) _ s

theorem State.pumpReads_only (l n : Nat) (s : State) : OnlyIn [.links, .out] s (s.pumpReads l n) := by
  induction n generalizing s with
  | zero => exact OnlyIn.refl _ _
  | succ n ih =>
    unfold State.pumpReads
    split
    · exact ((State.modLink_only _ _ s).mono (by decide)).trans ((State.sendRead_only _ _ _ _).trans (ih _))
    · exact OnlyIn.refl _ _

theorem State.endRead_only (fid : Nat) (u : ReadUse) (s : State) : OnlyIn [.links, .out] s (s.endRead fid u) :=
  ((State.modLink_only _ _ s).mono (by decide)).trans (State.pumpReads_only _ _ _)

theorem State.dropRead_only (l t : Nat) (s : State) : OnlyIn [.links, .out] s (s.dropRead l t) :=
  ((State.modLink_only _ _ s).mono (by decide)).trans (State.pumpReads_only _ _ _)

theorem State.idxWrite_only (k : Nat) (s : State) : OnlyIn [.out] s (s.idxWrite k) := by
  unfold State.idxWrite
  split
  · exact OnlyIn.refl _ _
  · exact State.dmaWrite_only _ _ _ s

theorem State.specRead_only (k : Nat) (r : Ring) (s : State) : OnlyIn [.links, .work, .out] s (s.specRead k r) := by
  unfold State.specRead
  split
  · have h := (State.issueRead_only r.fid (r.ringAddr + BitVec.ofNat 64 (r.dev.toNat % r.size * 64)) (min r.burst (r.size - r.dev.toNat % r.size) * 64)
      (.spec k) s).mono (qs := [.links, .work, .out]) (by decide)
    dsimp only
    split
    · exact (h.trans ((State.issueRead_only _ _ _ _ _).mono (by decide))).trans ((State.modWork_only _ _ _).mono (by decide))
    · exact h.trans ((State.modWork_only _ _ _).mono (by decide))
  · exact OnlyIn.refl _ _

theorem State.readIndex_only (k : Nat) (s : State) : OnlyIn [.rings, .links, .work, .out] s (s.readIndex k) := by
  unfold State.readIndex
  split
  · exact OnlyIn.refl _ _
  · split
    · exact OnlyIn.refl _ _
    · exact (((State.setRing_only _ _ s).mono (by decide)).trans ((State.issueRead_only _ _ _ _ _).mono (by decide))).trans
        ((State.specRead_only _ _ _).mono (by decide))

/-! ## Events (R161 to R166) -/

/-- The fields that posting an event may change. -/
abbrev evFields : List Field := [.fns, .links, .res, .tickets, .rings, .work, .out]

theorem State.eqIrq_only (n : Nat) (s : State) : OnlyIn [.rings, .fns, .out] s (s.eqIrq n) := by
  unfold State.eqIrq
  split
  · exact OnlyIn.refl _ _
  · split
    · exact ((State.setRing_only _ _ s).mono (by decide)).trans ((State.sendMsi_only _ _ _).mono (by decide))
    · exact OnlyIn.refl _ _

theorem State.afterEvent_only (fid code source : Nat) (s : State) : OnlyIn [.tickets] s (s.afterEvent fid code source) := by
  unfold State.afterEvent
  split
  · split
    · split
      · intro p hp; cases p <;> first | exact absurd (List.mem_singleton.mpr rfl) hp | rfl
      · exact OnlyIn.refl _ _
    · exact OnlyIn.refl _ _
  · exact OnlyIn.refl _ _

theorem State.writeEvent_only (n code source : Nat) (d : Bytes) (s : State) : OnlyIn evFields s (s.writeEvent n code source d) := by
  unfold State.writeEvent
  split
  · exact OnlyIn.refl _ _
  · exact ((State.dmaWrite_only _ _ _ s).mono (by decide)).trans <| ((State.setRing_only _ _ _).mono (by decide)).trans <|
      ((State.idxWrite_only _ _).mono (by decide)).trans <| ((State.afterEvent_only _ _ _ _).mono (by decide)).trans <|
      (State.eqIrq_only _ _).mono (by decide)

theorem drainHeld_only (fid n : Nat) (es : List EvHeld) (s : State) : OnlyIn evFields s (drainHeld fid n es s).2 := by
  induction es generalizing s with
  | nil => exact OnlyIn.refl _ _
  | cons e es ih =>
    unfold drainHeld
    split
    · exact (State.writeEvent_only _ _ _ _ s).trans (ih _)
    · exact ih s

theorem drainBits_only (fid n : Nat) (es : List EvBit) (s : State) : OnlyIn evFields s (drainBits fid n es s).2 := by
  induction es generalizing s with
  | nil => exact OnlyIn.refl _ _
  | cons e es ih =>
    unfold drainBits
    split
    · exact (State.writeEvent_only _ _ _ _ s).trans (ih _)
    · exact ih s

theorem State.flushEq_only (fid n : Nat) (s : State) : OnlyIn evFields s (s.flushEq fid n) :=
  (drainHeld_only _ _ _ s).trans <| (drainBits_only _ _ _ _).trans <| (State.modRes_only _ _ _).mono (by decide)

theorem State.foundFull_only (was : Bool) (n : Nat) (s : State) : OnlyIn evFields s (s.foundFull was n) := by
  unfold State.foundFull
  split
  · exact OnlyIn.refl _ _
  · split
    · exact (State.readIndex_only _ s).mono (by decide)
    · exact OnlyIn.refl _ _

/-- Posting a pending-bit event changes rings and their work, reads, held events, tickets and what leaves the device, nothing else. -/
theorem State.postBit_only (fid : Nat) (t : EvTarget) (code source : Nat) (d : Bytes) (s : State) :
    OnlyIn evFields s (s.postBit fid t code source d) := by
  unfold State.postBit
  split
  · exact OnlyIn.refl _ _
  · dsimp only
    split
    · exact ((State.modRes_only _ _ s).mono (by decide)).trans (State.writeEvent_only _ _ _ _ _)
    · exact ((State.modRes_only _ _ s).mono (by decide)).trans (State.foundFull_only _ _ _)

theorem State.postHeld_only (fid : Nat) (t : EvTarget) (code source : Nat) (d : Bytes) (s : State) :
    OnlyIn evFields s (s.postHeld fid t code source d) := by
  unfold State.postHeld
  split
  · exact OnlyIn.refl _ _
  · split
    · exact State.writeEvent_only _ _ _ _ s
    · exact ((State.modRes_only _ _ s).mono (by decide)).trans (State.foundFull_only _ _ _)

theorem State.postAll_only (fids : List Nat) (code source : Nat) (d : Bytes) (s : State) : OnlyIn evFields s (s.postAll fids code source d) :=
  State.each_only _ (fun fid s => State.postBit_only fid .fn code source d s) fids s
theorem State.postPfs_only (code source : Nat) (d : Bytes) (s : State) : OnlyIn evFields s (s.postPfs code source d) := State.postAll_only _ _ _ _ s
theorem State.postInfra_only (code source : Nat) (d : Bytes) (s : State) : OnlyIn evFields s (s.postInfra code source d) := State.postAll_only _ _ _ _ s

/-- A ring that enters ERROR changes rings and their work, its function's registers, held events, tickets and what leaves the device, nothing else. -/
theorem State.ringError_only (k code : Nat) (rej : BitVec 32) (s : State) : OnlyIn evFields s (s.ringError k code rej) := by
  unfold State.ringError
  split
  · exact OnlyIn.refl _ _
  · exact ((State.setRing_only _ _ s).mono (by decide)).trans <| ((State.idxWrite_only _ _).mono (by decide)).trans <|
      ((State.modFn_only _ _ _).mono (by decide)).trans (State.postBit_only _ _ _ _ _ _)

/-- Reading a counter of steps changes nothing but that counter. -/
theorem State.tickSteps_only (h : Nat) (s : State) : OnlyIn [.off] s (s.tickSteps h) := fun f hf => by
  cases f <;> first | rfl | exact absurd (by decide) hf

/-! ## Responses (R68) -/

/-- A response changes the function's mailbox and may send its vector. -/
theorem State.respond_only (fid : Nat) (r : Req) (st d tk : Nat) (p : Bytes) (s : State) : OnlyIn [.fns, .out] s (s.respond fid r st d tk p) := by
  unfold State.respond
  dsimp only
  split
  · exact ((State.modFn_only _ _ s).mono (by decide)).trans (State.sendMsi_only _ _ _)
  · exact (State.modFn_only _ _ s).mono (by decide)

/-- The bytes of a register write of eight bytes or fewer are those of its value (R48). -/
@[simp] theorem wideValue_nil (v : BitVec 64) : wideValue v [] = v.toNat := by simp [wideValue, leNat]

/-! ## Fault buckets (R518, R520) -/

theorem State.permanent_only (r w : Nat) (s : State) : OnlyIn [.rel, .stats, .ledger] s (s.permanent r w) :=
  ((State.setBucket_only _ _ s).mono (by decide)).trans <| ((State.bump_only _ _ _ _).mono (by decide)).trans <|
    (State.ledgerAdd_only _ _ _ _).mono (by decide)

/-- A charge changes buckets, counters and the Ledger's buffer. -/
theorem State.charge_only (r w : Nat) (s : State) : OnlyIn [.rel, .stats, .ledger] s (s.charge r w).1 := by
  unfold State.charge
  extract_lets b l t first s'
  have h : OnlyIn [.rel, .stats, .ledger] s s' := by
    unfold s'
    split
    · exact (State.ledgerAdd_only _ _ _ s).mono (by decide)
    · exact OnlyIn.refl _ _
  split
  · exact h.trans (State.permanent_only _ _ _)
  · exact h.trans (((State.bump_only _ _ _ _).mono (by decide)).trans ((State.setBucket_only _ _ _).mono (by decide)))

/-! ## The settings store (R489 to R492) -/

/-- A flash operation whose body stays within some fields that include the boot's stays within them. -/
theorem State.flashOp_only {ps : List Field} (hb : Field.boot ∈ ps) (f : State → State) (s : State) (h : OnlyIn ps s (f s)) :
    OnlyIn ps s (s.flashOp f) := by
  unfold State.flashOp
  split
  · exact h.trans fun p hp => by cases p <;> first | exact absurd hb hp | rfl
  · exact OnlyIn.refl _ _

theorem State.modCopy_only (i : Nat) (f : SetCopy → SetCopy) (s : State) : OnlyIn [.sets, .boot] s (s.modCopy i f) :=
  State.flashOp_only (by decide) _ s fun p hp => by cases p <;> first | exact absurd (by decide) hp | rfl

theorem State.putSetting_only (w : SetWrite) (s : State) : OnlyIn [.sets, .boot] s (s.putSetting w) := by
  have h (l : List SetWrite) : OnlyIn [.sets, .boot] s { s with sets := { s.sets with later := l } } := fun p hp => by
    cases p <;> first | exact absurd (by decide) hp | rfl
  unfold State.putSetting
  split
  · exact State.modCopy_only _ _ s
  · split
    · exact h _
    · exact State.modCopy_only _ _ s
  · exact h _

@[simp] theorem State.modCopy_capOn (i : Nat) (f : SetCopy → SetCopy) (s : State) : (s.modCopy i f).capOn = s.capOn := by
  unfold State.modCopy State.flashOp; split <;> rfl
@[simp] theorem State.putSetting_capOn (w : SetWrite) (s : State) : (s.putSetting w).capOn = s.capOn := by
  unfold State.putSetting
  split
  · simp
  · split <;> first | rfl | simp
  · rfl

theorem State.writeSet_only (f : SetCopy → SetCopy) (s : State) : OnlyIn [.sets, .boot] s (s.writeSet f) := by
  unfold State.writeSet
  split
  · exact OnlyIn.refl _ _
  · exact State.modCopy_only _ _ s

/-! ## Threads -/

/-- An instruction that completes changes its thread as it says and nothing else a program can observe. -/
theorem State.complete_threadOnly (t rd : Nat) (v : BitVec 64) (n : Nat) (s : State) :
    ThreadOnly t ((s.thread t).past rd v n) s (s.complete t rd v n) :=
  ⟨State.thread_modThread_self _ _ _, fun x hx => by rw [State.complete, State.thread_modThread, if_neg hx], rfl, rfl, rfl, rfl,
    fun _ => ⟨rfl, rfl, rfl, rfl, rfl, rfl⟩, State.modThread_only _ _ _⟩

/-- The same after a change to the thread alone. -/
theorem State.complete_modThread_threadOnly (t rd : Nat) (v : BitVec 64) (n : Nat) (f : Thread → Thread) (s : State) :
    ThreadOnly t ((f (s.thread t)).past rd v n) s ((s.modThread t f).complete t rd v n) :=
  ⟨by rw [State.complete, State.thread_modThread_self, State.thread_modThread_self]; rfl,
    fun x hx => by rw [State.complete, State.thread_modThread, if_neg hx, State.thread_modThread, if_neg hx], rfl, rfl, rfl, rfl,
    fun _ => ⟨rfl, rfl, rfl, rfl, rfl, rfl⟩, (State.modThread_only _ _ _).trans (State.modThread_only _ _ _)⟩

/-! ## What a block's reads meet (R528, R531) -/

@[simp] theorem State.flipTcam_nil (n : Nat) (s : State) : s.flipTcam n [] = s := by simp [State.flipTcam]
/-- A row whose reads meet nothing goes on as it would. -/
@[simp] theorem State.memEnv_none (n : Nat) (c : PktCheck) (s : State) : s.memEnv n {} c = (c, s) := by
  cases c <;> simp [State.memEnv, memCheck, State.memErrs, State.each]

/-! ## Registers of threads and engines -/

@[simp] theorem Thread.setReg_zero (v : BitVec 64) (t : Thread) : t.setReg 0 v = t := rfl
theorem Thread.reg_setReg (r q : Nat) (v : BitVec 64) (t : Thread) (h : r ≠ 0) : (t.setReg r v).reg q = if q = r then v else t.reg q := by
  simp only [Thread.setReg, if_neg h, Thread.reg, Tab.getD, Tab.find_set]; split <;> rfl
@[simp] theorem Thread.past_zero (v : BitVec 64) (n : Nat) (t : Thread) : t.past 0 v n = { t with pc := t.pc + BitVec.ofNat 64 n, instret := t.instret + 1 } := rfl

end Sys2Proof.Machine
end

