-- ==== Sys2Proof/Laws/Mailbox.lean ====
section
/-! SUPPORT. Mailbox commands: lists of checks, and a request that passes them runs the command's body. -/

namespace Sys2Proof.Machine

open Sys2Proof

@[simp] theorem fits_nil : Fits [] := rfl
@[simp] theorem fits_cons (b : Bool) (x : Nat × Nat) (t : List (Bool × Nat × Nat)) : Fits ((b, x) :: t) ↔ b = false ∧ Fits t := by
  obtain ⟨st, d⟩ := x; cases b <;> simp [Fits, firstFail]
@[simp] theorem fits_bad (b : Bool) (o : Nat) (t : List (Bool × Nat × Nat)) : Fits (bad b o :: t) ↔ b = false ∧ Fits t := by
  simp [bad]
@[simp] theorem fits_append (a b : List (Bool × Nat × Nat)) : Fits (a ++ b) ↔ Fits a ∧ Fits b := by
  induction a with
  | nil => exact ⟨fun h => ⟨rfl, h⟩, fun h => h.2⟩
  | cons x t ih => obtain ⟨c, y⟩ := x; rw [List.cons_append, fits_cons, fits_cons, ih, and_assoc]

/-- A list of checks none of which fails lets the command go on. -/
theorem checked_fits {cs : List (Bool × Nat × Nat)} {k : Unit → CmdRes} (h : Fits cs) : checked cs k = k () := by
  unfold checked; rw [h]

@[simp] theorem noScope_eq (s : State) (p : Bytes) : noScope s p = none := rfl

/-- A request that passes steps 1 to 5 of R73, and the command's own scope, gets what the command's body answers. -/
theorem run_passes {c : CmdSpec} {s : State} {fid : Nat} {r : Req} {p : Bytes} {scope : State → Bytes → Option (Nat × Nat)}
    {body : State → Bytes → CmdRes} (h : Passes c s fid r p) (hs : scope s p = none) :
    s.runCmd c fid scope body = (match body s p with
        | .fail st d p => s.respond fid r st d 0 p
        | .ok s st p => s.respond fid r st 0 0 p
        | .pend s w => s.issueTicket fid r w
        | .stop s st d => s.respond fid r st d 0 []
        | .full s d p => s.respond fid r stTableFull d 0 p
        | .answered s => s
        | .wait => s) := by
  obtain ⟨h1, h2, h3, h4, h5, h6⟩ := h
  subst h2
  unfold State.runCmd
  rw [h1]
  simp only [h3, h4, h5, bne_self_eq_false, Bool.or_self, Bool.not_true, hs, h6]
  rfl

end Sys2Proof.Machine
end

