-- ==== Sys2Proof/Tests/Slice0.lean ====
section
/-! SUPPORT. Checks of the model on small states, and for each statement a state and operands that meet its hypotheses. -/

namespace Sys2Proof.Tests

set_option Elab.async false

open Sys2Proof Sys2Proof.Machine

/-! ## Small states -/

/-- A device that serves hosts: link 0 up, its PF ACTIVE with INFRA, the control processor running. -/
def up : State := { State.reset with
  boot := { stage := .ready, lc := 2 }
  hif := { devState := 1 }
  cpW := { unavailable := false, running := true }
  links := [(0, { up := true, perst := false })]
  fns := [(0, { state := .active, gen := 1, priv := .infra })] }

/-- A request with an opcode and a payload. -/
def rq (op : Nat) (p : Bytes) : Req :=
  { header := toLe 2 op ++ toLe 2 p.length ++ [1] ++ List.replicate 27 0, payload := p, acceptedAt := 0 }

/-- The state with such a request in the mailbox of function 0. -/
def ask (op : Nat) (p : Bytes) (s : State) : State := s.modFn 0 (fun f => { f with owner := true, req := some (rq op p) })

/-- `n` zero bytes. -/
def zs (n : Nat) : Bytes := List.replicate n 0

/-- Function 0 asks for a command with a payload: the request passes, and more holds of the state and the payload. -/
abbrev Asks (c : CmdSpec) (p : Bytes) (s : State) (q : State → Bytes → Prop) : Prop :=
  Passes c (ask c.op p s) 0 (rq c.op p) p ∧ q (ask c.op p s) p

/-! ## Mailbox commands -/

/-- Device time is behind by 1 ns. -/
def back1 : Bytes := List.replicate 8 0xFF ++ zs 8

theorem witness_DeviceCommands :
    Asks { op := 0x0001 } [] up (fun _ _ => True) ∧
    Asks { op := 0x0003, issuer := 1 } [] up (fun _ _ => True) ∧
    Asks { op := 0x0004, issuer := 1, lenMin := 4, lenMax := 4 } [189, 0, 0, 0] { up with power := { samples := [(189, -3, 7)] } } (fun s p =>
      le p 0 2 = 189 ∧ Fits (reserved p 2 2) ∧ Tab.find 189 s.power.samples = some (-3, 7)) ∧
    Asks { op := 0x0005, issuer := 2, east := false, lenMin := 8, lenMax := 8 } (zs 4 ++ [63] ++ zs 3) up (fun _ p =>
      le p 4 1 = 63 ∧ Fits (reserved p 5 3)) ∧
    Asks { op := 0x0806, issuer := 1 } [] up (fun _ _ => True) ∧
    Asks { op := 0x0006, issuer := 2, east := false, lenMin := 8, lenMax := 8 } ([2, 1, 1, 0] ++ zs 4) up (fun s p =>
      s.rel.split = false ∧ le p 0 1 = 2 ∧ le p 1 1 = 1 ∧ le p 2 2 ≠ 0 ∧ Fits (reserved p 4 4) ∧ s.hif.resetReq = none) ∧
    Asks { op := 0x0007, cls := 1, issuer := 2, east := false, lenMin := 4, lenMax := 4 } [0x90, 1, 1, 0] up (fun _ p =>
      le p 0 2 = 400 ∧ le p 2 1 = 1 ∧ le p 3 1 = 0) ∧
    Asks { op := 0x0601, cls := 2, issuer := 2, east := false, lenMin := 8, lenMax := 8 } ([15, 0, 1, 0] ++ zs 4) up (fun s p =>
      s.rel.split = false ∧ le p 0 1 = 15 ∧ le p 1 1 = 0 ∧ le p 2 1 = 1 ∧ le p 3 1 = 0 ∧ Fits (reserved p 4 4) ∧ s.objBusy (.port 15) = false ∧
      (s.np 15).breakout = 0 ∧ (s.np 15).enable = (le p 3 1 == 1)) ∧
    Asks { op := 0x0601, cls := 2, issuer := 2, east := false, lenMin := 8, lenMax := 8 } ([15, 3, 1, 1] ++ zs 4) up (fun s p =>
      s.rel.split = false ∧ le p 0 1 = 15 ∧ le p 1 1 = 3 ∧ le p 2 1 = 1 ∧ le p 3 1 = 1 ∧ Fits (reserved p 4 4) ∧ s.objBusy (.port 15) = false ∧
      (s.np 15).breakout ≠ 3) ∧
    Asks { op := 0x0604, issuer := 2, east := false, lenMin := 16, lenMax := 16 } back1 up (fun _ p =>
      le p 12 1 = 0 ∧ Fits (reserved p 13 3) ∧ signed 32 (le p 8 4) = 0 ∧ signed 64 (le p 0 8) = -1) := by
  and_intros <;> decide +kernel

/-- `up` with a done ticket, and a key and rings of function 0. -/
def held : State := { up with
  tickets := [(ticketKey 0 0x101, { fid := 0, opcode := 0x0405, cookie := 5, eq := none, autoRel := false, work := .epDestroy 3, done := true, status := 0 })]
  cry := { slots := [(7, { info := some { fid := 0, fgen := 1, alg := 0, salt := 9, limit := 100, used := 4, key := zs 16 } })] }
  rings := [(sqKey 3, { fid := 0, gen := 1, bind := 2, state := .error, error := 4, ringAddr := 0x1000, idxAddr := 0x800 }),
            (cqKey 2, { fid := 0, gen := 1, bind := 1, ringAddr := 0x2000, idxAddr := 0x840 }),
            (eqKey 1, { fid := 0, gen := 1, bind := 0, ringAddr := 0x3000, idxAddr := 0x880 })] }

theorem witness_Queries :
    Asks { op := 0x0002, lenMin := 8, lenMax := 8 } ([1, 1, 0, 0, 1] ++ zs 3) held (fun s p => le p 4 1 = 1 ∧ Fits (reserved p 5 3) ∧
      (Tab.find (ticketKey 0 (le p 0 4)) s.tickets).map (·.done) = some true) ∧
    Asks { op := 0x0602, lenMin := 4, lenMax := 4 } [120, 0, 0, 0] { up with net := { nps := [(15, { enable := true })] } } (fun s p =>
      s.rel.split = false ∧ le p 0 1 = 120 ∧ Fits (reserved p 1 3) ∧ s.lpExists (le p 0 1) = true) ∧
    Asks { op := 0x0603, lenMin := 8, lenMax := 8 } [4, 0, 0xFF, 3, 0, 0, 0xF8, 1] up (fun s p =>
      (s.fn 0).priv = .infra ∧ le p 0 1 = 4 ∧ le p 1 1 = 0 ∧ le p 2 2 = statMax (le p 0 1) ∧ le p 6 2 = 504 ∧ s.rel.split = false ∧
      s.objBusy (.function (le p 2 2)) = false) ∧
    Asks { op := 0x0103, lenMin := 4, lenMax := 4 } [0xFF, 0xFF, 0, 0] up (fun s p =>
      s.rel.split = false ∧ le p 0 2 = 0xFFFF ∧ Fits (reserved p 2 2) ∧ s.fidOk 0 = true ∧ s.objBusy (.function 0) = false) ∧
    Asks { op := 0x0204, lenMin := 8, lenMax := 8 } ([3, 0, 0, 0, 0] ++ zs 3) held (fun s p =>
      s.rel.split = false ∧ le p 0 4 ≤ 262143 ∧ le p 4 1 = 0 ∧ Fits (reserved p 5 3) ∧ (s.ring (ringOfReq p)).map (·.fid) = some 0 ∧
      s.ownsOr 0 0 = true ∧ s.objBusy (.ring (ringOfReq p)) = false) ∧
    Asks { op := 0x0503, lenMin := 4, lenMax := 4 } [7, 0, 0, 1] held (fun s p =>
      s.rel.split = false ∧ Fits (s.handleChecks (s.ownsOr 0) (le p 0 4) 0) ∧ (s.keyOf (handleSlot (le p 0 4))).map (·.used) = some 4) ∧
    Asks { op := 0x0306, issuer := 2, lenMin := 40, lenMax := 40 } ([0, 0x80, 0, 0] ++ zs 36) up (fun s p =>
      s.rel.split = false ∧ Fits (s.tableBad p true true)) := by
  and_intros <;> decide +kernel

/-- A grant of one submission ring, with the target function in front and the reserved bytes of FN_CREATE behind. -/
def grant1 (t : Nat) (n : Nat) : Bytes := toLe 2 t ++ [7, 0] ++ toLe 4 1 ++ zs 24 ++ toLe 4 64 ++ zs n

/-- `up` with VF 1 in a state. -/
def vf1 (st : FnState) : State := { up with fns := up.fns ++ [(1, { state := st, gen := 255 })] }

theorem witness_FunctionCommands :
    Asks { op := 0x0101, cls := 1, issuer := 1, east := false, lenMin := 48, lenMax := 48 } (grant1 1 12) (vf1 .idle) (fun s p =>
      s.rel.split = false ∧ le p 0 2 = 1 ∧ s.mayActOn 0 1 = true ∧ s.fidOk 1 = true ∧ s.isPf 1 = false ∧ Fits (grantBad p) ∧
      Fits (reserved p 36 12) ∧ s.objBusy (.function 1) = false ∧ (s.fn 1).state = .idle ∧
      Fits (overGrant (s.linkGrant (s.linkOf 1)) (reqGrant p :: s.otherGrants 1) stQuota) ∧ s.quarantineOver 1 = true) ∧
    Asks { op := 0x0101, cls := 1, issuer := 1, east := false, lenMin := 48, lenMax := 48 } (grant1 1 12)
        ((vf1 .aborted).modFn 1 (fun f => { f with leftAt := some 0 })) (fun s p =>
      (s.fn 1).state = .aborted ∧ s.objBusy (.function 1) = false ∧
      Fits (overGrant (s.linkGrant (s.linkOf 1)) (reqGrant p :: s.otherGrants 1) stQuota) ∧ s.quarantineOver 1 = false) ∧
    Asks { op := 0x0102, cls := 1, issuer := 1, east := false, lenMin := 4, lenMax := 4 } [1, 0, 255, 0] (vf1 .active) (fun s p =>
      s.rel.split = false ∧ le p 0 2 = 1 ∧ s.mayActOn 0 1 = true ∧ s.fidOk 1 = true ∧ s.isPf 1 = false ∧ le p 3 1 = 0 ∧
      s.objBusy (.function 1) = false ∧ le p 2 1 = (s.fn 1).gen.toNat ∧ (s.fn 1).state = .active) ∧
    Asks { op := 0x0104, issuer := 2, east := false, lenMin := 36, lenMax := 36 } (grant1 7 0) up (fun s p =>
      s.rel.split = false ∧ le p 0 1 = 7 ∧ le p 1 1 = 0 ∧ Fits (grantBad p) ∧ Fits (overGrant (reqGrant p) (s.grantsOn 14) stBusy) ∧
      s.bufOfHalf (le p 0 1 / 4) 14 (reqGrant p) ≤ 20480) ∧
    Asks { op := 0x0105, issuer := 2, east := false, lenMin := 4, lenMax := 4 } [0, 0x40, 0, 0] up (fun s p =>
      le p 0 2 ≠ 0 ∧ (∀ h, h < 8 → bit (le p 0 2) (2 * h + 1) = true → s.bif h = true) ∧ Fits (reserved p 2 2)) ∧
    Asks { op := 0x0106, issuer := 1, east := false, lenMin := 4, lenMax := 4 } [1, 0, 0, 0] up (fun _ p =>
      le p 0 1 = 1 ∧ Fits (reserved p 1 3)) := by
  and_intros <;> decide +kernel

theorem witness_RingCommands :
    Asks { op := 0x0201, lenMin := 32, lenMax := 32 }
      ([0, 4, 1, 64] ++ toLe 4 2 ++ toLe 8 0x1000 ++ toLe 8 0x800 ++ [255, 7, 2, 0] ++ zs 4) held (fun s p =>
      s.rel.split = false ∧ Fits (s.ringFieldsBad 0 p) ∧ le p 25 1 ≤ (s.quotaOf 0).maxClass ∧ s.owned (ringKey (le p 0 1 + 1) (le p 4 4)) 0 = true ∧
      s.ringCount (le p 0 1) 0 < (ringQuota (le p 0 1) (s.quotaOf 0)).1 ∧ s.freeRing (le p 0 1) (hpOf 0) = some 0 ∧ s.cqHolding (le p 4 4) = false) ∧
    Asks { op := 0x0202, cls := 1, lenMin := 8, lenMax := 8 } ([2, 0, 0, 0, 1] ++ zs 3) { held with rings := held.rings.tail } (fun s p =>
      s.rel.split = false ∧ le p 0 4 ≤ 262143 ∧ le p 4 1 = 1 ∧ Fits (reserved p 5 3) ∧ (s.ring (ringOfReq p)).map (·.fid) = some 0 ∧
      s.ownsOr 0 0 = true ∧ s.objBusy (.ring (ringOfReq p)) = false ∧ s.ringUsed (ringOfReq p) = false) ∧
    Asks { op := 0x0205, lenMin := 8, lenMax := 8 } ([2, 0, 0, 0, 1] ++ zs 3) (held.modRing (cqKey 2) (fun r => { r with state := .error, error := 2 }))
      (fun s p => s.rel.split = false ∧ le p 0 4 ≤ 262143 ∧ le p 4 1 = 1 ∧ Fits (reserved p 5 3) ∧
      (s.ring (ringOfReq p)).map (fun r => (r.fid, r.state)) = some (0, .error) ∧ s.ownsOr 0 0 = true ∧
      s.objBusy (.ring (ringOfReq p)) = false) ∧
    Asks { op := 0x0203, lenMin := 16, lenMax := 16 } ([3, 0, 0, 0, 0, 1, 255, 64] ++ zs 8) held (fun s p =>
      s.rel.split = false ∧ le p 0 4 ≤ 262143 ∧ le p 4 1 = 0 ∧ le p 5 1 = 1 ∧ 1 ≤ le p 6 1 ∧ 1 ≤ le p 7 1 ∧ le p 7 1 = 64 ∧
      Fits (reserved p 12 4) ∧ (s.ring (ringOfReq p)).map (·.fid) = some 0 ∧ s.ownsOr 0 0 = true ∧
      s.objBusy (.ring (ringOfReq p)) = false) := by
  and_intros <;> decide +kernel

/-- An action that drops: VERB 2 and nothing else. -/
def drop : Bytes := [2] ++ zs 15
/-- A rule of function 0. -/
def rule1 : Rule := { id := 0x101, fid := 0, gen := 1, priv := .infra, mask := 1, egress := false, prio := 5, key := zs 64, kmask := zs 64, action := drop }

theorem witness_PipelineCommands :
    Asks { op := 0x0301, cls := 1, issuer := 2, east := false, lenMin := 32, lenMax := 32 }
      ([15, 0, 15, 126] ++ drop ++ toLe 4 0x80000000 ++ toLe 2 10 ++ zs 6) up (fun s p =>
      s.rel.split = false ∧ le p 0 1 = 15 ∧ le p 1 1 = 0 ∧ le p 2 1 = 15 ∧ le p 3 1 % 4 ≠ 3 ∧ le p 3 1 ≤ 127 ∧ Fits (actionBad false (slice p 4 16) 4) ∧ (s.actionBusy (slice p 4 16)).1 = false ∧
      (aVerb (slice p 4 16) = 0 → aKind (slice p 4 16) ≠ 3) ∧ le p 20 4 = 0x80000000 ∧ Fits (reserved p 26 6) ∧ (s.pipe (le p 0 1)).recFifo = []) ∧
    Asks { op := 0x0302, east := false, lenMin := 152, lenMax := 152 } (toLe 2 0x8001 ++ [0, 0] ++ toLe 2 7 ++ zs 2 ++ zs 128 ++ drop) up (fun s p =>
      s.rel.split = false ∧ (s.fn 0).priv = .infra ∧ le p 0 2 ≠ 0 ∧ le p 2 1 = 0 ∧ le p 3 1 = 0 ∧ Fits (reserved p 6 2) ∧
      Fits (actionBad false (slice p 136 16) 136) ∧ (s.actionBusy (slice p 136 16)).1 = false ∧ s.ruleEntries 0 + maskSize (le p 0 2) ≤ (s.quotaOf 0).rule ∧
      s.net.ruleSerial ≤ 0xFFFFFF ∧ s.fullTcam (le p 0 2) false = none) ∧
    Asks { op := 0x0303, east := false, lenMin := 4, lenMax := 4 } [1, 1, 0, 0] { up with net := { rules := [rule1] } } (fun s p =>
      s.rel.split = false ∧ s.net.rules.find? (fun x => x.id.toNat == le p 0 4 && s.ownsOr 0 x.fid) = some rule1) ∧
    Asks { op := 0x0307, issuer := 2, east := false, lenMin := 16, lenMax := 16 } ([120, 6, 1, 0] ++ toLe 4 512 ++ zs 8)
      { up with net := { nps := [(15, { enable := true })] } } (fun s p =>
      s.rel.split = false ∧ le p 0 1 = 120 ∧ le p 1 1 = 6 ∧ le p 2 1 ≠ 0 ∧ le p 3 1 = 0 ∧ le p 4 4 % 64 = 0 ∧ le p 8 2 = 0 ∧ Fits (reserved p 10 6) ∧
      s.lpExists (le p 0 1) = true ∧ s.objBusy (.port (le p 0 1 / 8)) = false ∧
      s.portShares (le p 0 1 / 8) (le p 0 1 * 8 + le p 1 1) + le p 4 4 = 4096) ∧
    Asks { op := 0x0308, issuer := 2, east := false, lenMin := 136, lenMax := 136 } (toLe 2 1023 ++ [2] ++ zs 5 ++ toLe 2 2047 ++ toLe 2 5 ++ zs 124) up
      (fun s p => s.rel.split = false ∧ le p 0 2 = 1023 ∧ le p 2 1 = 2 ∧ Fits (reserved p 3 5) ∧
      (List.range 2).map (fun i => le p (8 + 2 * i) 2) = [2047, 5] ∧ ∀ i, i < 64 → 2 ≤ i → le p (8 + 2 * i) 2 = 0) := by
  and_intros <;> decide +kernel

/-- A MAC entry for LP 3 of exact match, and a host route. -/
def em1 : Bytes := [1, 1] ++ zs 6 ++ [2, 0, 0, 0, 0, 9, 0, 0, 1] ++ zs 3 ++ toLe 4 3 ++ zs 8
def route1 : Bytes := zs 8 ++ [10, 0, 0, 1] ++ zs 20

theorem witness_TableCommands :
    Asks { op := 0x0304, issuer := 2, east := false, lenMin := 40, lenMax := 40 } ([0, 0, 1, 0] ++ zs 4 ++ route1) up (fun s p =>
      s.rel.split = false ∧ Fits (s.tableBad p false false) ∧ le p 2 1 = 1 ∧ s.net.routesW = []) ∧
    Asks { op := 0x0305, issuer := 2, east := false, lenMin := 40, lenMax := 40 } ([0, 0x80, 0, 0] ++ zs 4 ++ em1) up (fun s p =>
      s.rel.split = false ∧ Fits (s.tableBad p true false) ∧ le p 2 1 = 0 ∧ maskBits 16 (le p 0 2) = [15] ∧
      (s.pipe 15).find (emKeyBytes (slice p 8 32)) = none) ∧
    Asks { op := 0x0305, issuer := 2, east := false, lenMin := 40, lenMax := 40 } ([0, 0, 1, 0] ++ zs 4 ++ route1)
      { up with net := { routesW := [route1], routesE := [route1] } } (fun s p =>
      s.rel.split = false ∧ Fits (s.tableBad p true false) ∧ le p 2 1 = 1 ∧
      s.net.routesW.any (fun x => routeKey x == routeKey (slice p 8 32)) = true) ∧
    Asks { op := 0x0304, issuer := 2, east := false, lenMin := 40, lenMax := 40 } ([0, 0x80, 0, 0] ++ zs 4 ++ em1) up (fun s p =>
      s.rel.split = false ∧ putBytes (slice p 8 32) 1 (toLe 1 (b2n (emStatic (slice p 8 32)))) = em1 ∧ Fits (s.tableBad p false false) ∧
      le p 2 1 = 0 ∧ maskBits 16 (le p 0 2) = [15] ∧ emKind em1 ≠ 2 ∧ (s.pipe 15).find (emKeyBytes em1) = none ∧
      ((s.pipe 15).insertNew { bytes := em1, cmd := true }).full = false) := by
  and_intros <;> decide +kernel

/-- A state in which endpoints can be made: a domain with a key, a transport ring with its CQ, backing memory and a node. -/
def epReady : State := { up with
  lrd := { nodeId := 9, tdW := [(5, { cur := some ⟨1, zs 32⟩ })], tdE := [(5, { cur := some ⟨1, zs 32⟩ })] }
  res := [(0, { backing := some (0x1000, 4096) })]
  rings := [(sqKey 3, { fid := 0, gen := 1, bind := 2, use := .lrd }), (cqKey 2, { fid := 0, gen := 1, bind := 1 })] }
/-- The same with endpoint 0 and a window. -/
def epThere : State := { epReady with
  lrd := { epReady.lrd with eps := [(0, { fid := 0, gen := 1, td := 5, sq := 3, cq := 2, limit := 16, ord := 0 })]
                            wins := [(4, { fid := 0, addr := 0x2000, len := 4096, access := 3, ep := none })] } }

theorem witness_TransportCommands :
    Asks { op := 0x0401, issuer := 2, east := false, lenMin := 16, lenMax := 16 } (toLe 4 9 ++ toLe 2 1500 ++ zs 2 ++ toLe 4 4000 ++ zs 4) up (fun s p =>
      le p 0 4 ≠ 0 ∧ le p 0 4 ≠ 0xFFFFFFFF ∧ le p 4 2 = 1500 ∧ Fits (reserved p 6 2) ∧ Fits (reserved p 12 4) ∧ s.lrd.eps = []) ∧
    Asks { op := 0x0402, issuer := 2, east := false, lenMin := 72, lenMax := 72 } (toLe 2 4095 ++ toLe 2 7 ++ zs 68) up (fun s p =>
      s.rel.split = false ∧ le p 0 2 = 4095 ∧ (s.td 0 (le p 0 2)).cur = none ∧ (s.td 0 (le p 0 2)).switchAt = none ∧ le p 4 1 = 0 ∧
      Fits (reserved p 5 3) ∧ Fits (reserved p 40 32) ∧ 1 ≤ s.boot.lc ∧ s.boot.lc ≤ 3 ∧ s.cry.state = .ready) ∧
    Asks { op := 0x0403, lenMin := 16, lenMax := 16 } (toLe 8 0x1000 ++ toLe 4 0x40000 ++ zs 4) up (fun s p =>
      le p 0 8 % 4096 = 0 ∧ ((s.quotaOf 0).ep * 256 + 1023) / 1024 ≤ le p 8 4 ∧ Fits (reserved p 12 4) ∧ (s.resOf 0).backing = none) ∧
    Asks { op := 0x0404, lenMin := 12, lenMax := 12 } (toLe 2 5 ++ toLe 2 1 ++ toLe 4 3 ++ toLe 4 2) epReady (fun s p =>
      s.rel.split = false ∧ le p 0 2 ≤ 4095 ∧ le p 2 2 = 1 ∧ le p 4 4 ≤ 262143 ∧ le p 8 4 ≤ 262143 ∧ (s.td 0 (le p 0 2)).cur.isSome = true ∧
      (s.ring (sqKey (le p 4 4))).map (fun q => (q.fid, q.use)) = some (0, .lrd) ∧ s.owned (cqKey (le p 8 4)) 0 = true ∧
      s.epOfSq (le p 4 4) = none ∧ (s.resOf 0).backing.isSome = true ∧ s.lrd.nodeId ≠ 0 ∧ s.epCount 0 < (s.quotaOf 0).ep ∧
      le p 2 2 ≤ (s.quotaOf 0).msg ∧ s.objBusy (.ring (sqKey (le p 4 4))) = false ∧
      lowestFree s.epTaken (s.epRange 0).1 (s.epRange 0).2 = some 0) ∧
    Asks { op := 0x0405, cls := 1, lenMin := 4, lenMax := 4 } (zs 4) epThere (fun s p =>
      s.rel.split = false ∧ (s.ep (le p 0 4)).map (·.fid) = some 0 ∧ s.ownsOr 0 0 = true ∧ s.objBusy (.ep (le p 0 4)) = false ∧
      s.epBusy (le p 0 4) = false) ∧
    Asks { op := 0x0406, lenMin := 24, lenMax := 24 } (zs 8 ++ toLe 8 1099511627776 ++ [3, 0, 0, 0] ++ toLe 4 0xFFFFF) up (fun s p =>
      s.rel.split = false ∧ le p 8 8 = 1099511627776 ∧ le p 16 1 = 3 ∧ Fits (reserved p 17 3) ∧ le p 20 4 = 0xFFFFF ∧
      s.lrd.wins.countV (fun _ w => w.live && w.fid == 0) < (s.quotaOf 0).mr ∧ lowestFree s.winTaken 0 16777216 = some 0 ∧
      Tab.find 0 s.lrd.wins = none) ∧
    Asks { op := 0x0407, cls := 1, lenMin := 4, lenMax := 4 } [1, 4, 0, 0] epThere (fun s p =>
      s.rel.split = false ∧ (Tab.find (le p 0 4 / 256) s.lrd.wins).map (fun w => (w.fid, w.gen.toNat, w.live)) = some (0, le p 0 4 % 256, true) ∧
      s.ownsOr 0 0 = true) := by
  and_intros <;> decide +kernel

/-- A key handle of slot 7, generation 1. -/
def handle7 : Bytes := [7, 0, 0, 1]

theorem witness_KeyCommands :
    Asks { op := 0x0501, lenMin := 96, lenMax := 96 } ([4, 0, 0, 0] ++ zs 92) up (fun s p =>
      le p 0 1 = 4 ∧ le p 1 1 = 0 ∧ Fits (reserved p 2 2) ∧ Fits (reserved p 16 16) ∧ aeadKeyLen (le p 0 1) = 32 ∧ Fits (reserved p 64 32) ∧
      1 ≤ s.boot.lc ∧ s.boot.lc ≤ 3 ∧ s.cry.state = .ready ∧ s.keysOf 0 < (s.quotaOf 0).key ∧
      lowestFree (fun i => (s.keyOf i).isSome) (hpOf 0 * 32768) 32768 = some 0) ∧
    Asks { op := 0x0502, lenMin := 4, lenMax := 4 } handle7 held (fun s p => s.rel.split = false ∧
      Fits (s.handleChecks (s.ownsOr 0) (le p 0 4) 0) ∧ s.cry.sas.anyV (fun _ a => a.slot == handleSlot (le p 0 4)) = false ∧ s.slotTaken (handleSlot (le p 0 4)) = false ∧
      s.keyComing (handleSlot (le p 0 4)) = false ∧
      s.cry.cores.all (fun e => e.2.slot != handleSlot (le p 0 4)) = true ∧
      (s.bulkQ (halfOfSlot (handleSlot (le p 0 4)))).all (fun j => j.slot != handleSlot (le p 0 4)) = true) ∧
    Asks { op := 0x0504, lenMin := 96, lenMax := 96 } (toLe 4 256 ++ [0, 1, 0, 0] ++ handle7 ++ toLe 2 4096 ++ zs 82) held (fun s p =>
      s.rel.split = false ∧ le p 0 4 ≠ 0 ∧ le p 4 1 = 0 ∧ le p 5 1 = 1 ∧ le p 6 1 = 0 ∧ le p 7 1 = 0 ∧ replayWins.contains (le p 12 2) = true ∧
      Fits (reserved p 14 18) ∧ Fits (s.handleChecks (· == 0) (le p 8 4) 8) ∧ s.cry.state = .ready ∧
      s.cry.sas.anyV (fun _ a => a.fid == 0 && !a.out && a.spi == le p 0 4) = false ∧ s.keysOf 0 < (s.quotaOf 0).key ∧
      lowestFree (fun i => (s.sa i).isSome) (hpOf 0 * 16384) 16384 = some 0) ∧
    Asks { op := 0x0505, lenMin := 4, lenMax := 4 } [2, 0, 0, 0]
      { held with cry := { held.cry with sas := [(2, { fid := 0, spi := 256, out := false, tunnel := false, esn := false, hdr := [], slot := 7, win := 0 })] } }
      (fun s p => s.rel.split = false ∧ (s.sa (le p 0 4)).map (fun a => (a.fid, a.slot)) = some (0, 7) ∧ s.ownsOr 0 0 = true ∧
      s.inlQ (halfOfSlot 7) = []) := by
  and_intros <;> decide +kernel

theorem witness_CoreCommands :
    Asks { op := 0x0701, cls := 1, issuer := 2, east := false, lenMin := 24, lenMax := 24 } ([127, 1, 0, 0] ++ toLe 4 4 ++ zs 8 ++ toLe 8 0x3FFFC) up
      (fun s p => s.rel.split = false ∧ Fits (coreRangeBad p) ∧ Fits (reserved p 2 2) ∧ le p 4 4 = 4 ∧ le p 16 8 + le p 4 4 = 0x40000 ∧
      ∀ c ∈ coreRange p, (s.core c).mode = 0 ∧ s.isRetired 7 c = false) ∧
    Asks { op := 0x0703, cls := 1, issuer := 2, east := false, lenMin := 4, lenMax := 4 } [63, 1, 2, 0] up (fun s p =>
      s.rel.split = false ∧ Fits (coreRangeBad p) ∧ le p 2 1 = 2 ∧ le p 3 1 = 0 ∧ ∀ c ∈ coreRange p, s.isRetired 7 c = false) ∧
    Asks { op := 0x0702, issuer := 2, east := false, lenMin := 68, lenMax := 68 } ([127, 0, 0, 0] ++ zs 63 ++ [0xFF]) up (fun s p =>
      s.rel.split = false ∧ le p 0 1 = 127 ∧ Fits (reserved p 1 3) ∧ (∀ v ∈ (slice p 4 64).map (·.toNat), v ≤ 15 ∨ v = 0xFF) ∧
      0 ∈ (slice p 4 64).map (·.toNat) ∧ s.isRetired 7 127 = false) ∧
    Asks { op := 0x0704, issuer := 2, lenMin := 16, lenMax := 16 } ([0xFF, 7, 1] ++ zs 13) { up with off := { threads := [(2047, { state := .waiting })] } }
      (fun s p => s.rel.split = false ∧ le p 0 2 = 2047 ∧ le p 2 1 = 1 ∧ Fits (reserved p 3 5) ∧ (s.thread (le p 0 2)).state = .waiting) ∧
    Asks { op := 0x0705, issuer := 2, east := false, lenMin := 4, lenMax := 4 } [0xFF, 0xF, 0xFF, 7] up (fun s p =>
      s.rel.split = false ∧ le p 0 2 = 4095 ∧ le p 2 2 = 2047 ∧ s.chan (le p 0 2) = none ∧ s.isRetired 7 (coreOf (le p 2 2)) = false) ∧
    Asks { op := 0x0706, issuer := 2, lenMin := 4, lenMax := 4 } [9, 0, 0, 0]
      { up with off := { threads := [(20, { state := .halted, lease := some 9 })], chans := [(9, { reader := 3, holder := some 20, asm := [1] })] } }
      (fun s p => s.rel.split = false ∧ le p 0 2 ≤ 4095 ∧ Fits (reserved p 2 2) ∧ (s.chan (le p 0 2)).map (·.holder) = some (some 20) ∧
      (s.thread 20).state = .halted) := by
  and_intros <;> decide +kernel

/-- `up` with an update in a state, of an image of `n` bytes, on slot 1. -/
def updAt (st n next : Nat) : State := { up with
  boot := { up.boot with trial := true }
  upd := { state := st, next := next, jpos := 1, jseq := 1
           journal := [(0, ({ type := 1, slot := 1, agent := 0, tag := 5, total := n, oldSeq := 0 } : JRec).bytes)] } }

theorem witness_UpdateCommands :
    Asks { op := 0x0801, issuer := 2, east := false, lenMin := 16, lenMax := 16 } (toLe 4 12582912 ++ zs 4 ++ toLe 8 5) up (fun s p =>
      le p 0 4 = 12582912 ∧ Fits (reserved p 4 4) ∧ s.beginRefusal (le p 0 4) 5 0 = none ∧ s.upd.state ≠ 1 ∧
      s.boot.flashLeft = none ∧ s.upd.worn.contains s.upd.jpos = false) ∧
    Asks { op := 0x0802, cls := 1, issuer := 2, east := false, lenMin := 16, lenMax := 4064, piece := true } (toLe 4 1000 ++ toLe 2 24 ++ zs 34)
      (updAt 1 1024 1000) (fun s p => le p 4 2 = 24 ∧ Fits (reserved p 6 10) ∧ s.stageRefusal 0 = none ∧ le p 0 4 = s.upd.next ∧
      s.upd.next + 24 = s.updTotal) ∧
    Asks { op := 0x0803, cls := 1, issuer := 2, east := false, lenMin := 4, lenMax := 4 } (toLe 4 0) (updAt 2 1024 1024) (fun s p =>
      seqNewer (le p 0 4) s.runningSeq = true ∧ s.armRefusal 0 = none) ∧
    Asks { op := 0x0804, cls := 1, issuer := 2, east := false } [] (updAt 4 1024 0) (fun s _ => s.commitRefusal = none) ∧
    Asks { op := 0x0805, cls := 1, issuer := 2, east := false } [] (updAt 3 1024 0) (fun s _ => s.upd.state = 3) := by
  and_intros <;> decide +kernel

/-! ## Functions, links and aborts -/

/-- `up` with function `f` added. -/
def withFn (fid : Nat) (f : Fn) : State := { up with fns := Tab.set fid f up.fns }
/-- An abort write of generation `g` for VF `t`. -/
def abortWord (g t : Nat) : BitVec 64 := BitVec.ofNat 64 (0xAB07 * 2 ^ 48 + g * 2 ^ 40 + t)
/-- A pass of west for VF 1, which is ABORTING. -/
def passing : State := { withFn 1 { state := .aborting, gen := 3, goal := .none, leftAt := some 0 } with hif := { devState := 1, passW := some [1] } }

theorem witness_Aborts :
    (bits (abortWord 1 0).toNat 48 16 = 0xAB07 ∧ bits (abortWord 1 0).toNat 40 8 = (up.fn 0).gen.toNat ∧ (up.fn 0).state = .active) ∧
    (bits (0 : BitVec 64).toNat 48 16 ≠ 0xAB07) ∧
    (up.isPf 0 = true ∧ 1 = hpOf 0 * 1024 + (abortWord 255 1).toNat % 1024 ∧ (vf1 .active).fidOk 1 = true ∧ (vf1 .active).isPf 1 = false ∧
      (vf1 .active).linkOf 1 = (vf1 .active).linkOf 0 ∧ bits (abortWord 255 1).toNat 48 16 = 0xAB07 ∧
      bits (abortWord 255 1).toNat 40 8 = ((vf1 .active).fn 1).gen.toNat ∧ ((vf1 .active).fn 1).state = .active) ∧
    (up.isPf 0 = true ∧ up.isPf (hpOf 0 * 1024) = true) ∧ (up.isPf 1 = false) ∧
    ((vf1 .aborting).fns.keysWhere (fun fid f => halfOfFid fid == 0 && f.state == .aborting) = [1] ∧ (vf1 .aborting).passOf 0 = none) ∧
    (passing.passOf 0 = some [1] ∧ ((passing.advance 5).enginesFor [1]).any (passing.advance 5).fenced = false ∧
      (passing.fn 1).state = .aborting ∧ (passing.fn 1).goal = .none ∧ (passing.fn 1).across = false) ∧
    (let s := { passing with rings := [(sqKey 4, { fid := 1 })], work := [(sqKey 4, { reading := 2 })],
                             micro := { engines := [(16, { reqs := 1 })] } }
     (s.advance 300000).inPass.filter ((s.advance 300000).engineHolds 16) = [1] ∧ s.fenced 16 = true ∧
     (s.engine 16).fenceAt + 300000 ≤ s.clock.now + 300000 ∧ s.clock.now + 299999 < (s.engine 16).fenceAt + 300000) ∧
    (let s := withFn 1 { state := .quarantine, goal := .active, leftAt := some 0 }
     (s.fn 1).state = .quarantine ∧ (s.fn 1).leftAt = some 0 ∧ 0 + 4000000 ≤ s.clock.now + 4000000 ∧ (s.fn 1).goal = .active ∧ (s.fn 1).across = false ∧
     s.clock.now + 3999999 < 0 + 4000000) := by
  and_intros <;> decide +kernel

/-- VF 1 of link 0 in a state, on a link whose PF has one VF enabled. -/
def vfOn (st : FnState) : State := { vf1 st with links := [(0, { up := true, perst := false, vfEnable := true, numVfs := 1 })] }
/-- A link 0 that trains, of a device whose PF 0 is DISABLED. -/
def trains : State := { up with links := [(0, { perst := false, training := true })], fns := [] }

theorem witness_FunctionResets :
    ((vfOn .active).cfgOn 1 = true ∧ (vfOn .active).isPf 1 = false ∧ ((vfOn .active).fn 1).state = .active ∧ (vfOn .active).openTickets 1 = []) ∧
    ((vfOn .aborted).cfgOn 1 = true ∧ (vfOn .aborted).isPf 1 = false ∧ ((vfOn .aborted).fn 1).state = .aborted ∧ (vfOn .aborted).quarantineOver 1 = true ∧
      ((vfOn .aborted).fn 1).across = false) ∧
    ((vfOn .aborting).cfgOn 1 = true ∧ ((vfOn .aborting).fn 1).state = .aborting ∧ ((vfOn .aborting).fn 1).goal ≠ .disabled) ∧
    ((vfOn .idle).cfgOn 1 = true ∧ ((vfOn .idle).fn 1).state = .idle ∧ (vfOn .quarantine).cfgOn 1 = true ∧ ((vfOn .disabled).fn 1).state = .disabled) ∧
    (up.linkOk 0 = true ∧ up.isPf 0 = true ∧ up.linkOf 0 = 0 ∧ up.cfgOn (pfOfLink 0) = true ∧ (up.fn (pfOfLink 0)).state = .active ∧
      (vf1 .active).linkOf 1 = 0 ∧ pfOfLink 0 < 1) ∧
    (512 ≤ (if up.bif (0 / 2) then 256 else 512) ∧ (up.fn (pfOfLink 0 + 1 + 511)).state = .disabled) ∧
    (let s := { up with links := [(0, { up := true, perst := false, vfEnable := true, numVfs := 9 })] }
     s.linkOk 0 = true ∧ s.cfgOn (pfOfLink 0) = true ∧ (s.link 0).vfEnable = true ∧ 0 < 9 ∧ 9 ≤ (s.link 0).numVfs ∧
     9 ≤ (if s.bif (0 / 2) then 256 else 512)) ∧
    (let s := { up with boot := { stage := .released, step := 8 } }
     s.linkOk 0 = true ∧ s.cfgOn (pfOfLink 0) = false ∧ s.cfgRetry (pfOfLink 0) = true) ∧
    (up.isPf 1 = false ∧ up.cfgOn 1 = false ∧ up.linkOk 1 = false) := by
  and_intros <;> decide +kernel

theorem witness_LinkEvents :
    ((vf1 .active).linkOf 1 = 0 ∧ ((vf1 .active).fn 1).state ≠ .disabled ∧ up.linkOf 1024 ≠ 0 ∧ ((0 : LinkId).val ≠ 1)) ∧
    ((State.reset.link 0).perst = true ∧ (trains.link 0).perst = false ∧ (trains.link 0).up = false) ∧
    ((trains.link 0).training = true ∧ trains.linkOk 0 = true ∧ trains.bif (0 / 2) = false ∧ trains.hif.devState = 1 ∧
     (trains.fn (pfOfLink 0)).state = .disabled ∧ (trains.fn (pfOfLink 0)).across = false ∧ trains.quarantineOver (pfOfLink 0) = true) ∧
    ((let s := { trains with hif := { devState := 2 } }
      (s.link 0).training = true ∧ s.linkMode 0 3 16 = true ∧ s.hif.devState ≠ 1 ∧ s.hif.devState ≠ 3) ∧
     trains.linkMode 0 4 16 = false ∧ (up.link 0).training = false) := by
  and_intros <;> decide +kernel

/-- `up` with a read of function 0 outstanding under tag 5. -/
def reading5 (o : Bool) : State := { up with links := [(0, { up := true, perst := false, reads := [(5, { fid := 0, use := .image, orphan := o })] })] }

theorem witness_HostReadEnds :
    Tab.find 5 ((reading5 true).link 0).reads = some { fid := 0, use := .image, orphan := true } ∧
    Tab.find 5 ((reading5 false).link 0).reads = some { fid := 0, use := .image } ∧ ((reading5 false).fn 0).state = .active ∧
    ((reading5 false).link 0).readQ = [] ∧ ((reading5 true).link 0).readQ = [] ∧ Tab.find 6 ((reading5 true).link 0).reads = none ∧ (5 : BitVec 14).toNat < 4096 ∧ 0 + ((reading5 false).link 0).cplTimeout ≤ (reading5 false).clock.now + 10000000 ∧
    (reading5 false).clock.now + 9999999 < 0 + ((reading5 false).link 0).cplTimeout ∧
    (let s := { up with links := [(0, { up := true, perst := false, reads := [(5, { fid := 0, use := .image })], readQ := [{ fid := 0, use := .image }] })] }
     Tab.find 5 (s.link 0).reads = some { fid := 0, use := .image } ∧ (s.link 0).readQ = [{ fid := 0, use := .image }]) := by
  and_intros <;> decide +kernel

/-! ## Mailbox events and registers -/

/-- `up` with a request in the area of function 0 that the device has not taken. -/
def inArea (op : Nat) : State := up.modFn 0 (fun f => { f with area := Mem.write 0 [] 0 (toLe 2 op ++ [0, 0, 1]) })
/-- `up` with a pending ticket. -/
def pendingT (w : Work) : State := { up with tickets := [(ticketKey 0 0x101, { fid := 0, opcode := 0x0101, cookie := 5, eq := none, autoRel := false, work := w })] }

theorem witness_MailboxAndTickets :
    (((inArea 1).fn 0).state = .active ∧ ((inArea 1).fn 0).owner = false ∧ (copyReq ((inArea 1).fn 0) 0 0 false).opcode ∈ knownOpcodes) ∧
    (((ask 1 [] up).fn 0).owner = true) ∧ ((up.fn 1).state ≠ .active) ∧
    (let s := up.modFn 0 (fun f => { f with owner := true, req := some { rq 1 [] with refused := true } })
     (s.fn 0).req = some { rq 1 [] with refused := true }) ∧
    ((up.cpHalf 0).running = true ∧ (up.cpHalf 0).lastBeat + 2000000 ≤ up.clock.now + 2000000) ∧
    (let s := (pendingT .powerCap).modCp 0 (fun _ => { unavailable := true, running := false })
     (s.cpHalf 0).running = false ∧ (s.cpHalf 0).unavailable = true ∧ s.boot.stage = .ready ∧
     (Tab.find (ticketKey 0 0x101) s.tickets).map (fun t => (t.done, t.autoRel)) = some (false, false) ∧ b2n (s.onShadow 0) = 0) ∧
    ((Tab.find (ticketKey 0 (0x101 : BitVec 32).toNat) (pendingT (.fnCreate 0 true {})).tickets).map (fun t => (t.done, t.eq)) = some (false, none) ∧
      ((pendingT (.fnCreate 0 true {})).fn 0).state = .active ∧ ((pendingT (.fnCreate 0 true {})).cpOf 0).running = true ∧ ((pendingT (.fnCreate 0 true {})).cpOf 0).halted = false) ∧
    ((pendingT .powerCap).power.capWait = none ∧ ((pendingT .powerCap).cpOf 0).running = true) ∧
    (let s := { epThere with tickets := (pendingT (.epDestroy 0)).tickets }
     (s.ep 0).isSome = true ∧ s.epBusy 0 = false ∧ (s.cpOf 0).running = true) ∧
    (let s := (pendingT .powerCap).modCp 0 (fun _ => { unavailable := true, running := false })
     (Tab.find (ticketKey 0 0x101) s.tickets).isSome = true ∧ (s.cpOf 0).running = false) ∧
    ((up.cpOf 0).unavailable = false ∧ (copyReq ((inArea 2).fn 0) 0 0 false).opcode ∈ knownOpcodes ∧ (copyReq ((inArea 0x0900).fn 0) 0 0 false).opcode ∉ knownOpcodes ∧
     (inArea 0x0900).mailboxHeld 0 = false) := by
  and_intros <;> decide +kernel

theorem witness_RegisterAccesses :
    up.barOn 0 = true ∧ up.isPf 0 = true ∧ (4092 : BitVec 32).toNat < 4093 ∧ (up.fn 0).owner = false ∧ up.barOn 1 = false ∧ up.cfgOn 0 = true := by
  and_intros <;> decide +kernel

/-! ## Rings -/

/-- `up` with an SQ 3 (CQ 2, EQ 1) as `f` leaves it, and the SQ's work. -/
def sqState (f : Ring → Ring) (w : RingWork) : State := { up with
  rings := [(sqKey 3, f { fid := 0, gen := 1, bind := 2, ringAddr := 0x1000, idxAddr := 0x800, weight := 1, burst := 8, pipe := 1 }),
            (cqKey 2, { fid := 0, gen := 1, bind := 1, ringAddr := 0x2000, idxAddr := 0x840 }),
            (eqKey 1, { fid := 0, gen := 1, bind := 0, ringAddr := 0x3000, idxAddr := 0x880 })]
  work := [(sqKey 3, w)] }

theorem witness_RingDoorbells :
    (let s := sqState id {}
     (s.ring (ringKey 0 3)).map (fun r => (r.fid, r.state, r.readOut)) = some (0, .running, false) ∧
     (s.ring (ringKey 1 2)).isSome = true ∧ (s.ring (ringKey 2 1)).isSome = true ∧ (s.fn 0).state = .active ∧ (s.link (s.linkOf 0)).readQ = [] ∧
     (s.link (s.linkOf 0)).freeTag = some 0) ∧
    ((sqState (fun r => { r with state := .error }) {}).ring (ringKey 0 3)).map (·.state) = some .error ∧
    ((sqState (fun r => { r with readOut := true }) {}).ring (ringKey 0 3)).map (·.readOut) = some true ∧
    up.ring (ringKey 2 5) = none := by
  and_intros <;> decide +kernel

theorem witness_IndexBlocksAndFetch :
    (let s := sqState (fun r => { r with readOut := true, seen := 0xFFFFFFF0, dev := 0xFFFFFFF0 }) {}
     (s.ring (sqKey 3)).map (fun r => (r.readOut, r.state, r.dbPending, (0 - r.dev).toNat, (0 - r.seen).toNat, r.size)) =
       some (true, .running, false, 16, 16, 16) ∧
     (s.ring (ringKey (kindCode .sq) 3)).map (fun r => decide (r.size < (1 - r.dev).toNat)) = some true) ∧
    (let s := (sqState id {}).modRing (eqKey 1) (fun r => { r with armFirst := some 0, modUsec := 3 })
     (s.ring (eqKey 1)).map (fun r => (r.armed, r.armFirst, r.modUsec)) = some (true, some 0, 3) ∧ 0 + 3 * 1000 ≤ (s.clock.advance 3000).dev) ∧
    (let s := sqState (fun r => { r with seen := 4 }) {}
     s.sqsOfEngine 3 = [3] ∧ (s.sqsOfEngine 3).filter (fun n => s.fetchRoom n != 0) = [3] ∧
     (s.ring (sqKey 3)).map (fun r => (r.weight, r.arbNext)) = some (1, none)) ∧
    (let s := sqState (fun r => { r with arbNext := some (5, 7) }) {}
     s.sqsOfEngine 3 = [3] ∧ (s.ring (sqKey 3)).map (·.arbNext) = some (some (5, 7)) ∧ (s.workOf (sqKey 3)).given = false) := by
  and_intros <;> decide +kernel

/-- A descriptor of an opcode with LENGTH `n`. -/
def desc (op n : Nat) : Bytes := toLe 4 op ++ toLe 4 n ++ toLe 8 0x9000 ++ zs 32 ++ toLe 8 77 ++ zs 8

theorem witness_Descriptors :
    (let s := sqState id { reading := 1 }
     (s.ring (sqKey 3)).map (fun r => (r.use, descError r (desc 1 60) [])) = some (.packet, none) ∧ (s.workOf (sqKey 3)).reading ≠ 0 ∧
     (s.ring (sqKey 3)).map (fun r => descError r (desc 1 13) []) = some (some 3)) ∧
    (let s := sqState id { fetched := [{ index := 0, bytes := desc 1 60 }] }
     (s.nextDesc 3).map (fun d => (dOpcode d.bytes, d.waits)) = some (1, false)) ∧
    (let s := sqState id { fetched := [{ index := 0, bytes := desc 2 2048 }] }
     (s.nextDesc 3).map (fun d => dOpcode d.bytes) = some 2 ∧ (s.ring (sqKey 3)).map (·.destroying) = some false ∧
     ((s.modRing (sqKey 3) (fun r => { r with destroying := true })).ring (sqKey 3)).map (·.destroying) = some true) ∧
    (let s := sqState id { fetched := [{ index := 0, bytes := desc 0x0F 0 }] }
     (s.ring (sqKey 3)).map (·.use) = some .packet ∧ (s.workOf (sqKey 3)).posted = [] ∧ (s.workOf (sqKey 3)).filled = [] ∧ (s.workOf (sqKey 3)).fetched.map (·.begun) = [false]) := by
  and_intros <;> decide +kernel

/-- A packet of `n` bytes. -/
def pkt (n : Nat) : Pkt := { frame := zs n, hv := zs 256 }

/-- `sqState` with a completion due for CQ 2, the CQ and its work as `f` and `g` leave them. -/
def cplState (f : Ring → Ring) (g : RingWork → RingWork) : State :=
  { (sqState id {}).modRing (cqKey 2) f with work := [(cqKey 2, g { due := [⟨zs 32, 3, none, false⟩] })] }

theorem witness_CompletionWrites :
    (let s := cplState id id
     (s.ring (cqKey 2)).map (fun c => (c.full, c.state)) = some (false, .running) ∧
     pickDue 0 (s.workOf (cqKey 2)).due = some (⟨zs 32, 3, none, false⟩, []) ∧
     (zs 32).length = 32 ∧ s.cqHolding 2 = false ∧ (s.fn 0).state = .active) ∧
    (let s := cplState (fun c => { c with dev := 16 }) id
     (s.ring (cqKey 2)).map (fun c => (c.full, c.state, c.readOut)) = some (true, .running, false) ∧ (s.workOf (cqKey 2)).reread = false ∧
     s.cqHolding 2 = false) ∧
    (let s := cplState (fun c => { c with dev := 16 }) (fun w => { w with reread := true })
     (s.ring (cqKey 2)).map (fun c => (c.full, c.state, c.readOut)) = some (true, .running, false) ∧ (s.workOf (cqKey 2)).reread = true ∧
     s.cqHolding 2 = false ∧ (s.ring (sqKey 3)).map (fun q => (q.bind, q.state)) = some (2, .running)) ∧
    (let d : Nat → Nat → Cpl := fun op sq => ⟨cplBytes 0 0 0 0 0 op sq 0 0, sq, none, false⟩
     pickDue 1 [d 1 3, d 1 4] = some (d 1 4, [d 1 3]) ∧ pickDue 1 [d 1 3, d 1 3] = some (d 1 3, [d 1 3]) ∧
     pickDue 1 [d 0x10 3, d 0x11 3] = some (d 0x11 3, [d 0x10 3]) ∧ pickDue 1 [d 0x10 3, d 0x0F 3] = some (d 0x10 3, [d 0x0F 3])) := by
  and_intros <;> decide +kernel

/-- A receive ring with one buffer of `n` bytes posted and a packet of 100 bytes that waits. -/
def rxState (n : Nat) : State := sqState (fun r => { r with role := .receive }) { posted := [⟨0, 77, 0x9000, n, false⟩], rxWait := [pkt 100] }

theorem witness_ReceiveDelivery :
    (let s := rxState 2048
     (s.ring (sqKey 3)).map (fun r => (r.role, r.state)) = some (.receive, .running) ∧ (pkt 100).edited.length ≤ 2048 ∧
     (pkt 100).ask.tstamp = none ∧ (s.workOf (sqKey 3)).fetched = [] ∧ (s.workOf (sqKey 3)).filled = [] ∧
     (s.ring (cqKey 2)).map (·.state) = some .running ∧ (s.fn 0).state = .active) ∧
    (let s := rxState 99
     (s.workOf (sqKey 3)).posted = [⟨0, 77, 0x9000, 99, false⟩] ∧ 99 < (pkt 100).edited.length) := by
  and_intros <;> decide +kernel

/-! ## Ports and time -/

/-- `up` with LP 8 in a state and something in its FIFO. -/
def lpState (st : LpState) (fs : List RxFrame) : State := { up with net := { lps := [(8, { state := st, lanes := List.range 8, fifo := fs })], pipes := [(1, { released := true })] } }

theorem witness_PortFrames :
    (let s := lpState .up []
     s.lpExists 8 = true ∧ (s.lp 8).state = .up ∧ (s.lp 9).state ≠ .up ∧ (zs 63).length < 64 ∧ 9600 < (zs 9601).length ∧ be (zs 64) 12 2 ≠ 0x8808 ∧
     be (zs 12 ++ [0x88, 0x08] ++ zs 50) 12 2 = 0x8808 ∧ s.passTakes 8 (zs 60) = false ∧
     (s.pipe 1).hdrs = [] ∧ s.fifoIdle 1 = true) ∧
    (let s := (lpState .up []).modEgq 64 (fun q => { q with queue := [pkt 50] })
     ((s.fillBucket 8).pickQueue 8).map (fun x => (x.1, x.2.1, (x.2.2.egq (8 * 8 + x.1)).queue)) = some (0, false, [pkt 50])) := by
  and_intros <;> decide +kernel

theorem witness_LinkTrainingAndFaults :
    (let s := lpState .training []
     (s.lp 8).state = .training ∧ s.sdLost 8 = false ∧ attributed (s.lp 8).lanes [] [] = none ∧ attributed (s.lp 8).lanes [7] [] = some 7 ∧
     (s.lp 8).lanes.Nodup ∧ (s.lane (8 * (8 / 8) + 7)).fails < 2 ∧ (s.bucketNow (resId 1 15)).level + 1 < resThreshold (resId 1 15) ∧
     (s.lp 8).lanes.filter [7].contains = [7]) ∧
    (let s := (lpState .training []).modLane 15 (fun l => { l with fails := 2 })
     (s.lane 15).fails = 2 ∧ s.sdLost 8 = false ∧ (s.np (8 / 8)).pend = none) ∧
    (let s := lpState .up []
     (s.lp 8).state = .up ∧ (s.np (8 / 8)).pend = none ∧ (s.pipe (8 / 8)).released = true ∧ attributed (s.lp 8).lanes [3] [] = some 3 ∧
     (s.bucketNow (resId 1 11)).level + 1 < resThreshold (resId 1 11) ∧ usableLanes (s.laneRetired (8 / 8)) 4 (s.lp 8).lanes ≠ []) ∧
    ((lpState .down []).lp 8).state ≠ .up := by
  and_intros <;> decide +kernel

theorem witness_DeviceTime :
    (up.clock.freqPpb = 0 ∧ up.clock.slew = 0 ∧ 0 ≤ up.clock.sub ∧ up.clock.sub < 1000000000) ∧
    (let c : Clock := ({ up.clock with synced := true } : Clock).advance 4000000000
     c.synced = true ∧ c.holdover = false ∧ c.lastAdjust + 4000000000 ≤ c.dev) ∧
    (up.advance 5).clock.synced = false := by
  and_intros <;> decide +kernel

/-! ## Pipelines, spread groups -/

/-- An Ethernet frame of an unknown EtherType, and a runt. -/
def eth : Bytes := [2, 0, 0, 0, 0, 1, 2, 0, 0, 0, 0, 2, 0x12, 0x34] ++ zs 46
/-- `up` with pipeline 1 as `f` leaves it. -/
def pipeState (f : Pipe → Pipe) : State :=
  { lpState .up [] with net := { (lpState .up []).net with pipes := [(1, f { released := true, hdrs := [(8, ⟨eth, 0⟩)] })] } }

theorem witness_IngressPackets :
    (let s := pipeState id
     (s.pipe 1).released = true ∧ (s.pipe 1).deep = false ∧ (s.pipe 1).deepRun = [] ∧ (s.pipe 1).hdrs = [(8, ⟨eth, 0⟩)] ∧ s.fifoIdle 1 = true ∧
     (s.takeHeader 1).map (fun x => (x.1.frame, x.1.half)) = some (eth, 0) ∧ s.apart = false ∧ (s.pipe 2).released = false) ∧
    (let s := (pipeState (fun q => { q with hdrs := List.replicate 32 (8, ⟨eth, 0⟩) })).modLp 15 (fun l => { l with fifo := [⟨eth, 7⟩] })
     (s.pipe 1).hdrs = (8, ⟨eth, 0⟩) :: List.replicate 31 (8, ⟨eth, 0⟩) ∧ (s.lp (8 * 1 + 7)).fifo = [⟨eth, 7⟩] ∧
     ∀ j, j < 7 → (s.lp (8 * 1 + j)).fifo = []) ∧
    (let q : Pipe := { inj := [pkt 60], second := [pkt 61], wrr := 3 }
     q.hdrs = [] ∧ q.inj7 = [] ∧ q.inj = [pkt 60] ∧ q.second = [pkt 61] ∧ 3 ≤ q.wrr) ∧
    ((((up.pipe 1).cfgOf 0).mal).toNat % 4 = 0 ∧ (pkt 60).ask.tstamp = none ∧
     ((((up.modPipe 1 (fun q => { q with malAct := 125 })).pipe 1).cfgOf 0).mal).toNat % 4 = 1) := by
  and_intros <;> decide +kernel
/-- A packet whose program reads frame byte 12, stores it as DEEP_CODE and accepts; one whose program runs for ever; one that reads past byte 511. -/
def deepAcc : DeepRun := { pkt := { pkt 60 with frame := eth }, prog := { w := 3, ops := [.load 0 1 0 12, .storeCode 1, .accept] } }
def deepLoop : DeepRun := { pkt := pkt 61, prog := { w := 4000, ops := [.branch .eq 0 0 0] } }
def deepPast : DeepRun := { pkt := pkt 60, prog := { w := 9, ops := [.load 2 1 0 509] } }

theorem witness_DeepParsing :
    (let s := pipeState (fun q => { q with deepRun := [deepAcc] })
     (s.pipe 1).deepRun = [deepAcc] ∧ deepAcc.done = none ∧
     (deepProgram deepAcc.prog deepAcc.pkt.hv deepAcc.pkt.frame deepAcc.prog.w {}).1 = none ∧
     (deepProgram deepAcc.prog deepAcc.pkt.hv deepAcc.pkt.frame deepAcc.prog.w {}).2.code = 0x12) ∧
    (deepProgram deepPast.prog deepPast.pkt.hv deepPast.pkt.frame deepPast.prog.w {}).1 = some 0x3F ∧
    (deepProgram { deepLoop.prog with w := 5 } deepLoop.pkt.hv deepLoop.pkt.frame 5 {}).1 = some 0x3E ∧
    (let q := (pipeState (fun q => { q with deepRun := [deepLoop, deepAcc] })).pipe 1
     q.deepRun = [deepLoop, deepAcc] ∧ deepLoop.done = none ∧ [deepAcc][0]? = some deepAcc) ∧
    deepPast.prog.ops[1]? = none ∧
    (let p : DeepProg := { w := 9, ops := [.branch .eq 0 0 1] }
     p.ops[(0 : Nat)]? = some (.branch .eq 0 0 1) ∧ p.ops.length ≤ 1 ∧ (deepProgram p (zs 256) (zs 60) 1 {}).1 = some 0x3F) := by
  and_intros <;> decide +kernel

theorem witness_EgressPasses :
    (let s := pipeState (fun q => { q with egIn := [(8, pkt 60)] })
     (s.pipe 1).egIn = [(8, pkt 60)] ∧ s.tcam 1 true (keyBytes (pkt 60) 8 0x1FFF true) = none ∧ (s.lp 8).state = .up ∧ (s.lp 9).state ≠ .up ∧
     (s.egq (8 * 8 + (pkt 60).queue)).cells (pkt 60).half + cellsOf (pkt 60).frame.length ≤ colourLimit (pkt 60).colour (s.egShare 8 (pkt 60).queue)) ∧
    (let r : Rule := { rule1 with egress := true, mask := 2 }
     let s0 := pipeState (fun q => { q with egIn := [(8, pkt 60)] })
     let s := { s0 with net := { s0.net with rules := [r] } }
     s.tcam 1 true (keyBytes (pkt 60) 8 0x1FFF true) = some r ∧ aVerb r.action = 2) := by
  and_intros <;> decide +kernel

/-- A learn request of a new address, and one of an address that has moved to LP 9. -/
def learn (m : Bool) : LearnReq := { moved := m, keyType := 1, keyId := 0, mac := [2, 0, 0, 0, 0, 9], lp := 9 }

/-- An entry of the address that was learnt, in the first way of its first bucket. -/
def agingWays (q : Pipe) : Tab EmEntry := [((q.buckets (emKeyBytes (learnedEntry (learn true)))).1 * 4, { bytes := learnedEntry (learn true) })]

theorem witness_TablesAndSpreading :
    (let s := pipeState (fun q => { q with learnQ := [learn false] })
     (s.pipe 1).learnQ = [learn false] ∧ (s.pipe 1).find (emKeyBytes (learnedEntry (learn false))) = none ∧
     ((s.pipe 1).freeWay ((s.pipe 1).buckets (emKeyBytes (learnedEntry (learn false)))).1).isSome = true) ∧
    (let s := pipeState (fun q => { q with learnQ := [learn true], ways := [(((q.buckets (emKeyBytes (learnedEntry (learn true)))).1 * 4), { bytes := learnedEntry { learn true with lp := 8 } })] })
     ((s.pipe 1).find (emKeyBytes (learnedEntry (learn true)))).map (fun x => (emStatic x.2.bytes, emKind x.2.bytes, emDest x.2.bytes)) =
       some (false, 1, 8) ∧ (s.pipe 1).stash = []) ∧
    (let s := pipeState (fun q => { q with agingMs := 10, agingDue := 5, ways := agingWays q })
     (s.pipe 1).agingMs ≠ 0 ∧ (s.pipe 1).agingDue ≤ (s.clock.advance 5).dev ∧ (s.pipe 1).stash = [] ∧ (s.clock.advance 4).dev < (s.pipe 1).agingDue ∧
     Tab.rising (s.pipe 1).ways = true ∧ (s.pipe 1).ways.length = 1 ∧
     ∀ e ∈ (s.pipe 1).ways, (s.pipe 1).find (emKeyBytes e.2.bytes) = some (.way e.1, e.2)) ∧
    (let s := { up with net := { spread := [(1023, { defined := true, threads := [16], waitq := [pkt 60] })] }, off := { cores := [(1, { mode := 2 })], threads := [(16, { state := .running })] } }
     (s.spread 1023).waitq = [pkt 60] ∧ (s.spread 1023).threads = [16] ∧ s.threadLive 16 = true ∧ s.apart = false ∧ (s.thread 16).queue.length < 8) ∧
    (let s := { up with off := { cores := [(1, { mode := 2 })], threads := [(16, { state := .running, queue := List.replicate 8 { pkt := pkt 60 } })] } }
     s.threadLive 16 = true ∧ 8 ≤ (s.thread 16).queue.length) ∧
    (let x : Spread := { threads := [16], rel := 4, next := 6, out := 2, held := [(5, .forward (pkt 60) 0)] }
     x.held = [(x.rel + 1, .forward (pkt 60) 0)] ∧ vKind 0 = 0 ∧ (pkt 60).ask.tstamp = none ∧
     ∀ e ∈ ({ x with held := [(5, .discard)] } : Spread).held, e.2 = .discard) ∧
    (let s := { pipeState id with net := { (pipeState id).net with rules := [rule1], flips := [(0, { rule := rule1.id, bit := 5 })] } }
     s.flipsOf 0 ≠ []) := by
  and_intros <;> decide +kernel

/-! ## The transport -/

/-- A header from endpoint 2 of node 8 to endpoint 0 of node 9. -/
def lrdH (type len : Nat) : LrdHdr :=
  { type := type, td := 5, epoch := 1, dst := 9, srcEp := 2, srcGen := 1, dstEp := 0, dstGen := 1, msg := 7, msgTs := 0, msgLen := len }
/-- A packet as sequencer 0 receives it, with its ciphertext and tag given. -/
def wire (type len : Nat) (ext ct tag : Bytes) : Pkt :=
  lrdPkt 0 0 (lrdFrame (zs 6) (zs 12) 8 9 0 ((lrdH type len).bytes 8 ct.length 0 1 0) (ext ++ ct ++ tag)) 0

/-- Eight bytes and their ciphertext under the pair key of nodes 8 and 9, domain 5, epoch 1. -/
def pay8 : Bytes := [1, 2, 3, 4, 5, 6, 7, 8]
def ct8 : Bytes := [113, 221, 34, 69, 117, 231, 184, 139]
/-- A WRITE of 8 bytes to 0x2000, a READ_REQ for them, a READ_RESP, an ACK with DONE and one without, a NAK BUSY and one of code 2, a RELEASE. -/
def pktW : Pkt := wire 1 8 (toBe 8 0x2000 ++ toBe 4 0x401 ++ zs 4) ct8 [247, 34, 59, 210, 13, 47, 146, 52, 32, 40, 245, 50, 152, 42, 93, 98]
def pktRq : Pkt := wire 2 8 (toBe 8 0x2000 ++ toBe 4 0x401 ++ [0, 0, 0, 1]) []
  [21, 184, 157, 175, 199, 90, 68, 138, 239, 238, 99, 12, 236, 21, 17, 164]
def pktRs : Pkt := wire 3 8 (zs 16) ct8 [36, 73, 190, 72, 86, 92, 140, 75, 243, 28, 199, 125, 156, 54, 136, 168]
def pktAck1 : Pkt := wire 4 0 (zs 12 ++ [0, 3, 1, 0] ++ zs 32) [] [6, 139, 15, 210, 35, 159, 192, 13, 27, 63, 202, 96, 26, 195, 170, 176]
def pktAck0 : Pkt := wire 4 0 (zs 12 ++ [0, 3, 0, 0] ++ zs 32) [] [138, 127, 169, 159, 86, 201, 1, 209, 189, 48, 103, 82, 11, 103, 50, 141]
def pktNak1 : Pkt := wire 5 0 (zs 8 ++ [1, 0, 0, 40] ++ zs 4) [] [94, 97, 248, 111, 228, 148, 210, 235, 107, 184, 147, 96, 228, 80, 163, 131]
def pktNak2 : Pkt := wire 5 0 (zs 8 ++ [2, 0, 0, 40] ++ zs 4) [] [246, 1, 87, 15, 170, 58, 91, 167, 150, 202, 99, 160, 188, 160, 52, 129]
def pktRel : Pkt := wire 6 0 (zs 16) [] [75, 75, 135, 243, 8, 48, 48, 212, 186, 240, 82, 248, 211, 184, 177, 2]

/-- A WRITE (op 0x10) or READ (op 0x11) of 8 bytes of endpoint 0 to node 8 that is under way. -/
def msg7 (op : Nat) : Msg :=
  { fid := 0, sq := 3, index := 0, op := op, user := 77, len := 8, node := 8, dstEp := 2, dstGen := 1, raddr := 0x2000, rkey := 0x401, imm := 0
    life := 1500000, td := 5, cls := 0, seq := 0, data := pay8, frags := [(0x9000, 8)], state := .awaiting, next := 1, msgTs := some 0
    pkts := [(0, { attempt := 1, wait := false })] }
/-- The device of `epThere` with LRD running, and message 7 under way. -/
def lrdUp (op : Nat) : State := { epThere with
  clock := { synced := true }
  lrd := { epThere.lrd with saltW := some 1, saltE := some 1, epLast := [(0, 0)], msgs := [(msgKey 0 7, msg7 op)]
                            keysW := [⟨5, 1, 8, 9, 0⟩, ⟨5, 1, 9, 8, 0⟩]
                            paths := [(pathKey 0 8, { rate := 2000000000, line := 1600000000000, turn := [msgKey 0 7] })] } }
/-- The same with a packet at the front of sequencer 0's queue, and with one whose tag has verified. -/
def arriveIn (op : Nat) (p : Pkt) : State := { lrdUp op with net := { seqIn := [(0, [p])] } }
def arrive (op : Nat) (p : Pkt) (pay : Bytes := []) : State := { lrdUp op with net := { opened := [(0, [(p, pay)])] } }
def tk : TdKey := ⟨1, zs 32⟩

/-- The pair key of these packets, its round keys, and the hash key of GCM under it. -/
def pairK : Bytes := toBe 32 0x8bc08839bb30f29369b3f12a92003183e90a91fa9b97d1b6e1401959e8d3fcd9
def roundKs : List (List Nat) :=
  ([0x8bc08839bb30f29369b3f12a92003183, 0xe90a91fa9b97d1b6e1401959e8d3fcd9, 0xec70bda257404f313ef3be1bacf38f98,
    0x7807e2bce390330a02d02a53ea03d68a, 0x9586c325c2c68c14fc35320f50c6bd97, 0x2bb39834c823ab3ecaf3816d20f057e7,
    0x1ddd5792df1bdb86232ee98973e8541e, 0xa428b8466c0b1378a6f892158608c5f2, 0x257bded6fa600550d94eecd9aaa6b8c7,
    0x080cd4806407c7f8c2ff55ed44f7901f, 0x5d1b1ecda77b1b9d7e35f744d4934f83, 0x40d0506c24d79794e628c279a2df5266,
    0xe31b2df74460366a3a55c12eeec68ead, 0x686449f94cb3de6daa9b1c1408444e72, 0xb8346dc7fc545badc6019a8328c7142e] : List Nat).map (fun k => (toBe 16 k).map (·.toNat))
theorem pairKey_eq : pairKey tk.key 5 1 8 9 = pairK := by decide +kernel
theorem roundKs_eq : aesKeys pairK = roundKs := by decide +kernel
theorem hashKey_eq : beNat (aesEnc roundKs (List.replicate 16 0)) = 0xcf29d758ae7679b6471921ca1f658d81 := by decide +kernel
theorem test_lrd_open : aeadOpen 1 (pairKey tk.key 5 1 8 9) (slice (lrdBytes pktW) 52 4 ++ slice (lrdBytes pktW) 56 8)
    (slice (lrdBytes pktW) 0 (64 + lrdExtLen (lrdBytes pktW))) (lrdText (lrdBytes pktW)) (lrdTag (lrdBytes pktW)) = (pay8, true) := by
  rw [pairKey_eq, aeadOpen, if_neg (by decide), roundKs_eq]
  simp only [gcmTag, hashKey_eq]
  decide +kernel

/-- A record of message 7 of node 8, with the packets listed as received. -/
def rec7 (p : Pkt) (st : RecState) (got : List Nat) : Rec :=
  { reply := replyOf 0 p (lrdBytes p), state := st, created := 0, len := 8, notify := false, imm := 0, raddr := 0x2000, got := got, firstAt := some 0 }
/-- The state with records of west. -/
def withRecs (rs : List Rec) (s : State) : State := s.modLrd (fun l => { l with recsW := rs })
/-- The state with the context of endpoint 0 off chip. -/
def offChip (f : Bool) (s : State) : State := s.modEp 0 (fun e => { e with onChip := false, fetching := f })

/-- A WRITE of 8 bytes to node 8. -/
def wr8 : Bytes := putBytes (desc 0x10 8) 16 (toLe 4 8)
/-- A request of SQ 3 whose descriptor has been read, with the endpoint's next MSG_ID. -/
def fetches (id : Nat) : State := ({ lrdUp 0x10 with work := [(sqKey 3, { reading := 1 })] } : State).modEp 0 (fun e => { e with nextMsg := id })
/-- Message 7, QUEUED for a node, whose source has been read. -/
def queued7 (node : Nat) : State := ({ lrdUp 0x10 with
  work := [(sqKey 3, { fetched := [{ index := 0, bytes := desc 0x10 8, msg := some (0, 7) }] })] } : State).setMsg (msgKey 0 7)
    { msg7 0x10 with node := node, state := .queued, pkts := [], next := 0, msgTs := none }

theorem witness_WritesOfMessages :
    (let s := fetches 8
     (s.ring (sqKey 3)).map (fun r => (r.use, descError r wr8 [])) = some (.lrd, none) ∧ (s.workOf (sqKey 3)).reading ≠ 0 ∧
     dOpcode wr8 ≠ 0x0F ∧ (s.epOfSq 3).map (fun e => (e.1, e.2.destroying, e.2.nextMsg)) = some (0, false, 8) ∧
     (s.epOfSq 3).map (·.2) = s.ep 0) ∧
    ((fetches 0x1000000000000).epOfSq 3).map (fun e => (e.1, e.2.destroying, decide (0xFFFFFFFFFFFF < e.2.nextMsg))) = some (0, false, true) ∧
    (let s := queued7 8
     (s.ring (sqKey 3)).map (·.use) = some .lrd ∧ (s.nextDesc 3).map (fun d => (dOpcode d.bytes, d.msg)) = some (0x10, some (0, 7)) ∧
     (s.msg (msgKey 0 7)).map (fun m => (m.state, m.node, m.half)) = some (.queued, 8, 0) ∧ 8 ≠ s.lrd.nodeId ∧ s.apart = false ∧
     s.routeTo 0 (slice s.sets.lrdPrefix 0 12 ++ toBe 4 8) = none) ∧
    (let s := (queued7 9).modLrd (fun l => { l with keysW := [⟨5, 1, 9, 9, 0⟩] })
     (s.msg (msgKey 0 7)).map (fun m => (m.state, m.node, m.half, m.td)) = some (.queued, s.lrd.nodeId, 0, 5) ∧ s.apart = false ∧
     (s.td 0 5).sending = some tk ∧ (s.msg (msgKey 0 7)).map (fun m => s.hasPair 0 (s.pairOf m tk.epoch)) = some true) ∧
    (let s := arriveIn 0x10 pktW
     let b := lrdBytes pktW
     s.net.opened.getD 0 [] = [] ∧ s.net.seqIn.getD 0 [] = [pktW] ∧ lrdType b = 1 ∧ s.seqCredit 0 = true ∧ pktW.past = false ∧
     (match s.rxPre 0 pktW b with | .pass t => t == tk | _ => false) = true ∧ (s.ep (lrdDstEp b)).map (·.onChip) = some true ∧
     (s.modLrd (fun l => { l with saltW := none })).lrdRuns (halfOfPipe 0) = false) ∧
    (let s := arrive 0x10 pktW pay8
     let b := lrdBytes pktW
     Taken s 0 pktW b pay8 ∧ lrdType b = 1 ∧ s.epJudge b = none ∧ s.rec_ 0 (replyOf 0 pktW b) = none ∧
     s.guardJudge b = none ∧ (s.recs 0).length < 4194304 ∧ lrdNotify b = false ∧ lrdLen b = 8 ∧
     (s.ep (lrdDstEp b)).map (fun e => s.writeJudge (lrdDstEp b) e b) = some none) ∧
    (let s := withRecs [rec7 pktW .receiving [0]] (arrive 0x10 pktW pay8)
     Taken s 0 pktW (lrdBytes pktW) pay8 ∧ (s.ep (lrdDstEp (lrdBytes pktW))).isSome = true ∧ s.epJudge (lrdBytes pktW) = none ∧
     (s.rec_ 0 (replyOf 0 pktW (lrdBytes pktW))).map (fun x => (x.state, x.got)) = some (.receiving, [lrdIdx (lrdBytes pktW)])) ∧
    (let s := { arrive 0x10 pktW pay8 with rel := { split := true }, net := { opened := [(8, [(pktW, pay8)])] } }
     s.net.opened.getD 8 [] = [(pktW, pay8)] ∧ lrdType (lrdBytes pktW) = 1 ∧ s.lrdAcross 8 (lrdBytes pktW) = true) := by
  and_intros <;> decide +kernel

/-- `lrdUp` with the packet of message 7 waiting in the pacer. -/
def paced : State := (lrdUp 0x10).setMsg (msgKey 0 7) { msg7 0x10 with pkts := [(0, {})], state := .sending }

theorem witness_PathsAndPacing :
    (let s := paced
     s.joinPath (pathKey 0 8) = s ∧ (s.path (pathKey 0 8)).map (fun q => ((q.fill 0).turn, (q.fill 0).bucket)) = some ([msgKey 0 7], 131072000000000) ∧
     (s.msg (msgKey 0 7)).map (fun m => (m.pkts.find? (fun x => x.2.wait), m.state)) = some (some (0, {}), .sending) ∧
     (s.msg (msgKey 0 7)).map (fun m => (m.deadline, m.td, m.seq)) = some (1500000, 5, 0) ∧
     (s.msg (msgKey 0 7)).map (fun m => m.body 0 1) = some (toBe 8 0x2000 ++ toBe 4 0x401 ++ zs 4, pay8) ∧
     s.ep (epOfMsg (msgKey 0 7)) = some { fid := 0, gen := 1, td := 5, sq := 3, cq := 2, limit := 16, ord := 0 } ∧
     (s.td 0 5).sending = some tk ∧ s.hasPair 0 (s.pairOf (msg7 0x10) 1) = true ∧ s.tdSent 5 < 2 ^ 48 ∧ s.apart = false ∧
     (s.saltOf (halfOfPipe 0)).isSome = true ∧ s.seqCredit 0 = true ∧ s.lineOf (msg7 0x10).route = 1600000000000 ∧ paceCost 16 8 * 8000000000 ≤ 131072000000000) ∧
    (let s := paced.modPath (pathKey 0 8) (fun p => { p with bucket := 5 })
     (s.path (pathKey 0 8)).map (fun q => decide ((q.fill s.clock.dev).bucket < paceCost 16 8 * 8000000000)) = some true) ∧
    (let s := paced.modLrd (fun l => { l with paths := [] })
     s.path (pathKey 0 8) = none ∧ (s.msg (msgKey 0 7)).map (fun m => (m.half, m.node, m.state, m.pkts.any (fun e => e.2.wait))) = some (0, 8, .sending, true) ∧
     s.lrd.paths.countV (fun k _ => k / 4294967296 == 0) < 131072) ∧
    (let s := (lrdUp 0x10).modPath (pathKey 0 8) (fun p => { p with since := some 0, qmin := 5000, srtt := 6000 })
     (s.path (pathKey 0 8)).map (fun p => (p.since, p.srtt)) = some (some 0, 6000) ∧ 0 + max 6000 4000 ≤ (s.clock.advance 6000).dev ∧
     (s.clock.advance 5999).dev < 0 + max 6000 4000) := by
  and_intros <;> decide +kernel

theorem witness_TransportTimers :
    (let s := lrdUp 0x10
     (s.msg (msgKey 0 7)).map (fun m => (m.state, m.due (s.clock.advance 50000).dev)) = some (.awaiting, [(0, { attempt := 1, wait := false })])) ∧
    (let s := (lrdUp 0x10).setMsg (msgKey 0 7) { msg7 0x10 with state := .backoff, until_ := 40000 }
     (s.msg (msgKey 0 7)).map (fun m => (m.state, m.until_)) = some (.backoff, 40000) ∧ 40000 ≤ (s.clock.advance 40000).dev) ∧
    (let s := lrdUp 0x10
     (s.msg (msgKey 0 7)).map (fun m => (m.state, m.deadline)) = some (.awaiting, 1500000) ∧ 1500000 ≤ (s.clock.advance 1500000).dev) ∧
    (let s := withRecs [rec7 pktW .receiving [0]] (lrdUp 0x10)
     (s.recAt 0 8 2 7).map (fun x => (x.state, x.firstAt, x.created)) = some (.receiving, some 0, 0) ∧ 0 + 4000 ≤ (s.clock.advance 4000).dev ∧
     0 + 3000000 ≤ (s.clock.advance 3000000).dev) ∧
    (let s := withRecs [rec7 pktW (.released 10) [0]] (lrdUp 0x10)
     (s.recAt 0 8 2 7).map (·.state) = some (.released 10) ∧ 10 < (s.clock.advance 11).dev) := by
  and_intros <;> decide +kernel

theorem witness_KeysAndContexts :
    (let s := (lrdUp 0x10).modTd 0 5 (fun t => { t with prev := some ⟨0, zs 32⟩, switchAt := some 9 })
     (s.td 0 5).switchAt = some 9 ∧ 9 ≤ (s.clock.advance 9).dev) ∧
    (let s := ({ up with clock := { startG0 := some 0 } } : State).advance 3000000
     s.clock.startG0 = some 0 ∧ 0 + 3000000 ≤ s.clock.dev) ∧
    (let s := (lrdUp 0x10).modLrd (fun l => { l with derive_ := [(0, [⟨5, 1, 8, 9, 0⟩])], keyWait := [(0, [pktW])] })
     s.lrd.derive_.getD 0 [] = [⟨5, 1, 8, 9, 0⟩] ∧ ((s.td (halfOfPipe 0) 5).byEpoch 1).isSome = true) ∧
    (let s := offChip false (arriveIn 0x10 pktW)
     let b := lrdBytes pktW
     s.net.opened.getD 0 [] = [] ∧ s.net.seqIn.getD 0 [] = [pktW] ∧ lrdType b = 1 ∧ s.seqCredit 0 = true ∧ pktW.past = false ∧
     (match s.rxPre 0 pktW b with | .pass t => t == tk | _ => false) = true ∧ lrdDstEp b = 0 ∧
     (s.ep 0).map (fun e => (e.onChip, e.fid)) = some (false, 0) ∧ (s.missQ (halfOfFid 0)).length < 4096 ∧
     (s.missQ (halfOfFid 0)).countP (fun x => lrdDstEp (lrdBytes x) == 0) < 256) ∧
    (let s := offChip true (lrdUp 0x10)
     (s.ep (0 : BitVec 20).toNat).map (·.fetching) = some true ∧ (s.fn 0).state = .active ∧ s.epsOnChip (halfOfFid 0) < 65536) ∧
    (let s := (lrdUp 0x10).modLrd (fun l => { l with msgs := [] })
     s.lruEp (halfOfFid 0) = some (0 : BitVec 20).toNat ∧ s.epArrival 0 = false ∧
     ({ s with net := { seqIn := [(0, [pktW])] } } : State).epArrival 0 = true) := by
  and_intros <;> decide +kernel

theorem witness_ReadsAndAnswers :
    (let s := arrive 0x10 pktRq
     let b := lrdBytes pktRq
     Taken s 0 pktRq b [] ∧ lrdType b = 2 ∧ (s.ep (lrdDstEp b)).map (fun e => (e.onChip, s.winJudge (lrdDstEp b) e (be (lrdExt b) 8 4) 1 (be (lrdExt b) 0 8) (lrdLen b))) =
       some (true, none) ∧ s.epJudge b = none ∧ lrdLen b = 8 ∧ be (lrdExt b) 14 2 = 1 ∧ be (lrdExt b) 12 2 + 1 ≤ pktCount (lrdLen b) ∧
     (s.fn 0).state = .active) ∧
    (let s := arrive 0x11 pktRs pay8
     let b := lrdBytes pktRs
     Taken s 0 pktRs b pay8 ∧ lrdType b = 3 ∧ (s.msgOf b).map (fun x => (x.1, x.2.isRead, x.2.got)) = some (msgKey 0 7, true, []) ∧
     (s.msgOf b).map (fun x => (payOk x.2.len (lrdIdx b) (lrdPay b), x.2.frags)) = some (true, [(0x9000, 8)]) ∧ 4096 * lrdIdx b + pay8.length = 8) ∧
    (let s := arrive 0x10 pktAck1
     let b := lrdBytes pktAck1
     lrdType b = 4 ∧ (s.msgOf b).map (fun x => x.2.isRead) = some false ∧ bit (be (lrdExt b) 14 2) 8 = true) ∧
    (let s := arrive 0x10 pktAck0
     let b := lrdBytes pktAck0
     lrdType b = 4 ∧ (s.msgOf b).map (fun x => x.2.isRead) = some false ∧ bit (be (lrdExt b) 14 2) 8 = false ∧ be (lrdExt b) 12 2 = 3) ∧
    (let s := arrive 0x10 pktNak1
     let b := lrdBytes pktNak1
     lrdType b = 5 ∧ (s.msgOf b).map (fun x => x.2.state) = some .awaiting ∧ be (lrdExt b) 8 1 = 1) ∧
    (let s := arrive 0x10 pktNak2
     let b := lrdBytes pktNak2
     lrdType b = 5 ∧ (s.msgOf b).isSome = true ∧ be (lrdExt b) 8 1 = 2) ∧
    (let s := withRecs [rec7 pktRel .finished [0]] (arrive 0x10 pktRel)
     let b := lrdBytes pktRel
     lrdType b = 6 ∧ (s.homeOf (lrdDstEp b)).getD (halfOfPipe 0) = 0 ∧ (s.rec_ 0 (replyOf 0 pktRel b)).map (·.state) = some .finished) := by
  and_intros <;> decide +kernel

/-! ## The cipher engine -/

/-- A key of function 0 in slot 7. -/
def key7 : KeyInfo := { fid := 0, fgen := 1, alg := 2, salt := 9, limit := 100, used := 4, key := zs 32 }
/-- A cipher descriptor under slot 7's key: 16 bytes of text, output at 0xA000, tag at 0xB000. -/
def cdesc (op : Nat) : Bytes := toLe 4 op ++ toLe 4 16 ++ toLe 8 0x9000 ++ handle7 ++ zs 4 ++ toLe 8 0xA000 ++ toLe 8 0xB000 ++ zs 8 ++ toLe 8 77 ++ zs 8
def job (op : Nat) : BulkJob := { fid := 0, sq := 3, index := 0, bytes := cdesc op, input := zs 16, tag := zs 16, slot := 7, ctr := some 4 }
/-- A CIPHER ring with a descriptor waiting, and the engine as `f` leaves it. -/
def cip (op : Nat) (f : Cry → Cry) : State := { sqState (fun r => { r with use := .cipher }) { fetched := [{ index := 0, bytes := cdesc op }] } with
  cry := f { slots := [(7, { info := some key7 })], kwkW := some 1, kwkE := some 2 } }

/-- `cip` with the descriptor still to be read, and with the data of one that is read having come. -/
def cipRead (op : Nat) (f : Cry → Cry) : State := { cip op f with work := [(sqKey 3, { reading := 1 })] }
def cipData (op : Nat) (c : Nat) : State :=
  { cip op id with work := [(sqKey 3, { fetched := [{ index := 0, bytes := cdesc op, taken := true, ctr := some c }] })] }
/-- A packet of association 2, under slot 7's key, which is being unwrapped, and every core but 1 busy. -/
def waits7 : State := (cip 0x20 (fun c => { c with
  sas := [(2, { fid := 0, spi := 256, out := true, tunnel := false, esn := false, hdr := [], slot := 7, win := 0 })], unwrapping := [7]
  bulk := [(0, [job 0x20])], cacheW := [7], cores := (0 :: List.range' 2 16).map (fun c => (c, job 0x20)) })).setInl 0 [.esp { pkt := { pkt 60 with sa := some 2 }, dest := .drop }]
/-- An inline packet that names no association, and LRD packets to encrypt and to check. -/
def inl0 : InlineJob := { pkt := pkt 60, dest := .drop }
def seal0 : SealJob := { seq := 0, cls := 0, route := none, node := 9, dstEp := 0, hdr := zs 64, ext := [], pay := zs 8, key := zs 32, nonce := zs 12 }
def open0 : OpenJob := { seq := 0, pkt := pktW, key := pairK }

theorem witness_CipherJobs :
    (let s := cipRead 0x20 id
     (s.ring (sqKey 3)).map (fun r => (r.fid, r.use, descError r (cdesc 0x20) [])) = some (0, .cipher, none) ∧ (s.workOf (sqKey 3)).reading ≠ 0 ∧
     dOpcode (cdesc 0x20) = 0x20 ∧ s.keyCheck 0 (le (cdesc 0x20) 16 4) (dLength (cdesc 0x20) - le (cdesc 0x20) 20 3) true = none ∧
     s.keyOf (handleSlot (le (cdesc 0x20) 16 4)) = some key7) ∧
    (let s := cipRead 0x21 id
     (s.ring (sqKey 3)).map (fun r => descError r (cdesc 0x21) []) = some none ∧ dOpcode (cdesc 0x21) = 0x21 ∧
     s.keyCheck 0 (le (cdesc 0x21) 16 4) (dLength (cdesc 0x21) - le (cdesc 0x21) 20 3) false = none) ∧
    (let s := cipRead 0x20 (fun c => { c with slots := [(7, { info := some { key7 with lost := true } })] })
     s.keyCheck 0 (le (cdesc 0x20) 16 4) 16 true = some 0x45) ∧
    (let s := cipData 0x20 4
     (s.nextDesc 3).map (fun d => (dOpcode d.bytes, d.taken)) = some (0x20, true)) ∧
    (let s := cipData 0x21 0
     (s.nextDesc 3).map (fun d => (dOpcode d.bytes, d.taken)) = some (0x21, true)) ∧
    (let s := cip 0x20 (fun c => { c with cores := [(0, job 0x20)] })
     Tab.find (0 : CipherCoreId).val s.cry.cores = some (job 0x20) ∧ (job 0x20).enc = true ∧ s.keyOf (job 0x20).slot = some key7) ∧
    (let s := cip 0x20 (fun c => { c with cores := [(0, job 0x21)] })
     Tab.find (0 : CipherCoreId).val s.cry.cores = some (job 0x21) ∧ (job 0x21).enc = false ∧ (job 0x21).streamed = false ∧
     (aeadOpen key7.alg key7.key (keyNonce key7.salt 4) ((job 0x21).input.take (job 0x21).aadLen) ((job 0x21).input.drop (job 0x21).aadLen)
       (job 0x21).tag).2 = false) ∧
    (let s := cip 0x20 (fun c => { c with slots := [(7, { info := some { key7 with lost := true } })], cores := [(0, job 0x20)] })
     Tab.find (0 : CipherCoreId).val s.cry.cores = some (job 0x20) ∧ (s.keyOf (job 0x20).slot).map (·.lost) = some true ∧ (job 0x20).streamed = false) := by
  and_intros <;> decide +kernel

theorem witness_CipherScheduling :
    (let s := cip 0x20 (fun c => { c with bulk := [(0, [job 0x20])], cacheW := [7] })
     s.inlQ 0 = [] ∧ s.bulkQ 0 = [job 0x20] ∧ s.bulkReady 0 (job 0x20) = true ∧ (s.freeCores 0).head? = some 0 ∧
     s.keyOf (job 0x20).slot = some key7 ∧ key7.lost = false ∧ (job 0x20).slot ∈ s.keyCache 0) ∧
    (let s := (cip 0x20 (fun c => { c with bulk := [(0, [job 0x20])], cores := (List.range' 1 17).map (fun c => (c, job 0x20)) })).setInl 0 [.esp inl0]
     s.freeCores 0 = [0] ∧ (s.cipherCores 0).head? = some 0) ∧
    (let s := cip 0x20 (fun c => { c with bulk := [(0, [job 0x20])] })
     s.inlQ 0 = [] ∧ s.bulkQ 0 = [job 0x20] ∧ s.bulkReady 0 (job 0x20) = true ∧ (s.freeCores 0).head? = some 0 ∧ (job 0x20).slot ∉ s.keyCache 0) ∧
    (let s := (cip 0x20 id).setInl 0 [.esp inl0]
     s.bulkQ 0 = [] ∧ s.inlQ 0 = [.esp inl0] ∧ (s.freeCores 0).head? = some 0 ∧ s.inlineSlot inl0 = none) ∧
    (let s := (cip 0x20 id).setInl 0 [.enc seal0, .dec open0]
     s.bulkQ 0 = [] ∧ s.inlQ 0 = [.enc seal0, .dec open0] ∧ (s.setInl 0 [.dec open0]).inlQ 0 = [.dec open0]) ∧
    (let s := cip 0x20 (fun c => { c with unwrapping := [7] })
     (7 : BitVec 18).toNat ∈ s.cry.unwrapping ∧ (s.keyCache (halfOfSlot 7)).length < 8192 ∧ s.keyOf 7 = some key7) ∧
    (waits7.inlQ 0 ≠ [] ∧ (∀ j ∈ waits7.inlQ 0, waits7.inlineReady j = false) ∧ (waits7.cipherCores 0).head? = some 0 ∧ waits7.freeCores 0 = [1]) := by
  and_intros <;> decide +kernel

theorem witness_CipherTestsAndAlarms :
    (let s := cip 0x20 (fun c => { c with cores := [(0, job 0x20)] })
     (0 : CipherCoreId).val ∈ s.cipherCores ((0 : CipherCoreId).val / 20) ∧ Tab.find 0 s.cry.cores = some (job 0x20)) ∧
    (5 ∈ (cip 0x20 (fun c => { c with withdrawn := [5] })).cry.withdrawn) ∧
    (let s := cip 0x20 (fun c => { c with state := .zeroRecoverable })
     s.cry.state = .zeroRecoverable ∧ s.cry.alarmAt + 10000000 ≤ s.clock.now + 10000000) ∧
    (cip 0x20 (fun c => { c with state := .zeroLatched })).cry.state = .zeroLatched ∧
    up.power.voltBad 0 up.power.setW = false ∧ up.power.voltBad 0 (2 * up.power.setW) = true := by
  and_intros <;> decide +kernel

/-! ## Offload threads -/

/-- Thread 16, the first of core 1, RUNNING at 0x100 on a core in mode `m`, as `f` leaves it; beside it threads `ts`, channels `cs`, and bytes `mem` in scratch. -/
def thr (m : Nat) (f : Thread → Thread) (ts : Tab Thread := []) (cs : Tab Chan := []) (mem : Tab Byte := []) : State :=
  { up with off := { cores := [(1, { mode := m, scratch := mem })], threads := (16, f { state := .running, pc := 0x100 }) :: ts, chans := cs } }
/-- The thread with registers x6 and x7. -/
def xs (a b : BitVec 64) (t : Thread) : Thread := { t with regs := [(6, a), (7, b)] }

theorem witness_ThreadEventsAndSentinel :
    (let s := thr 2 (fun t => { xs 16 0 t with events := 16 })
     s.issues (16 : ThreadId) = true ∧ s.pendingBits (16 : ThreadId) &&& s.waitMask (16 : ThreadId) (s.rv 16 6) ≠ 0) ∧
    (let s := thr 2 (xs 16 0)
     s.issues (16 : ThreadId) = true ∧ s.pendingBits (16 : ThreadId) &&& s.waitMask (16 : ThreadId) (s.rv 16 6) = 0) ∧
    (let s := thr 2 (fun t => { t with state := .waiting, mask := 1, events := 3, waitRd := 5 })
     (s.thread 16).state = .waiting ∧ s.slotsOf 16 ≠ 0 ∧ s.pendingBits 16 &&& s.waitMask 16 (s.thread 16).mask ≠ 0) ∧
    (let s := thr 2 (xs 2047 0xFFFF)
     s.issues 16 = true ∧ (s.rv 16 6).toNat < 2048 ∧ s.apart = false) ∧
    (thr 2 (xs 50 0)).issues 16 = true ∧ ((thr 2 (xs 50 0)).rv 16 6).toNat ≤ 0xFFFFFFFF ∧ ((thr 2 (xs 0xFFFFFFFF 0)).rv 16 6).toNat ≤ 0xFFFFFFFF ∧
    (let s := thr 2 (fun t => { t with timer := some 100 })
     (s.thread 16).timer = some 100 ∧ 100 ≤ (s.advance 100).clock.dev ∧ (s.advance 99).clock.dev < 100) ∧
    (thr 2 id).coreQuiet 1 = false ∧
    (let s := thr 2 (fun t => { t with state := .waiting })
     s.coreQuiet 1 = true ∧ (s.core 1).fired = false ∧ s.isRetired 7 1 = false ∧ (s.core 1).mode = 2 ∧ (s.thread 16).state.off = false ∧ s.slotsOf 16 ≠ 0) ∧
    (let s := thr 1 (fun t => { t with state := .waiting, mtvec := 0x200 })
     s.coreQuiet 1 = true ∧ (s.core 1).fired = false ∧ s.isRetired 7 1 = false ∧ (s.core 1).mode ≠ 2 ∧ (s.thread 16).state.off = false ∧
     s.slotsOf 16 ≠ 0 ∧ (s.thread 16).mtvec ≠ 0) ∧
    (let s := (thr 2 id).modCore 1 (fun c => { c with next := some (List.replicate 64 0) })
     (s.core 1).next = some (List.replicate 64 0)) := by
  and_intros <;> decide +kernel

/-- A channel read by thread 17 with `n` messages, as `f` leaves it, and thread 16 about to write 77 into it. -/
def chn (n : Nat) (f : Chan → Chan) (g : Thread → Thread := id) (ts : Tab Thread := []) : State :=
  thr 2 (fun t => g (xs 9 77 t)) ts [(9, f { reader := 17, msgs := List.replicate n (zs 64) })]
def lsd (t : Thread) : Thread := { t with lease := some 9 }

theorem witness_ChannelMessages :
    (∀ s, s ∈ [chn 3 id, chn 16 id, chn 3 (fun c => { c with holder := some 16, asm := [1] }) lsd,
        chn 3 (fun c => { c with holder := some 16, asm := [1, 2, 3, 4, 5, 6, 7] }) lsd,
        chn 3 (fun c => { c with holder := some 16, asm := [1, 2, 3, 4, 5, 6, 7], retry := [20] }) lsd [(20, { state := .running, retry := some (9, 5, 3) })],
        chn 3 (fun c => { c with holder := some 18, asm := [1] })] →
      s.issues 16 = true ∧ (s.rv 16 6).toNat = 9 ∧ Tab.find 9 (s.thread 16).flags = none ∧ (s.chan 9).isSome = true ∧
      (s.chan 9).map (fun c => (c.orphan, s.chanCut 16 c)) = some (false, false)) ∧
    ((chn 3 id).thread 16).lease = none ∧ ((chn 3 id).chan 9).map (fun c => (c.holder, c.used)) = some (none, 3) ∧
    ((chn 16 id).chan 9).map (fun c => (c.holder, c.used)) = some (none, 16) ∧
    ((chn 3 (fun c => { c with holder := some 16, asm := [1] }) lsd).chan 9).map (fun c => (c.holder, c.asm.length)) = some (some 16, 1) ∧
    ((chn 3 (fun c => { c with holder := some 16, asm := [1, 2, 3, 4, 5, 6, 7] }) lsd).chan 9).map (fun c => (c.holder, c.asm.length, c.retry)) = some (some 16, 7, []) ∧
    (let s := chn 3 (fun c => { c with holder := some 16, asm := [1, 2, 3, 4, 5, 6, 7], retry := [20] }) lsd [(20, { state := .running, retry := some (9, 5, 3) })]
     (s.thread 16).lease = some 9 ∧ (s.chan 9).map (fun c => (c.retry, c.msgs.length)) = some ([20], 3) ∧ (s.thread 20).retry = some (9, 5, 3)) ∧
    ((chn 3 (fun c => { c with holder := some 18, asm := [1] })).chan 9).map (·.holder) = some (some 18) ∧
    ((thr 2 (fun t => { xs 9 77 t with lease := some 8 })).thread 16).lease = some 8 ∧
    (let s := chn 3 (fun c => { c with retry := [16], holder := some 18 }) (fun t => { t with retry := some (9, 5, 3) })
     (s.thread 16).retry = some (9, 5, 3) ∧ (s.chan 9).isSome = true) ∧
    (let s := (thr 0 (fun t => { xs 9 0x800 t with mtvec := 0x200 }) [] [(9, { reader := 16, msgs := [zs 64] })])
     s.issues 16 = true ∧ (s.rv 16 6).toNat = 9 ∧ xlysTarget (s.rv 16 7).toNat 64 64 = true ∧
     (s.chan 9).map (fun c => (c.orphan, s.chanCut 16 c, c.reader, c.msgs.length)) = some (false, false, 16, 1) ∧
     (s.core (coreOf 16)).mode ≠ 2 ∧ (s.thread 16).mtvec ≠ 0 ∧ (s.bucketNow (resId 7 (coreOf 16))).level + 4 < resThreshold (resId 7 (coreOf 16))) ∧
    (thr 2 (xs 4095 0)).issues 16 = true ∧ (thr 2 (xs 4095 0)).chan ((thr 2 (xs 4095 0)).rv 16 6).toNat = none := by
  and_intros <;> decide +kernel

def heldP (o : Nat) (fr : Bytes) : ThPkt := { pkt := { frame := fr, hv := zs 256 }, origin := o }

theorem witness_ThreadPackets :
    (let s := thr 2 (fun t => { t with queue := [heldP 0 (eth ++ zs 4)] })
     s.issues 16 = true ∧ (s.thread 16).held = none ∧ (s.thread 16).queue = [heldP 0 (eth ++ zs 4)]) ∧
    ((thr 2 id).issues 16 = true ∧ ((thr 2 id).thread 16).held = none ∧ ((thr 2 id).thread 16).queue = [] ∧
     (thr 2 id).offloadUse (halfOfThread 16) + 9600 ≤ 6291456) ∧
    (let s := thr 2 (fun t => { xs 1 0 t with held := some (heldP 0 eth) })
     putBad (s.rv 16 6).toNat (s.rv 16 7).toNat = false ∧ (s.thread 16).held = some (heldP 0 eth) ∧ (heldP 0 eth).pkt.group = none ∧ (heldP 0 eth).origin ≠ 2) ∧
    (let s := thr 2 (fun t => { xs 1 14 t with held := some (heldP 2 eth) })
     putBad (s.rv 16 6).toNat (s.rv 16 7).toNat = false ∧ (s.rv 16 7).toNat ≠ 0) ∧
    (let s := thr 2 (xs 4 30)
     (16 : ThreadId).val % 16 = 0 ∧ 4 ≤ (s.rv 16 6).toNat ∧ (s.rv 16 6).toNat ≤ 31 ∧ (s.rv 16 7).toNat < 2048 ∧ halfOfThread (s.rv 16 7).toNat = halfOfThread 16) ∧
    (thr 2 (xs 31 0xFFFFFFFFFFFFFFFF)).rv 16 7 = 0xFFFFFFFFFFFFFFFF ∧ ((thr 2 (xs 31 0xFFFFFFFFFFFFFFFF)).rv 16 6).toNat ≤ 31 ∧
    (let s := thr 2 (xs 0x400 0x800)
     s.issues 16 = true ∧ (s.rv 16 6).toNat % 16 = 0 ∧ (regionOf (s.rv 16 6).toNat).isSome = true ∧
     regionOf ((s.rv 16 6).toNat + 47) = regionOf (s.rv 16 6).toNat ∧ xlysTarget (s.rv 16 7).toNat 40 8 = true ∧
     s.memRead 16 (s.rv 16 6).toNat 48 = some 0 ∧ halfOfPipe (le (toLe 48 0) 1 1 % 16) = halfOfThread 16 ∧ (s.thread 16).lookups.length < 4) ∧
    (let s := thr 0 (fun t => { xs 0x400 0x800 t with mtvec := 0x200 })
     s.issues 16 = true ∧ (s.rv 16 6).toNat % 16 = 0 ∧ (regionOf (s.rv 16 6).toNat).isSome = true ∧
     regionOf ((s.rv 16 6).toNat + 47) = regionOf (s.rv 16 6).toNat ∧ xlysTarget (s.rv 16 7).toNat 40 8 = true ∧ (s.core (coreOf 16)).mode ≠ 2 ∧
     (s.thread 16).mtvec ≠ 0 ∧ (s.bucketNow (resId 7 (coreOf 16))).level + 4 < resThreshold (resId 7 (coreOf 16))) ∧
    (let s := thr 2 (fun t => { t with lookups := [⟨zs 48, 0x800⟩] })
     (s.thread 16).lookups[0]? = some ⟨zs 48, 0x800⟩ ∧ xlysTarget 0x800 40 8 = true) := by
  and_intros <;> decide +kernel

/-- Thread 16 with an instruction at its PC. -/
def ins (m w : Nat) (f : Thread → Thread := id) : State :=
  thr m f [] [] ((List.range 4).foldl (fun x i => Mem.put 0 x (0x100 + i) ((toLe 4 w).getD i 0)) (Mem.put 0 [] 0x304 0x55))

theorem witness_SupervisorAndCore :
    (let s := thr 2 (xs 1 0x400)
     s.issues 16 = true ∧ (16 : ThreadId).val % 16 = 0 ∧ 16 < 16 + (s.rv 16 6).toNat ∧ 16 + (s.rv 16 6).toNat < 32 ∧ (s.thread 17).state = .stopped ∧
     (s.rv 16 7).toNat % 2 = 0 ∧ (regionOf (s.rv 16 7).toNat).isSome = true) ∧
    (let s := thr 0 (fun t => { xs 1 0x401 t with mtvec := 0x200 })
     s.issues 16 = true ∧ (s.rv 16 7).toNat % 2 = 1 ∧ (s.core (coreOf 16)).mode ≠ 2 ∧ (s.thread 16).mtvec ≠ 0) ∧
    (let s := thr 2 (xs 15 0x400) [(31, { state := .running })]
     16 + (s.rv 16 6).toNat < 32 ∧ (s.thread 31).state = .running ∧ s.issues 16 = true) ∧
    ((thr 2 (xs 15 0) [(31, { state := .lost })]).thread 31).state = .lost ∧
    (let s := thr 2 (xs 0 33)
     16 + (s.rv 16 6).toNat < 32 ∧ (s.rv 16 7).toNat = 33) ∧
    (let s := thr 2 (xs 3 63) [(19, { state := .halted, regs := [(31, 5)] })]
     (s.thread 19).state = .halted ∧ (s.rv 16 7).toNat = 63) ∧
    (let s := thr 0 id [(17, { state := .running, pc := 0x100, mtvec := 0x200 })]
     s.issues 17 = true ∧ (17 : ThreadId).val % 16 ≠ 0 ∧ (s.core (coreOf 17)).mode ≠ 2 ∧ (s.thread 17).mtvec ≠ 0) ∧
    Fetches (ins 2 0x00700293) 16 0x00700293 4 ∧
    aluImm (bits 0x00700293 12 3) (bits 0x00700293 20 12) 0 ((BitVec.ofNat 12 (bits 0x00700293 20 12)).signExtend 64) = some 7 ∧
    Fetches (ins 2 0x4285) 16 0x00100293 2 ∧
    Fetches (ins 2 0x407302B3 (xs 5 9)) 16 0x407302B3 4 ∧
    aluOp (bits 0x407302B3 25 7) (bits 0x407302B3 12 3) 5 9 = some (-4) ∧
    Fetches (ins 2 0x800002B7) 16 0x800002B7 4 ∧ Fetches (ins 2 0x00001297) 16 0x00001297 4 ∧ Fetches (ins 2 0x008000EF) 16 0x008000EF 4 ∧
    Fetches (ins 2 0x000300E7 (xs 0x201 0)) 16 0x000300E7 4 ∧ Fetches (ins 2 0x00000463) 16 0x00000463 4 ∧ branchTaken 0 0 0 = some true ∧
    Fetches (ins 2 0x00430283 (xs 0x300 0)) 16 0x00430283 4 ∧ (ins 2 0x00430283 (xs 0x300 0)).memRead 16 0x304 1 = some 0x55 ∧
    regionOf 0x304 = some .scratch ∧ Fetches (ins 2 0x00732423 (xs 0x300 0xA1B2C3D4)) 16 0x00732423 4 ∧ 0x308 % 2 ^ 2 = 0 ∧
    Fetches (ins 0 0x00000073 (fun t => { t with mtvec := 0x200 })) 16 0x00000073 4 := by
  and_intros <;> decide +kernel

/-! ## The microcoded engines -/

/-- A microword from its fields: low bit and value. -/
def mw (fs : List (Nat × Nat)) : BitVec 160 := BitVec.ofNat 160 (fs.foldl (fun a f => a + f.2 * 2 ^ f.1) 0)
/-- Engine 3 RUNNING at word 32 of a store with word `w` there, as `f` leaves it. -/
def eng (w : BitVec 160) (f : Engine → Engine) : State :=
  { up with micro := { engines := [(3, f { run := .running, pc := 32, store := [(32, w)] })], golden := [(goldenKey (engHalf 3) (engKind 3), [(0, 7)])] } }
/-- ADD of G1 and the immediate 5 to G2, flags written, then the word after; the ALU word with EOP. -/
def wAdd : BitVec 160 := mw [(13, 1), (46, 1), (50, 1), (56, 32), (62, 2), (67, 5), (151, 1)]
def wAddEop : BitVec 160 := mw [(13, 1), (46, 1), (50, 1), (56, 32), (62, 2), (67, 5), (150, 1)]
/-- Waits for queue 1 for at most 9 steps; the same at an EOP word. -/
def wWait : BitVec 160 := mw [(23, 17), (67, 9)]
def wWaitEop : BitVec 160 := mw [(23, 17), (67, 9), (150, 1)]

/-- The word completes on engine 3 with G1 at −2, and what it computes. -/
abbrev Adds (w : BitVec 160) : Prop :=
  let s := eng w (fun x => { x with regs := [(1, 0xFFFFFFFFFFFFFFFE)] })
  let x := (s.engSteps 3 1).engine (3 : EngineId)
  x.run = .running ∧ x.store.getD x.pc 0 = w ∧ mwField w 50 6 ≠ 34 ∧ mwField w 56 6 ≠ 34 ∧
  (s.engSteps 3 1).engCond (3 : EngineId) x {} (mwField w 23 6) ≠ (mwField w 29 1 == 1) ∧ wordFault (engKind 3) x w = none ∧
  x.head (mwField w 141 4) = 0 ∧ portOp x w 99 = none ∧ portOp x w 118 = none ∧
  engAlu (mwField w 46 4) ((s.engSteps 3 1).engOperand (3 : EngineId) x w (mwField w 50 6)) ((s.engSteps 3 1).engOperand (3 : EngineId) x w (mwField w 56 6))
    (Config.freeWord ((s.engSteps 3 1).free + 64)) = (3, true, false) ∧
  (nextWord x w (storeSize (engKind 3)) true 3 0 (Config.freeWord ((s.engSteps 3 1).free + 65))).toOption = some (33, [])

theorem witness_EngineWords :
    ((eng wAdd (fun x => { x with run := .stopped })).engine (3 : EngineId)).run ≠ .running ∧
    (let s := (eng wWait id).engSteps 3 1
     let x := s.engine (3 : EngineId)
     x.run = .running ∧ x.store.getD 32 0 = wWait ∧ mwField wWait 50 6 ≠ 34 ∧ mwField wWait 56 6 ≠ 34 ∧
     s.engCond (3 : EngineId) x {} (mwField wWait 23 6) = (mwField wWait 29 1 == 1) ∧ x.limitHit wWait s.clock.now = false) ∧
    (let s := (eng wWaitEop (fun x => { x with reqs := 6 })).engSteps 3 1
     let x := s.engine (3 : EngineId)
     s.engCond (3 : EngineId) x {} (mwField wWaitEop 23 6) = (mwField wWaitEop 29 1 == 1) ∧ mwField wWaitEop 150 1 = 1 ∧
     x.reqs.getLsbD 1 = true ∧ x.reqs.getLsbD 0 = false) ∧
    (let s := (eng wWait (fun x => { x with waiting := true, waited := 1 })).engSteps 3 1
     let x := s.engine (3 : EngineId)
     x.run = .running ∧ s.engCond (3 : EngineId) x {} (mwField wWait 23 6) = (mwField wWait 29 1 == 1) ∧ x.limitHit wWait s.clock.now = true ∧
     ((s.advance 5).engine (3 : EngineId)).limitHit wWait (s.advance 5).clock.now = true ∧
     ({ x with waited := 0 } : Engine).limitHit wWait s.clock.now = false) ∧
    Adds wAdd ∧ Adds wAddEop ∧
    ((eng wAddEop (fun x => { x with reqs := 8 })).engine (3 : EngineId)).reqs.getLsbD 3 = true := by
  and_intros <;> decide +kernel

theorem witness_EngineControl :
    ((eng wAdd id).engine (3 : EngineId)).reload = false ∧ ((eng wAdd (fun x => { x with run := .resetting })).engine (3 : EngineId)).run = .resetting ∧
    ((eng wAdd (fun x => { x with run := .stopped })).engine (3 : EngineId)).run = .stopped ∧ ((eng wAdd id).engine (3 : EngineId)).run ≠ .stopped ∧
    ((eng wAdd (fun x => { x with run := .faulted, reload := true })).engine (3 : EngineId)).reload = true ∧
    (let x := (eng wAdd (fun x => { x with run := .stopped, csWe := true, csAddr := 9, csIn := [1, 2, 3] })).engine (3 : EngineId)
     x.bcast = false ∧ x.csWe = true ∧ x.run = .stopped ∧ x.csIn.length < 4) ∧
    (let x := (eng wAdd (fun x => { x with run := .stopped, csWe := true, csAddr := storeSize (engKind 3) - 1, csIn := [1, 2, 3, 4] })).engine (3 : EngineId)
     x.bcast = false ∧ x.csWe = true ∧ x.run = .stopped ∧ x.csIn = [1, 2, 3, 4] ∧ x.csAddr < storeSize (engKind (3 : EngineId))) ∧
    ((eng wAdd (fun x => { x with csWe := true })).engine (3 : EngineId)).run ≠ .stopped ∧
    ((eng wAdd (fun x => { x with checking := true })).engine (3 : EngineId)).checking = true := by
  and_intros <;> decide +kernel

/-! ## Starts -/

/-- Bytes listed from an address on. -/
def listed (a : Nat) : Bytes → Tab Byte
  | [] => []
  | b :: bs => (a, b) :: listed (a + 1) bs
/-- The arm record of a slot for SEQ 4 on slot 0 and SEQ 3 on slot 1. -/
def armRec (slot : Nat) : Tab Byte :=
  listed (recordBase slot) (toLe 4 0x4D524141 ++ toLe 4 (4 - slot) ++ toLe 8 5 ++ toLe 4 (if slot = 0 then 0x7EA95012 else 0xE8FC7C82))
/-- Standby power good, the first stage to run, the slots in `m` armed. -/
def start (lc : Nat) (m : List Nat) : State := { State.reset with boot := { stage := .first, lc := lc, flash := m.flatMap armRec } }
/-- Slot 0 in the second stage with parts in place, its directory naming part `k` with `n` blocks. -/
def second (parts k n : Nat) : State :=
  { State.reset with boot := { stage := .second, lc := 2, parts := parts, flash := Mem.write 0xFF [] 0x100040 ([BitVec.ofNat 8 k, 0, 0, 0, BitVec.ofNat 8 n, 0]) } }

theorem witness_Starts :
    (let s : State := { State.reset with boot := { stbyGood := false, stage := .off } }
     s.boot.stbyGood = false ∧ s.boot.stage = .off ∧ s.clkLost .stby = false ∧ ({ s with clock := { missing := [.stby] } } : State).clkLost .stby = true) ∧
    resKind (0x0B00021F : BitVec 32).toNat ∈ [1, 6, 7, 8, 11] ∧ resKind (0x0100007F : BitVec 32).toNat ∈ [1, 6, 7, 8, 11] ∧
    (let s := start 5 []
     s.boot.stage = .first ∧ s.boot.stbyGood = true ∧ RefClk.stby ∉ s.clock.missing ∧ s.takeLc.boot.lc = 5) ∧
    (let s := { start 2 [] with boot := { (start 2 []).boot with lcNew := some 5 } }
     s.boot.lc = 2 ∧ s.takeLc.boot.lc = 5) ∧
    (let s := start 2 []
     let r := s.takeLc.rollback
     s.boot.stage = .first ∧ s.takeLc.boot.lc ≠ 5 ∧ r.candidate 0 = false ∧ r.candidate 1 = false) ∧
    (let r := (start 2 [0, 1]).takeLc.rollback
     r.candidate 0 = true ∧ r.candidate 1 = true ∧ r.preferB = decide (0 = 1) ∧ r.slotCheck [] 0 = some (0, 0)) ∧
    (let r := (start 2 [1]).takeLc.rollback
     r.candidate 1 = true ∧ r.candidate 0 = false ∧ r.slotCheck [] 1 = some (0, 0)) ∧
    (let s := second 4 3 0
     s.boot.stage = .second ∧ s.boot.release = 0 ∧ s.diesMayRun = true ∧ [3, 4, 6, 5, 2].find? (fun i => !bit s.boot.parts i) = some 3 ∧
     s.badBlock s.boot.slot 3 = none) ∧
    (let s := second 0 2 0
     [3, 4, 6, 5, 2].find? (fun i => !bit s.boot.parts i) = some 3 ∧ s.partBad s.boot.slot 3 none = some 0 ∧ (second 4 3 0).partBad 0 3 (some 1) = none) := by
  and_intros <;> decide +kernel

/-- `up` with its boot state changed, and with its power state. -/
def bt (f : Boot → Boot) : State := { up with boot := f up.boot }
def pw (f : Power → Power) : State := { up with power := f {} }

theorem witness_ReleaseAndRecovery :
    (∀ b, b ∈ [true, false] → let s := bt (fun x => { x with stage := .second, parts := 12, trial := b })
     s.boot.stage = .second ∧ bit s.boot.parts 3 = true ∧ bit s.boot.parts 4 = false ∧ s.boot.step = 0 ∧ s.diesMayRun = true ∧
     s.sets.bootSerial < 0xFFFFFFFF ∧ s.boot.flashLeft = none) ∧
    (let s := bt (fun x => { x with stage := .released, release := 1, step := 9, releasedAt := 0 })
     s.boot.release % 2 = 1 ∧ s.boot.stage = .released ∧ s.boot.step = 9 ∧ s.rel.heldE = false ∧ bit (0x100 : BitVec 32).toNat 9 = false ∧ bit (0x100 : BitVec 32).toNat 8 = true ∧
     bit (0x200 : BitVec 32).toNat 9 = true ∧ s.boot.releasedAt + 250000000 ≤ s.clock.now + 250000000 ∧ s.clock.now + 249999999 < s.boot.releasedAt + 250000000) ∧
    (bt (fun x => { x with stage := .second })).boot.stage = .second ∧
    (let s := bt (fun x => { x with stage := .released, parts := 62 })
     s.boot.stage = .released ∧ s.boot.parts ≠ 0x7E) ∧
    (let s := bt (fun x => { x with release := 3 })
     s.boot.release % 2 = 1 ∧ s.boot.stage = .ready ∧ bit (0x200 : BitVec 32).toNat 9 = true ∧ s.cpW.running = true) ∧ up.boot.stage = .ready ∧ up.boot.stage ≠ .recovery ∧
    (let s := bt (fun x => { x with stage := .recovery, sessions := 1 })
     let w := ((s.eraseRecord 0).flashErase (slotBase 0) 12582912).flashWrite (slotBase 0) ((zs 100).take 12582912)
     s.boot.stage = .recovery ∧ (s.boot.sessions + 1) % 2 = 0 ∧ s.boot.flashLeft = none ∧ w.imageOk 0 = false) ∧
    (let s := bt (fun x => { x with stage := .recovery, flash := armRec 0 })
     s.armed 0 = true ∧ s.armed 1 = false) ∧
    (let s := bt (fun x => { x with stage := .recovery, flash := armRec 0 ++ armRec 1 })
     s.armed 0 = true ∧ s.armed 1 = true ∧ seqNewer (s.slotSeq 0) (s.slotSeq 1) = true) ∧
    (bt (fun x => { x with stage := .recovery })).armed 0 = false := by
  and_intros <;> decide +kernel

/-- `up` with a reset requested for the present time. -/
def rst (d m : Nat) : State := { up with hif := { up.hif with resetReq := some ⟨d, 0, m, 0⟩ } }

theorem witness_ResetsOfTheDevice :
    up.boot.mainGood = true ∧
    (let s := bt (fun x => { x with mainGood := false, stage := .held })
     s.boot.mainGood = false ∧ s.boot.stage = .held ∧ ({ s with boot := { s.boot with mainGood := true } } : State).diesMayRun = true) ∧
    (let s := bt (fun x => { x with mainGood := false, stage := .retired })
     s.boot.mainGood = false ∧ s.boot.stage ∈ [.first, .recovery, .retired]) ∧
    (let s := bt (fun x => { x with mainGood := false, stage := .second, parts := 12 })
     s.boot.mainGood = false ∧ s.boot.stage = .second) ∧
    (let s := bt (fun x => { x with mainGood := false, stage := .off })
     s.boot.mainGood = false ∧ s.boot.stage = .off) ∧
    (let s := { bt (fun x => { x with stage := .held }) with clock := { missing := [.sysWest] } }
     s.boot.mainGood = true ∧ s.boot.stage = .held ∧ s.diesMayRun = false) ∧
    (bt (fun x => { x with coresW := true })).boot.coresW = true ∧ bit (0x7F : BitVec 32).toNat 8 = false ∧
    up.boot.stbyGood = true ∧ up.boot.stage ∉ [.off, .retired] ∧ up.boot.stage ≠ .held ∧
    (rst 0 0).hif.resetReq = some ⟨0, 0, 0, 0⟩ ∧ 0 ≤ (rst 0 0).clock.now ∧ (rst 0 0).boot.stage ∉ [.off, .retired] ∧ up.hif.resetReq = none ∧
    (rst 2 0x8001).hif.resetReq = some ⟨2, 0, (0x8001 : BitVec 16).toNat, 0⟩ := by
  and_intros <;> decide +kernel

theorem witness_ThermalAndPower :
    (let s := pw (fun p => { p with samples := [(63, (119999, 0))] })
     Tab.find (63 : Fin 190).val s.power.samples = some (119999, 0) ∧ enterAt 3 ≤ 120500 ∧ enterAt 3 ≤ 119999 ∧ (119999 : Int) < enterAt (3 + 1) ∧ s.power.level < 3) ∧
    (let s := pw (fun p => { p with samples := [(0, (120000, 0))] })
     Tab.find (0 : Fin 190).val s.power.samples = some (120000, 0) ∧ enterAt 4 ≤ 120000 ∧ s.power.level < 4) ∧
    (let s := (pw (fun p => { p with level := 1, cool := [(1, 0)], samples := [(0, (80000, 0)), (70, (99000, 0))] })).advance 1000000000
     1 = s.power.level ∧ Tab.find 1 s.power.cool = some 0 ∧ 0 + 1000000000 ≤ s.clock.now ∧
     ∀ e, e ∈ Tab.set (1 : Fin 190).val (89999, s.devNow) s.power.samples → e.1 < 64 → e.2.1 < leaveBelow 1) ∧
    (160 ≤ (160 : Fin 190).val ∧ (160 : Fin 190).val % 2 = 0 ∧ (161 : Fin 190).val % 2 = 1 ∧
     Tab.find ((161 : Fin 190).val - 1) (pw (fun p => { p with samples := [(160, (780, 0))] })).power.samples = some (780, 0)) ∧
    (let s := pw (fun p => { p with slew := some ⟨0, 1, 1⟩ })
     s.power.slew.isSome = true ∧ s.power.avsTries.getD (1 : Half).val 0 < 2 ∧ up.power.slew = none) ∧
    (pw (fun p => { p with slew := some ⟨0, 1, 1⟩, avsTries := [(1, 2)] })).power.avsTries.getD (1 : Half).val 0 = 2 ∧
    (pw id).boot.stage = .ready ∧ (pw id).power.package 7 = 7 ∧ ({ railSum := [(3, (780000000, 2))] } : Power).package 0 = 390 ∧
    (bt (fun x => { x with stage := .released })).boot.stage ≠ .ready ∧
    (let p := (pw (fun p => { p with capWas := 500, under := 99, mode := 1 })).power
     p.capW = 0 ∧ 500 ≤ p.capWas ∧ 99 ≤ p.under ∧ p.mode ≠ 0 ∧ forcedMode p.level < p.mode ∧ p.holdTo ≤ p.windows + 1 ∧ p.slew = none) ∧
    (let p := (pw (fun p => { p with capW := 500, overN := 2, mode := 1, limit := 2 })).power
     p.capW ≠ 0 ∧ p.capW < 501 ∧ p.overN = 2 ∧ p.mode < p.limit ∧ p.slew = none) ∧
    (let p := (pw (fun p => { p with capW := 500, overN := 2, mode := 1, limit := 2, slew := some ⟨0, 1, 1⟩ })).power
     p.capW < 501 ∧ p.overN = 2 ∧ p.mode < p.limit ∧ p.slew = some ⟨0, 1, 1⟩ ∧ p.waiting = none) ∧
    (let p := (pw (fun p => { p with capW := 500, overN := 1 })).power
     p.capW < 501 ∧ p.overN < 2) ∧
    (let p := (pw (fun p => { p with capW := 500, overN := 2, mode := 2 })).power
     p.limit ≤ p.mode ∧ p.excessAt = none) ∧
    (let p := (pw (fun p => { p with capW := 500, under := 99, mode := 1 })).power
     425 * 100 ≤ p.capW * 85 ∧ 99 ≤ p.under ∧ p.mode ≠ 0 ∧ forcedMode p.level < p.mode ∧ p.holdTo ≤ p.windows + 1 ∧ p.slew = none) ∧
    (let p := (pw (fun p => { p with slew := some ⟨0, 1, 1⟩, mode := 1 })).power
     p.slew = some ⟨0, 1, 1⟩ ∧ p.waiting = none) ∧
    (let p := (pw (fun p => { p with slew := some ⟨0, 1, 1⟩, mode := 1, waiting := some (2, 2) })).power
     p.waiting = some (p.mode + 1, 2)) := by
  and_intros <;> decide +kernel

def rec1 : LedgerRec := { code := 0x101, subject := 0, time := 0, uptime := 0, data := [] }
def led (f : Ledger → Ledger) : State := { up with ledger := f { buf := [rec1, rec1] } }

theorem witness_HearthAndClocks :
    (bt (fun x => { x with stage := .off })).boot.stage = .off ∧ (led id).boot.stage ≠ .off ∧ (led id).ledger.lost = 0 ∧ (led id).ledger.buf = [rec1, rec1] ∧ (led id).ledger.next ≠ 0xFFFFFFFE ∧
    (led (fun l => { l with lost := 3 })).ledger.lost ≠ 0 ∧ up.boot.holdupN = true ∧ up.boot.stbyGood = true ∧ (led id).boot.stbyGood = true ∧ (bt (fun x => { x with stbyGood := false })).boot.stbyGood = false ∧ (bt (fun x => { x with holdupN := false })).boot.holdupN = false ∧
    up.clkLost .stby = false ∧ up.clkLost (.host 3) = false ∧ (up.link (3 : LinkId)).up = false ∧
    (let s : State := { up with clock := { up.clock with missing := [.ptp] } }
     s.clkLost .ptp = true ∧ clkSettle .ptp ≤ 1000000000 ∧ RefClk.ptp ∈ [RefClk.ptp, .sdWest, .sdEast] ∧ 999999999 < clkSettle .ptp) ∧
    (let s : State := { bt (fun x => { x with stage := .off }) with clock := { missing := [.stby] } }
     s.clkLost .stby = true ∧ clkSettle .stby ≤ 1000000000 ∧ s.boot.stbyGood = true ∧ s.boot.stage = .off) := by
  and_intros <;> decide +kernel

/-- `up` with its halves' state changed. -/
def hv (f : Rel → Rel) : State := { up with rel := f {} }
def down5 : Tab D2d := [(0, { down := true }), (1, { down := true }), (2, { down := true }), (3, { down := true })]

def memEng : State := { eng (mw [(29, 1), (67, 9)]) id with rel := { buckets := [(0x040000FF, { level := 240 })] } }
theorem witness_FaultBuckets :
    (let s := hv (fun r => { r with buckets := [(resId 2 5, { level := 2, since := 5 })] })
     s.bucket (BitVec.ofNat 32 (resId 2 5)).toNat = { level := 2, since := 5 } ∧ 5 ≤ s.clock.now + 5) ∧
    (hv (fun r => { r with moving := [7] })).rel.moving = [7] ∧
    ((up.d2dLink (4 : Fin 5)).down = false ∧ (1 : Fin 2).val * 104 + (103 : Fin 104).val ∉ (up.d2dLink (4 : Fin 5)).lost ∧
     (up.bucketNow (resId 2 (4 * 208 + 1 * 104 + 103))).level < 3) ∧
    (let s := hv (fun r => { r with buckets := [(resId 2 (4 * 208 + 1 * 104 + 103), { level := 3 })], d2d := [(4, { lost := [104, 105, 106, 107, 108, 109, 110] })] })
     (s.d2dLink (4 : Fin 5)).down = false ∧ 3 ≤ (s.bucketNow (resId 2 (4 * 208 + 1 * 104 + 103))).level ∧
     (s.d2dLink (4 : Fin 5)).lost.countP (fun x => x / 104 == 1) = 7) ∧
    (let s := memEng
     let w := (s.engine (3 : EngineId)).store.getD (s.engine (3 : EngineId)).pc 0
     (s.engine (3 : EngineId)).run = .running ∧ mwField w 23 6 = 0 ∧ mwField w 29 1 = 1 ∧ (s.engine (3 : EngineId)).waiting = false ∧
     resKind (0x04000001 : BitVec 32).toNat = 4 ∧ (s.bucketNow (0x04000001 : BitVec 32).toNat).level < 240 ∧
     resKind (0x040000FF : BitVec 32).toNat = 4 ∧ 240 ≤ (s.bucketNow (0x040000FF : BitVec 32).toNat).level ∧
     s.hbmRetired (resHalf (0x040000FF : BitVec 32).toNat) = 0 ∧ resKind (0x05400013 : BitVec 32).toNat = 5 ∧
     s.freeSpare (resIdx (0x05400013 : BitVec 32).toNat) = some 0x400010 ∧ s.rel.retired = []) ∧
    (0 ∈ up.linksUp ∧ 0 ≠ (4 : Fin 5).val) ∧
    (let s := hv (fun r => { r with d2d := down5 })
     (s.d2dLink (4 : Fin 5)).down = false ∧ s.linksUp = [4] ∧ (s.d2dLink (0 : Fin 5)).down = true ∧ s.isRetired 3 (0 : Fin 5) = false ∧ s.rel.heldE = false) := by
  and_intros <;> decide +kernel

theorem witness_HalvesApart :
    (let s := hv (fun r => { r with cut := true })
     s.rel.cut = true ∧ s.rel.split = false ∧ s.healthy = true ∧ s.boot.stage = .ready) ∧
    up.rel.cut = false ∧ (hv (fun r => { r with cut := true, badE := true })).healthy = false ∧
    (((hv (fun r => { r with cut := true, split := true })).advance 100000000).mayRejoin = true) ∧ ((hv (fun r => { r with cut := true, split := true })).advance 100000000).handedOver = true ∧ up.rel.rejoin = none ∧
    (let s := hv (fun r => { r with cut := true, split := true, rejoin := some 5, d2d := down5 })
     s.rel.rejoin = some 5 ∧ s.healthy = true ∧ s.boot.stage = .ready ∧ s.linksUp ≠ [] ∧ s.rel.cut = true ∧ (s.d2dLink (4 : Fin 5)).down = false ∧
     s.linksUp = [4] ∧ s.handedOver = true) ∧
    (let s := hv (fun r => { r with cut := true, split := true, rejoin := some 5, d2d := down5 })
     ({ s with tickets := [(ticketKey 4096 0x101, { fid := 4096, opcode := 0x0405, cookie := 5, eq := none, autoRel := false, work := .epDestroy 3 })] } : State).handedOver = false) ∧ up.mayRejoin = false ∧
    up.boot.stage = .ready ∧ up.heldHalf (1 : Half) = false ∧
    (hv (fun r => { r with badE := true, heldE := true })).badHalf (1 : Half) = true ∧ up.clkLost (sysClk (1 : Half)) = false ∧
    (up.badBlock up.boot.slot 4).isSome = true ∧ up.badHalf (0 : Half) = false ∧
    (let s := hv (fun r => { r with badW := true, heldW := true })
     s.badHalf (0 : Half) = true ∧ s.clkLost (sysClk (0 : Half)) = false ∧ s.partBad s.boot.slot 3 none = some 0) := by
  and_intros <;> decide +kernel

/-! ## Management -/

/-- `up` with an endpoint ID on the I3C binding, and its management state changed; its boot state too. -/
def mg (f : Mgmt → Mgmt) : State := { up with mgmt := f { eids := [(0, 9)], i3cAddr := some 8 } }
def mgBoot (f : Boot → Boot) : State := { mg id with boot := f up.boot }

theorem witness_ManagementMessages :
    (∀ k, k ∈ [MsgKind.control, .molgori, .board, .pldmBase, .pldmUpdate, .spdm, .ncsi] → (mg id).takes .i3c k = true) ∧
    up.takes .smbus .control = true ∧ up.mgmtOn = true ∧ up.takes .i3c .control = false ∧ up.reaches (.smbus none false) = false ∧
    (mg id).reaches (.i3c (some 8)) = true ∧ (mg id).reaches (.i3c (some 9)) = false ∧ (up.link 3).up = false ∧ (up.link 0).up = true ∧
    (mg id).capOn = true ∧ (mg id).boot.flashLeft = none ∧ (mgBoot (fun x => { x with stage := .released, step := 7 })).capOn = false ∧ up.mgmt.eids.any (fun e => e.1 == bindNo .smbus) = false ∧
    (let p : Bytes := [0x90, 1, 2, 0]
     p.length = 4 ∧ le p 0 2 = 400 ∧ le p 2 1 = 2 ∧ le p 3 1 = 0) ∧
    (let p : Bytes := [0, 0, 0, 0, 60, 0, 0, 0]
     p.length = 8 ∧ le p 4 1 = 60 ∧ p.drop 5 = [0, 0, 0]) ∧
    (let p : Bytes := [0, 0, 1, 0]
     (mg id).fidOk (le p 0 2) = true ∧ le p 2 1 = ((mg id).fn 0).gen.toNat ∧ ((mg id).fn 0).state = .active ∧ le p 3 1 = 0) ∧
    ({ mgBoot (fun x => { x with trial := true }) with upd := { state := 4 } } : State).commitRefusal = none ∧ (mg id).commitRefusal = some (stUpdateState, 0) ∧
    (∀ i, i ∈ [(3, 12), (4, 2), (1, 16), (2, 2)] → let p : Bytes := [BitVec.ofNat 8 i.1, 0, 0, 0, 1] ++ zs (i.2 - 1)
     le p 0 1 = i.1 ∧ le p 1 3 = 0 ∧ p.length = 4 + i.2 ∧ (mg id).boardOk i.1 (p.drop 4) = true) ∧
    (mg id).boot.lc ≠ 5 ∧ (mg id).sets.ownerLock = false ∧
    up.boot.stage ≠ .off ∧ (let s := bt (fun x => { x with debugLc := some 2 })
     bit s.debugMask (reachRow .runControl) = false ∧ bit s.debugMask (reachRow .boundary) = true) ∧
    (let s := { thr 2 id [(17, { state := .halted, was := .waiting })] with boot := { up.boot with debugLc := some 4 } }
     s.boot.mainGood = true ∧ bit s.debugMask (reachRow .runControl) = true ∧ bit s.debugMask (reachRow .engineRegs) = true ∧
     (s.thread 16).state = .running ∧ (s.thread 17).state = .halted ∧ (s.cpHalf 0).running = true) := by
  and_intros <;> decide +kernel

/-- An owner key and a root key, with their digests; an installation key's digest. -/
def pubO : Bytes := toBe 96 0x08d999057ba3d2d969260045c55b97f089025959a6f434d651d207d19fb96e9e4fe0e86ebe0e64f85b96a9c75295df618e80f1fa5b1b3cedb7bfe8dffd6dba74b275d875bc6cc43e904e505f256ab4255ffd43e94d39e22d61501e700a940e80
def pubR : Bytes := toBe 96 0x077a41d4606ffa1464793c7e5fdc7d98cb9d3910202dcd06bea4f240d3566da6b408bbae5026580d02d7e5c70500c831c995f7ca0b0c42837d0bbe9602a9fc998520b41c85115aa5f7684c0edc111eacc24abd6be4b5d298b65f28600a2f1df1
def digO : Bytes := toBe 48 0x728f0b1f7c8f999347dca33c1964cf745779012692830edc267075562dc31278439732d095ad7c6363eb54eb284bc8e4
def digR : Bytes := toBe 48 0xa18a45e115b952dcc05dee42533f834bdf43530e098c305078c4b6884c6d0c2efc0ddcce1d4052b8a0fd514412c2c09f
def digK : Bytes := toBe 48 0xc4c2dac3518452f52a6e5384e053deaa35d93eb004b64fd66c858dbc5e3b9c7c7d65a056bfc4718249861c67343731c3
/-- A token: operation, argument, device serial 0, the challenge, a digest, the signature and its key. -/
def tok (op arg : Nat) (dig sig key : Bytes) : Bytes :=
  [BitVec.ofNat 8 op, BitVec.ofNat 8 arg, 0, 0] ++ zs 8 ++ List.replicate 32 0x5A ++ dig ++ sig ++ key
def tokLock : Bytes := tok 2 1 (zs 48) (toBe 96 0xd5d89c3b5282369c5fbd88e2b231511a6b80dff0e5152cf6a464fa9428a8583bac8ebc773d157811a462b892401dafcf2e94e65738dfae148e204008ad2815de5497d548f9fa863e6f22bc3ef15d5f614c98bf7be822e0dcdf91644ebb093580) pubO
def tokKik : Bytes := tok 3 3 digK (toBe 96 0xd5d89c3b5282369c5fbd88e2b231511a6b80dff0e5152cf6a464fa9428a8583bac8ebc773d157811a462b892401dafcf832ee3953e54a5ac5dfde31ecc7bc0496a9620c6b4777ddd3bbfea840ac101e9cc09785b19dedf5fa84f67a6341e6f36) pubO
def tokRoot : Bytes := tok 4 0 (zs 48) (toBe 96 0xdfb1fe3a40f7ac9b64c41d39360a7423828b97cb088a4903315e402a7089fa0f8b6c2355169cc9c99dfb44692a9b93dd588be1f3b8e12c211a3f59f97b364678c1556013548d5888a7b0f4f1a95dec0d878ac3a489cdc6d4b0a55c4ad22f524c) pubR
/-- An OWNED device whose challenge these tokens carry. -/
def owned (f : Boot → Boot) : State :=
  mgBoot (fun x => f { x with challenge := some (List.replicate 32 0x5A), owner := some digO, roots := [(0, digR)] })

theorem signed_lock : tokenSigned tokLock digO = true := by decide +kernel
theorem signed_kik : tokenSigned tokKik digO = true := by decide +kernel
theorem signed_root : tokenSigned tokRoot digR = true := by decide +kernel
theorem digest_kik : slice (tokKik) 44 48 = sha384 (List.replicate 32 0x11) := by decide +kernel

theorem witness_TokenCommands :
    (let s := owned (fun x => { x with lc := 1 })
     let t := tok 1 2 (zs 48) (zs 96) (zs 96)
     s.takes .i3c .board = true ∧ t.length = 284 ∧ le t 1 1 = 2 ∧ s.tokenFits (t.take 284) 1 2 = true ∧ s.lcSigned t s.boot.lc 2 = true ∧ s.boot.flashLeft = none ∧ s.boot.lc = 1 ∧
     s.tokenFits ((tok 2 2 [] [] []).take 284) 1 2 = false) ∧
    (let s := owned id
     s.takes .i3c .board = true ∧ s.boot.lc = 2 ∧ le tokLock 1 1 = 1 ∧ s.tokenFits tokLock 2 1 = true ∧ allZero (slice tokLock 44 48) = true ∧
     s.tokenFits tokRoot 4 0 = true ∧ allZero (slice tokRoot 44 48) = true ∧ le tokRoot 1 1 = 0) ∧
    (owned id).ownerToken tokLock = true ∧ (owned id).ownerToken tokKik = true ∧ (owned id).rootToken tokRoot = true ∧
    (let p : Bytes := [3, 0, 0, 0] ++ List.replicate 32 0x11 ++ tokKik
     p.length = 320 ∧ le p 0 1 = 3 ∧ le p 1 3 = 0 ∧ (owned id).tokenFits (p.drop 36) 3 3 = true ∧ p.drop 36 = tokKik ∧ slice p 4 32 = List.replicate 32 0x11) ∧
    slice tokKik 44 48 = sha384 (List.replicate 32 0x11) ∧
    (let s := bt (fun x => { x with stage := .first, lcNew := some 3 })
     s.boot.stage = .first ∧ s.boot.stbyGood = true ∧ RefClk.stby ∉ s.clock.missing ∧ s.boot.lcNew = some 3) := by
  refine ⟨by and_intros <;> decide +kernel, by and_intros <;> decide +kernel, signed_lock, signed_kik, ?_, by and_intros <;> decide +kernel, digest_kik, by and_intros <;> decide +kernel⟩
  have h : (owned id).boot.roots = [(0, digR)] := rfl
  simp only [State.rootToken, h, List.any_cons, List.any_nil, signed_root]
  decide

theorem witness_PlatformMessages :
    (mg id).takes .i3c .pldmBase = true ∧ ((mg id).pldmTypes .i3c).contains (0 : Byte).toNat = true ∧ (192 : BitVec 32).toNat ≤ 192 ∧
    (let s : State := { mg id with power := { samples := [(189, (-5, 0))] } }
     numericSensor (0x1BD : BitVec 16).toNat = true ∧ s.numericReading (0x1BD : BitVec 16).toNat = some (-5) ∧ (0x1BD : BitVec 16).toNat ∉ s.mgmt.disabled) ∧
    (2 : Byte).toNat ≤ 2 ∧ numericSensor (0x1BE : BitVec 16).toNat = false := by
  and_intros <;> decide +kernel

/-- An update of 5,000 bytes by PLDM with `next` of them staged. -/
def fw (st next : Nat) : State := { mg id with
  upd := { state := st, next := next, jpos := 1, jseq := 1
           journal := [(0, ({ type := 1, slot := 1, agent := 1, tag := 5, total := 5000, oldSeq := 0 } : JRec).bytes)] } }

theorem witness_FirmwareMessages :
    (mg id).takes .i3c .pldmUpdate = true ∧ (mg id).boot.stage ≠ .recovery ∧ (mg id).requestRefusal = none ∧ (mg id).boot.flashLeft = none ∧ (mg id).upd.worn.contains (mg id).upd.jpos = false ∧ (0x5121 : BitVec 16) ≠ 0x5120 ∧ (fw 2 5000).requestRefusal = some (stUpdateState, 2) ∧
    (mg id).beginRefusal (12582912 : BitVec 32).toNat (BitVec.ofNat 64 (5 : BitVec 32).toNat) 1 = none ∧
    (mg id).updResumes (12582912 : BitVec 32).toNat (BitVec.ofNat 64 (5 : BitVec 32).toNat) 1 = false ∧
    (fw 1 0).stageRefusal 1 = none ∧ (fw 1 0).pieceLen = (zs 4032).length ∧ (fw 1 0).upd.next + (zs 4032).length < (fw 1 0).updTotal ∧
    (fw 1 4032).pieceLen = (zs 968).length ∧ (fw 1 4032).updTotal = (fw 1 4032).upd.next + (zs 968).length ∧
    (fw 2 5000).armRefusal 1 = none ∧ (fw 2 5000).cancelRefusal = none := by
  and_intros <;> decide +kernel

theorem witness_AttestationMessages :
    (mg id).takes .i3c .spdm = true ∧ (true && false) = false ∧ (mg (fun m => { m with spdmOk := [0] })).mgmt.spdmOk.contains (bindNo .i3c) = true ∧
    (4088 : BitVec 16).toNat ≤ 4088 ∧ (mg id).hasIdentity = true ∧ (mgBoot (fun x => { x with lc := 4 })).hasIdentity = false ∧
    (mgBoot (fun x => { x with hwMeas := zs 8 })).measurement (9 : Byte).toNat = some (2, zs 8) ∧
    (let s := mg (fun m => { m with large := [(0, zs 4081)] })
     Tab.find (bindNo .i3c) s.mgmt.large = some (zs 4081) ∧ ((0 : BitVec 32).toNat + 1) * 4080 < (zs 4081).length) := by
  and_intros <;> decide +kernel

/-- Channel 2 initialised as `f` leaves it, with the passthrough. -/
def nc (f : NcsiChan → NcsiChan) : State :=
  { mg (fun m => { m with chans := [(1, { on := true }), (2, f {})], pass := some 2 }) with net := { lps := [(16, { state := .up, lanes := List.range 8 })] } }

theorem witness_SidebandMessages :
    (nc id).takes .i3c .ncsi = true ∧ Tab.find (1 : Fin 16).val (nc id).mgmt.chans = some { on := true } ∧ (nc id).ncChan 2 = some {} ∧
    Tab.find (15 : Fin 16).val (nc id).mgmt.chans = none ∧
    (let s := nc (fun x => { x with tx := true })
     s.mgmtOn = true ∧ s.mgmt.pass = some 2 ∧ s.ncChan 2 = some { tx := true } ∧ (s.lp (8 * 2)).state = .up ∧ (padTo60 eth).length ≤ 1518 ∧
     s.mgmt.txAt ≤ s.clock.now) ∧
    (mg (fun m => { m with pass := some 3 })).mgmt.pass = some 3 ∧ ((mg id).lp (8 * 3)).state ≠ .up ∧
    (let s := nc (fun x => { x with macs := [(0, [2, 0, 0, 0, 0, 1])] })
     (16 : LpId).val = 8 * 2 ∧ s.lpExists (16 : LpId) = true ∧ (s.lp (16 : LpId)).state = .up ∧ 64 ≤ (eth ++ fcsOf eth).length ∧
     isMacCtrl ((eth ++ fcsOf eth).take 60) = false ∧ ((s.ncChan 2).getD {}).takes ((eth ++ fcsOf eth).take 60) = true ∧ s.mgmt.passLevel ≤ 60000) := by
  and_intros <;> decide +kernel

/-! ## Rules stated whole, and the block -/

theorem witness_ChannelReceive :
    (let s := thr 2 (xs 9 0x3FFC0) [] [(9, { reader := 16, msgs := [zs 64, zs 64], full := [20] })]
     s.issues 16 = true ∧ (s.rv 16 6).toNat = 9 ∧ xlysTarget (s.rv 16 7).toNat 64 64 = true ∧ (s.chan 9).map (fun c => (c.orphan, s.chanCut 16 c)) = some (false, false) ∧
     (s.chan 9).map (fun c => (c.reader, c.msgs)) = some (16, [zs 64, zs 64]) ∧ (zs 64).length = 64) ∧
    (let s := thr 2 (xs 4095 0x400) [] [(4095, { reader := 17, msgs := [zs 64] })]
     (s.rv 16 6).toNat < 4096 ∧ xlysTarget (s.rv 16 7).toNat 64 64 = true ∧ (s.chan 4095).map (fun c => (c.reader, c.orphan, s.chanCut 16 c)) = some (17, false, false)) ∧
    (let s := thr 1 (fun t => { xs 9 0x420 t with mtvec := 0x200 })
     s.issues 16 = true ∧ xlysTarget (s.rv 16 7).toNat 64 64 = false ∧ (s.core (coreOf 16)).mode ≠ 2 ∧ (s.thread 16).mtvec ≠ 0) := by
  and_intros <;> decide +kernel

theorem witness_ThreadFaults :
    (let s := thr 0 (fun t => { t with mtvec := 0x200 })
     (s.core (coreOf 16)).mode ≠ 2 ∧ (s.thread 16).mtvec ≠ 0) ∧
    (let s := thr 2 id [(17, { state := .running, pc := 0x140 })]
     17 < 2048 ∧ (s.core (coreOf 17)).mode = 2 ∧ 17 % 16 ≠ 0) ∧
    ((thr 1 id).thread 16).mtvec = 0 ∧ (thr 2 (fun t => { t with state := .waiting })).issues (16 : ThreadId) = false := by
  and_intros <;> decide +kernel

theorem witness_BucketRecords :
    (let r := resId 7 3
     let b : Bucket := { level := 7, half := true, since := 5 }
     let s := hv (fun x => { x with buckets := [(r, b)] })
     let s := { s with clock := { s.clock with now := 5 + 2 * resLeak r } }
     s.bucket r = b ∧ b.since ≤ s.clock.now ∧ (s.clock.now - b.since) / resLeak r = 2 ∧ s.bucketNow r = { b with level := 5, since := s.clock.now } ∧
     5 + 3 < resThreshold r ∧ (resThreshold r + 1) / 2 ≤ 5 + 3 ∧ (hv id).bucketNow r = {} ∧ 0 + 8 < resThreshold r ∧
     0 + 7 < (resThreshold r + 1) / 2 ∧ resThreshold r ≤ 0 + 16) := by
  and_intros <;> decide +kernel

theorem witness_PowerCuts :
    up.canCut .power = true ∧ up.canCut .por = true ∧ up.canCut .warm = false ∧
    (cuttable 0 1 .i3c [] true 1 0 0 0 none []).length = 14 ∧
    (bt (fun x => { x with flashLeft := some 0 })).boot.flashLeft = some 0 ∧
    (let s := bt (fun x => { x with flashLeft := some 1 })
     s.boot.flashLeft = some (0 + 1) ∧ s.wpHolds (slotBase 1) = false) ∧
    Asks { op := 0x0803, cls := 1, issuer := 2, east := false, lenMin := 4, lenMax := 4 } (toLe 4 0) (updAt 2 1024 1024) (fun s p =>
      seqNewer (le p 0 4) s.runningSeq = true ∧ s.armRefusal 0 = none ∧ s.boot.stbyGood = true) ∧
    Asks { op := 0x0804, cls := 1, issuer := 2, east := false } [] (updAt 4 1024 0) (fun s _ => s.commitRefusal = none ∧ s.boot.stbyGood = true) := by
  and_intros <;> decide +kernel

theorem witness_MemoryErrors :
    resKind (resId 5 0) = 5 ∧ resKind (resId 4 0) = 4 := by
  and_intros <;> decide +kernel

theorem witness_IdleStep : up.pending = [] := by decide

/-- A command that changes nothing, waiting. -/
def idleCmd : State := { up with pending := [.rejoin true] }
theorem rejoin_not_due : execRejoin true up = .next up := by
  have h : up.mayRejoin = false := by decide +kernel
  simp only [execRejoin, h]
  rfl
theorem witness_QueueInOrder : exec (.rejoin true) up = .next up ∧ step idleCmd = .next up := ⟨rejoin_not_due, rejoin_not_due⟩
theorem witness_FlashKept : FlashOk idleCmd ∧ step idleCmd = .next up := ⟨by decide, rejoin_not_due⟩

/-! ## Ill-formed commands -/

theorem test_wellFormed_refuses :
    [Instr.descriptorReadDone 0 [([], [])], .rxPacketDelivery 0 .vector, .rxPacketDelivery 0 .carry, .rxPacketDelivery 0 (.buffer 0x05005000),
      .registerWrite (.bar0 0) 0 0 0 0 .ok, .registerWrite (.bar0 0) 0 9 0 0 .ok, .registerWrite (.bar0 0) 0 4097 0 0 .ok, .registerWrite (.bar0 0) 0 1 256 0 .ok, .registerWrite (.bar0 0) 0 1 0 256 .ok,
      .rcRegisterRead (.bar0 0) 0 0 0 .ok, .vfEnable 0 513, .vfDisable 0 513, .linkUp 0 0 16 false, .linkUp 0 4 16 false, .linkUp 0 1 12 false,
      .frameReceive 0 [] true 0 [], .frameTransmit 0 .vector, .ingressSlot 0 .carry, .ingressSlot 0 (.buffer 0x07000003), .stbyPwrgdRise 0 [0x01000080],
      .decrypt 0 [] [1], .microwordStep 0 { mem := [(0x04000100, true)] }, .csScrub 0 8192 .none, .hrtRelease { links := 6 },
      .hrtRelease { badCores := [40] }, .sensorSample 0 2147483648,
      .sensorSample 0 (-2147483649), .challenge .i3c 0 [], .getMeasurements .i3c 0 true [], .ncsiCommand .i3c 0 (.setMac 0 [1] true),
      .ncsiCommand .i3c 0 (.setVlanFilter 0 4096 true), .ncsiTxPassthrough []].all (fun c => !c.wellFormed) = true := by decide +kernel
theorem test_wellFormed_accepts :
    [Instr.registerWrite (.bar0 0) 0 1 255 255 .ok, .rxPacketDelivery 0 (.buffer 0x05404FFF), .vfEnable 0 512, .linkUp 0 3 16 false,
      .ingressSlot 0 .vector, .csScrub 0 8191 .none, .sensorSample 0 (-2147483648),
      .ncsiCommand .i3c 0 (.setVlanFilter 0 4095 true), .rejoin true, .stbyPwrgdRise 0 [0x01000007, 0x0600000B]].all (fun c => c.wellFormed) = true := by
  decide +kernel

/-! ## An image that verifies -/

/-- The words that the rounds of SHA-384 add for a block of 128 erased bytes, its rounds, and a block from its words (FIPS 180-4). -/
def erasedBlock : Bytes := List.replicate 128 0xFF
def erasedWords : List Nat :=
  [0x1428a2f98d728ae21, 0x17137449123ef65cc, 0x1b5c0fbcfec4d3b2e, 0x1e9b5dba58189dbbb, 0x13956c25bf348b537] ++
  [0x159f111f1b605d018, 0x1923f82a4af194f9a, 0x1ab1c5ed5da6d8117, 0x1d807aa98a3030241, 0x112835b0145706fbd] ++
  [0x1243185be4ee4b28b, 0x1550c7dc3d5ffb4e1, 0x172be5d74f27b896e, 0x180deb1fe3b1696b0, 0x19bdc06a725c71234] ++
  [0x1c19bf174cf692693, 0xea9b69c19ef14ace, 0xf5be4786384f25df, 0xe1d91e868b8cd592, 0xf624228c77ac9c42] ++
  [0x9bf90e2f49430160, 0xb884666a5ebee36e, 0xeccb0995408a5273, 0x10d13e8930659aa51, 0x1287fb80ca21f6574] ++
  [0x134a24da6e16cb7c2, 0x1150daae7f0d91b46, 0x1a06d0be71af507c2, 0xcd70cc0ac193dbd3, 0x11bc5e3e9032f3856] ++
  [0xfc032678bca316ce, 0x472954a38c772a00, 0x111b2965c6274bce5, 0x5e62fc5ed830b139, 0x53bc0162e6ca319e] ++
  [0x14893cf3fdc786ffb, 0x6a9f0e5b2c74b782, 0x12ef891a0d0fd2771, 0xa25a604b658a1140, 0x17b27c332a91aa538] ++
  [0xe16b9f3d7a32bd82, 0x13c36bd17265c0434, 0x18f41a146640b93cb, 0xd88cff98f451521d, 0x15e7b6a2357435061] ++
  [0xfd0e67f5963ed7c6, 0x176902916023b9649, 0xb5c26b84c7542257, 0x7bf634d2bd9aac92, 0x6ffaa92d5de8101f] ++
  [0x8f265a5ebd1e41a5, 0xa18160fe92fb0798, 0x4f66be7ea3d5c940, 0x64fc0547892baa91, 0x69c648c6f3ac524c] ++
  [0xa7063a3dd982e71d, 0x7a58fdd591074b45, 0xc557f8c509c015ea, 0x101883baafa582d29, 0xbb8b03b8f20d76f9] ++
  [0xed5518767f7e9110, 0x109f1816a7e601775, 0x158370fbbaaf70f76, 0xf4d0b44a97ab4c9a, 0x13682bc4e01fa0b0e] ++
  [0x14cbd94cb7bedc1a1, 0x15e9e51e83203a5be, 0x15cad07b047ddeb95, 0x188d98286523dd53, 0xf36ddcc7659fa65a] ++
  [0xb40dc46d988ac064, 0x3ccf864e38f21d5e, 0x7914fba477cf6822, 0xadd9fb8087c8f010, 0x987eb81eadbe5612] ++
  [0x12b266215d8c240fb, 0x9e5f1977c939888f, 0x113b66943ec0e171d, 0xf7fc3e54a05879ae, 0xefc5825a5f2b9471]
def rot (x p q : Nat) : Nat := Nat.mod (Nat.add (Nat.div x p) (Nat.mul x q)) 18446744073709551616
def big (x n1 m1 n2 m2 n3 m3 : Nat) : Nat := Nat.xor (Nat.xor (rot x n1 m1) (rot x n2 m2)) (rot x n3 m3)
def sum1 (e f g i kw : Nat) : Nat :=
  Nat.add (Nat.add (Nat.add i (big e 0x4000 0x4000000000000 0x40000 0x400000000000 0x20000000000 0x800000))
    (Nat.xor (Nat.land e f) (Nat.land (Nat.sub 18446744073709551615 e) g))) kw
def sum2 (a b c : Nat) : Nat :=
  Nat.add (big a 0x10000000 0x1000000000 0x400000000 0x40000000 0x8000000000 0x2000000) (Nat.xor (Nat.xor (Nat.land a b) (Nat.land a c)) (Nat.land b c))
def go : List Nat → Nat → Nat → Nat → Nat → Nat → Nat → Nat → Nat → List Nat
  | [], a, b, c, d, e, f, g, i => [a, b, c, d, e, f, g, i]
  | kw :: ks, a, b, c, d, e, f, g, i =>
    go ks (Nat.mod (Nat.add (sum1 e f g i kw) (sum2 a b c)) 18446744073709551616) a b c (Nat.mod (Nat.add d (sum1 e f g i kw)) 18446744073709551616) e f g
theorem go_eq (ks : List Nat) : ∀ a b c d e f g i, ks.foldl sha2large.round [a, b, c, d, e, f, g, i] = go ks a b c d e f g i := by
  induction ks with
  | nil => intros; rfl
  | cons k ks ih => intro a b c d e f g i; exact ih _ _ _ _ _ _ _ _
theorem erasedWords_eq :
    List.zipWith (· + ·) sha2large.ks (sha2large.schedule (sha2large.rounds - 16) (sha2large.words erasedBlock).reverse).reverse = erasedWords := by
  decide +kernel
def erasedStep (v : List Nat) : List Nat := match v with
  | [a, b, c, d, e, f, g, i] => List.zipWith (fun a b => Nat.mod (Nat.add a b) 18446744073709551616) v (go erasedWords a b c d e f g i)
  | v => sha2large.compress v erasedBlock
theorem compress_erased (v : List Nat) : sha2large.compress v erasedBlock = erasedStep v := by
  unfold erasedStep
  split
  · simp only [Sha.compress, erasedWords_eq, go_eq]; rfl
  · rfl
def erasedSteps : Nat → List Nat → List Nat
  | 0, v => v
  | n + 1, v => erasedSteps n (erasedStep v)
theorem erasedSteps_add (m n : Nat) (v : List Nat) : erasedSteps (m + n) v = erasedSteps n (erasedSteps m v) := by
  induction m generalizing v with
  | zero => rw [Nat.zero_add]; rfl
  | succ m ih => rw [Nat.succ_add]; exact ih _
theorem foldl_erased (n : Nat) (v : List Nat) : (List.replicate n erasedBlock).foldl sha2large.compress v = erasedSteps n v := by
  induction n generalizing v with
  | zero => rfl
  | succ n ih => rw [List.replicate_succ, List.foldl_cons, compress_erased]; exact ih _
theorem blocksOf_cons (b t : Bytes) (n : Nat) (h : b.length = 128) : blocksOf 128 (n + 1) (b ++ t) = b :: blocksOf 128 n t := by
  show slice (b ++ t) 0 128 :: blocksOf 128 n ((b ++ t).drop 128) = _
  rw [List.drop_left' h]
  simp [slice, List.take_left' h, h]
theorem blocksOf_append (a t : Bytes) : ∀ m n, a.length = 128 * m → blocksOf 128 (m + n) (a ++ t) = blocksOf 128 m a ++ blocksOf 128 n t := by
  intro m
  induction m generalizing a with
  | zero => intro n h; rw [List.eq_nil_of_length_eq_zero h]; simp [blocksOf]
  | succ m ih =>
    intro n h
    have h1 : (a.take 128).length = 128 := by rw [List.length_take]; omega
    have h2 : (a.drop 128).length = 128 * m := by rw [List.length_drop]; omega
    have e : a = a.take 128 ++ a.drop 128 := (List.take_append_drop 128 a).symm
    rw [e, List.append_assoc, Nat.succ_add, blocksOf_cons _ _ _ h1, blocksOf_cons _ _ _ h1, ih _ n h2]; rfl
theorem erasedBlock_length : erasedBlock.length = 128 := List.length_replicate ..
theorem blocks_erased (k n : Nat) (t : Bytes) :
    blocksOf 128 (k + n) (List.replicate (128 * k) 0xFF ++ t) = List.replicate k erasedBlock ++ blocksOf 128 n t := by
  induction k with
  | zero => simp
  | succ k ih =>
    have e : List.replicate (128 * (k + 1)) (0xFF : Byte) = erasedBlock ++ List.replicate (128 * k) 0xFF := by
      unfold erasedBlock; rw [List.replicate_append_replicate]; congr 1; omega
    rw [e, List.append_assoc, Nat.succ_add, blocksOf_cons _ _ _ erasedBlock_length, ih]; rfl

theorem pad_tail (a : Bytes) (m k : Nat) (h : a.length = 128 * m) : sha2large.pad (a ++ List.replicate (128 * k) 0xFF) =
    blocksOf 128 m a ++ (List.replicate k erasedBlock ++ [[0x80] ++ zs 111 ++ toBe 16 (8 * (128 * m + 128 * k))]) := by
  have hn : (128 * m + 128 * k + 1 + 16 + 128 - 1) / 128 = m + (k + 1) := by omega
  have hz : (m + (k + 1)) * 128 - (128 * m + 128 * k + 1 + 16) = 111 := by omega
  have hl : (a ++ List.replicate (128 * k) (0xFF : Byte)).length = 128 * m + 128 * k := by rw [List.length_append, List.length_replicate, h]
  have e : ∀ x : Bytes, sha2large.pad x = blocksOf 128 ((x.length + 1 + 16 + 128 - 1) / 128) (x ++ [0x80] ++
      List.replicate ((x.length + 1 + 16 + 128 - 1) / 128 * 128 - (x.length + 1 + 16)) 0 ++ toBe 16 (8 * x.length)) := fun _ => rfl
  have hb : ([0x80] ++ (List.replicate 111 0 ++ toBe 16 (8 * (128 * m + 128 * k))) : Bytes).length = 128 := by
    rw [List.length_append, List.length_append, List.length_replicate, toBe_length]; rfl
  rw [e, hl, hn, hz]
  simp only [List.append_assoc]
  rw [blocksOf_append a _ m (k + 1) h, blocks_erased k 1]
  have := blocksOf_cons ([0x80] ++ (List.replicate 111 0 ++ toBe 16 (8 * (128 * m + 128 * k)))) [] 0 hb
  rw [List.append_nil] at this
  rw [this]; rfl

theorem erased_0 : erasedSteps 128 [0xcbbb9d5dc1059ed8, 0x629a292a367cd507, 0x9159015a3070dd17, 0x152fecd8f70e5939, 0x67332667ffc00b31, 0x8eb44a8768581511, 0xdb0c2e0d64f98fa7, 0x47b5481dbefa4fa4] =
    [0x71266ffbcacc5d04, 0xfe51df98ef9401bf, 0xbcac75c9c4081260, 0xda44de500838e6d5, 0xf2893c0c20536c28, 0xfe466b834b2357a6, 0xa467a903a04c7757, 0xdca9bf158562bd75] := by decide +kernel
theorem erased_128 : erasedSteps 128 [0x71266ffbcacc5d04, 0xfe51df98ef9401bf, 0xbcac75c9c4081260, 0xda44de500838e6d5, 0xf2893c0c20536c28, 0xfe466b834b2357a6, 0xa467a903a04c7757, 0xdca9bf158562bd75] =
    [0x3730fa6590a87ec8, 0x8562c1098751f6b4, 0x14a13e0131170ec, 0x341f40d6133bb9a, 0x219d394cfe0d0aeb, 0x2fdb9baa36ff7513, 0xe12eed1d5dcf7f9b, 0xd5692d1aefad135a] := by decide +kernel
theorem erased_256 : erasedSteps 128 [0x3730fa6590a87ec8, 0x8562c1098751f6b4, 0x14a13e0131170ec, 0x341f40d6133bb9a, 0x219d394cfe0d0aeb, 0x2fdb9baa36ff7513, 0xe12eed1d5dcf7f9b, 0xd5692d1aefad135a] =
    [0x9cae7285d7493664, 0xd973ce85d236e38a, 0x78d759b823b5f440, 0x43b1d281531f901f, 0x3a16fa3c0d258b0d, 0xf0a9c9d24d2e3701, 0xfdfb97e8223727fb, 0x10642179266a9bd7] := by decide +kernel
theorem erased_384 : erasedSteps 128 [0x9cae7285d7493664, 0xd973ce85d236e38a, 0x78d759b823b5f440, 0x43b1d281531f901f, 0x3a16fa3c0d258b0d, 0xf0a9c9d24d2e3701, 0xfdfb97e8223727fb, 0x10642179266a9bd7] =
    [0x33f089d04f19cf5, 0x66c653526ef3d384, 0x7bef6338f1ae59de, 0xdc9c2c603bfc06f9, 0xca72cedeced57d22, 0xf9229701ff0f7b60, 0x944af7942701f351, 0x8fb2476802746000] := by decide +kernel
/-- The digest of a block of the image that is erased. -/
def erasedDigest : Bytes := toBe 48 0x83508fc42a5f058f7bf53fb5291d7cd1cd66bd48a40e3580c2b7bbf676445cd6d8bfe4b06795d03913d213174cc01ffb
theorem iv_eq : ((primes80.drop 8).take 8).map (fracRoot 2) = [0xcbbb9d5dc1059ed8, 0x629a292a367cd507, 0x9159015a3070dd17, 0x152fecd8f70e5939, 0x67332667ffc00b31, 0x8eb44a8768581511, 0xdb0c2e0d64f98fa7, 0x47b5481dbefa4fa4] := by decide +kernel
theorem sha_erased : sha384 (List.replicate 65536 0xFF) = erasedDigest := by
  have hp := pad_tail [] 0 512 rfl
  unfold sha384 Sha.digest
  rw [show sha2large.pad (List.replicate 65536 0xFF) = _ from hp, List.foldl_append, List.foldl_append, foldl_erased, iv_eq, show blocksOf 128 0 [] = [] from rfl, List.foldl_nil, show 512 = 128 + (128 + (128 + 128)) from rfl, erasedSteps_add, erased_0, erasedSteps_add, erased_128,
    erasedSteps_add, erased_256, erased_384]
  decide +kernel

/-- The manifest of an image of six erased blocks, one to a part; its directory, reserved bytes and hash table; the bytes up to the signatures; and
the signature of root key 0. -/
def imgMan : Bytes := toLe 4 0x54464E4D ++ toLe 2 1 ++ toLe 2 6 ++ toLe 8 5 ++ toLe 4 0x64000 ++ toLe 2 6 ++ toLe 2 0 ++ toLe 4 1 ++ zs 36
def imgDir : Bytes := (List.range 6).flatMap (fun k => toLe 2 (k + 1) ++ toLe 2 k ++ toLe 4 1 ++ toLe 4 65536 ++ toLe 4 1 ++ zs 16)
def imgHead : Bytes := imgMan ++ imgDir ++ zs 832 ++ zs 192 ++ (List.replicate 6 erasedDigest).flatten
def imgSigned : Bytes := imgHead ++ List.replicate 13792 0xFF
def imgSig : Bytes := zs 4 ++ pubR ++ toBe 96 0x099056e27da7b998da1eeec2904816c57fe935ed5837c37456c9fd14892d3f8c4749b66e3afb81d626356f3b55b4ddd8e8baf8e3ce386b2c528418c2b0dc5a2dccdff97bbf6353ac9269f2b551b36b0a831c61c55b197bbb56a3bf610a3ac8b1 ++ zs 60
def image : Bytes := imgSigned ++ imgSig

theorem signed_head : (blocksOf 128 13 (imgHead ++ List.replicate 96 0xFF)).foldl sha2large.compress [0xcbbb9d5dc1059ed8, 0x629a292a367cd507, 0x9159015a3070dd17, 0x152fecd8f70e5939, 0x67332667ffc00b31, 0x8eb44a8768581511, 0xdb0c2e0d64f98fa7, 0x47b5481dbefa4fa4] =
    [0x87d142f1dd9349aa, 0x58731b47958fc7d7, 0xd3014d38387a78dc, 0x6dfc63eede4742ca, 0x5385050c18120e6b, 0x3664660f198e451e, 0x3342cc9b716ecb91, 0x69005f0ced6614fd] := by decide +kernel
theorem signed_tail : erasedSteps 107 [0x87d142f1dd9349aa, 0x58731b47958fc7d7, 0xd3014d38387a78dc, 0x6dfc63eede4742ca, 0x5385050c18120e6b, 0x3664660f198e451e, 0x3342cc9b716ecb91, 0x69005f0ced6614fd] =
    [0x4397e3f0850fc786, 0x4aa04138604fa58f, 0xbce7b2bfe7324e19, 0xc68dcde80fb30388, 0xc99c89bf7bb19e25, 0x7d1b3370833af646, 0x7b2ab5ba736cbf15, 0x419e407661f0dba4] := by decide +kernel
theorem sha_signed : sha384 imgSigned = toBe 48 0xe357ad2263756e1cfd504415e89f9ba74de41689309d4e0f43b1bcfb513d3df4b37094ebaaefe837f21c06b83c799108 := by
  have ha : (imgHead ++ List.replicate 96 0xFF).length = 128 * 13 := by decide +kernel
  have hs : imgSigned = (imgHead ++ List.replicate 96 0xFF) ++ List.replicate (128 * 107) 0xFF := by
    rw [List.append_assoc, List.replicate_append_replicate]; rfl
  have hp := pad_tail _ 13 107 ha
  unfold sha384 Sha.digest
  rw [hs, hp, List.foldl_append, List.foldl_append, iv_eq, signed_head, foldl_erased, signed_tail]
  decide +kernel
theorem image_signed : sigOk imgSig digR imgSigned = true := by
  unfold sigOk ecdsaVerify
  rw [sha_signed]
  decide +kernel

/-- The image in slot 1 above the bytes `m`. -/
def imgFlash (m : Tab Byte) : Tab Byte := Mem.write 0xFF m 0xD00000 image

/-- The state's flash holds the image in slot 1 above the bytes `m`, its Molgori root is the image's, and it has no owner. -/
structure HasImage (m : Tab Byte) (s : State) : Prop where
  flash : s.boot.flash = imgFlash m
  below : ∀ e ∈ m, e.1 < 0xD00000
  roots : s.boot.roots = [(0, digR)]
  revoked : s.boot.revoked = 0
  owner : s.boot.owner = none
  stepping : s.boot.stepping = 0

theorem imgHead_length : imgHead.length = 1568 := by decide +kernel
theorem imgSigned_length : imgSigned.length = 15360 := by rw [imgSigned, List.length_append, imgHead_length, List.length_replicate]
theorem image_length : image.length = 15616 := by
  rw [image, List.length_append, imgSigned_length, show imgSig.length = 256 by decide +kernel]
theorem image_read {m : Tab Byte} {s : State} (h : HasImage m s) (o n : Nat) (hn : o + n ≤ 15616) : s.flashRead (0xD00000 + o) n = (image.drop o).take n := by
  rw [State.flashRead, h.flash, imgFlash, Mem.read_write_in _ _ _ _ _ _ (by rw [image_length]; exact hn)]
theorem image_body {m : Tab Byte} {s : State} (h : HasImage m s) (i : Nat) :
    s.flashRead (0xD00000 + 0x4000 + 65536 * i) 65536 = List.replicate 65536 0xFF := by
  rw [State.flashRead, h.flash, imgFlash, Mem.read_write_out _ _ _ _ _ _ (by rw [image_length]; omega)]
  exact Mem.read_unlisted _ _ _ _ (fun e he => .inl (by have := h.below e he; omega))
theorem image_man {m : Tab Byte} {s : State} (h : HasImage m s) : s.flashRead (slotBase 1) 64 = imgMan :=
  (image_read h 0 64 (by decide)).trans (by decide +kernel)
theorem image_dir {m : Tab Byte} {s : State} (h : HasImage m s) : s.flashRead (slotBase 1 + 0x40) 192 = imgDir :=
  (image_read h 0x40 192 (by decide)).trans (by decide +kernel)
theorem image_reserved {m : Tab Byte} {s : State} (h : HasImage m s) : s.flashRead (slotBase 1 + 0x100) 832 = zs 832 :=
  (image_read h 0x100 832 (by decide)).trans (by decide +kernel)
theorem image_hash {m : Tab Byte} {s : State} (h : HasImage m s) : ∀ i, i < 6 → s.flashRead (slotBase 1 + 0x500 + 48 * i) 48 = erasedDigest := by
  intro i hi
  have e := image_read h (0x500 + 48 * i) 48 (by omega)
  rw [show slotBase 1 + 0x500 + 48 * i = 0xD00000 + (0x500 + 48 * i) by rw [show slotBase 1 = 0xD00000 from rfl]; omega, e]
  have : ∀ j : Fin 6, (image.drop (0x500 + 48 * j.val)).take 48 = erasedDigest := by decide +kernel
  exact this ⟨i, hi⟩
theorem image_signedPart {m : Tab Byte} {s : State} (h : HasImage m s) : s.flashRead (slotBase 1) 0x3C00 = imgSigned :=
  (image_read h 0 0x3C00 (by decide)).trans (List.take_left' imgSigned_length)
theorem image_sig {m : Tab Byte} {s : State} (h : HasImage m s) : s.flashRead (slotBase 1 + 0x3C00) 256 = imgSig := by
  refine (image_read h 0x3C00 256 (by decide)).trans ?_
  rw [image, List.drop_left' imgSigned_length]
  decide +kernel
theorem image_manifest {m : Tab Byte} {s : State} (h : HasImage m s) : s.manifest 1 =
    { tag := 5, len := 0x64000, blocks := 6, setsFormat := 0, stepMask := 1, ownerSigned := false, ok := true } := by
  simp only [State.manifest, image_man h]
  decide +kernel
theorem image_parts {m : Tab Byte} {s : State} (h : HasImage m s) : s.parts 1 = (List.range 6).map (fun i => ⟨i + 1, i, 1, 65536, 1⟩) := by
  simp only [State.parts, image_dir h]
  decide +kernel
theorem image_blocks {m : Tab Byte} {s : State} (h : HasImage m s) : ∀ k, 1 ≤ k → k ≤ 6 → s.badBlock 1 k = none := by
  intro k h1 h2
  have hb : s.blockOk 1 (k - 1) = true := by
    rw [State.blockOk, show slotBase 1 + 0x4000 + 65536 * (k - 1) = 0xD00000 + 0x4000 + 65536 * (k - 1) from rfl, image_body h, image_hash h _ (by omega), sha_erased]
    exact beq_self_eq_true _
  have hp : s.partOf 1 k = some ⟨k, k - 1, 1, 65536, 1⟩ := by
    rw [State.partOf, image_parts h]
    rcases (by omega : k = 1 ∨ k = 2 ∨ k = 3 ∨ k = 4 ∨ k = 5 ∨ k = 6) with e | e | e | e | e | e <;> subst e <;> rfl
  simp only [State.badBlock, hp]
  rw [show ((List.range 1).map (· + (k - 1))) = [k - 1] by simp]
  simp [hb]
theorem image_first {m : Tab Byte} {s : State} (h : HasImage m s) : s.firstCheck 1 = none := by
  have hd : s.directoryOk 1 = true := by
    simp only [State.directoryOk, image_parts h, image_manifest h, image_reserved h]
    decide +kernel
  have hs : s.signaturesOk 1 = true := by
    have hr : s.rootSigOk imgSig imgSigned = true := by
      rw [State.rootSigOk, show le imgSig 0 4 = 0 by decide +kernel, h.roots, h.revoked]
      simp only [Tab.find_cons, if_true, image_signed]
      decide
    rw [State.signaturesOk, image_sig h, image_signedPart h, hr, h.owner]
    rfl
  have hb := image_blocks h 1 (by omega) (by omega)
  simp only [State.firstCheck, hd, hs, hb, image_manifest h, h.stepping]
  decide +kernel
theorem image_ok {m : Tab Byte} {s : State} (h : HasImage m s) : s.imageOk 1 = true := by
  simp only [State.imageOk, image_first h, List.all_cons, List.all_nil, image_blocks h 2 (by omega) (by omega), image_blocks h 3 (by omega) (by omega),
    image_blocks h 4 (by omega) (by omega), image_blocks h 5 (by omega) (by omega), image_blocks h 6 (by omega) (by omega)]
  rfl

/-- Slots `m` armed, in a flash `fl`. -/
def startIn (fl : Tab Byte) : State := { State.reset with boot := { stage := .first, lc := 2, debugLc := some 2, roots := [(0, digR)], flash := fl } }
theorem startIn_has {m fl : Tab Byte} (hf : fl = imgFlash m) (hm : ∀ e ∈ m, e.1 < 0xD00000) : HasImage m (startIn fl) := ⟨hf, hm, rfl, rfl, rfl, rfl⟩
/-- Slots 0 and 1 armed, slot 0 committed. -/
def recs01 : Tab Byte := armRec 0 ++ listed (recordBase 0 + 0x200) (markBytes 0x54494D43) ++ armRec 1
theorem below_1 : ∀ e ∈ armRec 1, e.1 < 0xD00000 := by decide +kernel
theorem below_01 : ∀ e ∈ recs01, e.1 < 0xD00000 := by decide +kernel

/-- A read of the slot records does not see the image. -/
theorem startIn_rec {m fl : Tab Byte} (hf : fl = imgFlash m) (b n : Nat) (h : b + n ≤ 0xD00000) : (startIn fl).flashRead b n = (startIn m).flashRead b n := by
  rw [State.flashRead, State.flashRead]
  show Mem.read 0xFF fl b n = Mem.read 0xFF m b n
  rw [hf, imgFlash]
  exact Mem.read_write_out _ _ _ _ _ _ (.inl h)
theorem startIn_mark {m fl : Tab Byte} (hf : fl = imgFlash m) (k o c : Nat) (h : k < 2) (ho : o ≤ 0x300) :
    (startIn fl).markSet k o c = (startIn m).markSet k o c := by
  rw [State.markSet, State.markSet, startIn_rec hf _ _ (by simp only [recordBase]; omega)]
theorem startIn_armed {m fl : Tab Byte} (hf : fl = imgFlash m) (k : Nat) (h : k < 2) : (startIn fl).armed k = (startIn m).armed k := by
  rw [State.armed, State.armed, startIn_rec hf _ _ (by simp only [recordBase]; omega)]
theorem startIn_rollback {m fl : Tab Byte} (hf : fl = imgFlash m) (h0 : (startIn m).trialMark 0 = false) (h1 : (startIn m).trialMark 1 = false) :
    (startIn fl).rollback = startIn fl := by
  have e0 : (startIn fl).trialMark 0 = false := (startIn_mark hf 0 _ _ (by decide) (by decide)).trans h0
  have e1 : (startIn fl).trialMark 1 = false := (startIn_mark hf 1 _ _ (by decide) (by decide)).trans h1
  simp only [State.rollback, State.each, e0, e1, Bool.and_false, Bool.false_and, Bool.false_eq_true, if_false]
theorem startIn_candidate {m fl : Tab Byte} (hf : fl = imgFlash m) (k : Nat) (h : k < 2) (hc : (startIn m).candidate k = true) :
    (startIn fl).candidate k = true := by
  rw [← hc, State.candidate, State.candidate, startIn_armed hf k h, State.revokeMark, State.revokeMark, startIn_mark hf k _ _ h (by decide)]; rfl
theorem startIn_none {m fl : Tab Byte} (hf : fl = imgFlash m) (k : Nat) (h : k < 2) (hc : (startIn m).armed k = false) :
    (startIn fl).candidate k = false := by
  rw [State.candidate, startIn_armed hf k h, hc]; rfl
theorem startIn_seq {m fl : Tab Byte} (hf : fl = imgFlash m) (k : Nat) (h : k < 2) : (startIn fl).slotSeq k = (startIn m).slotSeq k := by
  rw [State.slotSeq, State.slotSeq, startIn_rec hf _ _ (by simp only [recordBase]; omega)]
theorem startIn_bad {m fl : Tab Byte} (hf : fl = imgFlash m) (hc : ((startIn m).manifest 0).ok = false) : (startIn fl).firstCheck 0 = some (0, 0) := by
  have h : (startIn fl).manifest 0 = (startIn m).manifest 0 := by
    simp only [State.manifest]; rw [startIn_rec hf _ _ (by decide)]
  simp only [State.firstCheck, h, hc]; rfl

/-- Where no flash read fails, a slot's check is its first check. -/
theorem slotCheck_none (s : State) (k : Nat) (h : s.firstCheck k = none) : s.slotCheck [] k = none := by rw [State.slotCheck, h]; rfl
theorem slotCheck_some (s : State) (k : Nat) (x : Nat × Nat) (h : s.firstCheck k = some x) : s.slotCheck [] k = some x := by rw [State.slotCheck, h]; rfl

/-- A committed slot that fails gets its bit in the mask; the flash stays. -/
theorem failSlot_committed (s : State) (slot p b r : Nat) (h : s.commitMark slot = true) :
    (s.failSlot slot p b r).boot = { s.boot with failMask := if bit s.boot.failMask slot then s.boot.failMask else s.boot.failMask + 2 ^ slot } := by
  have e : ({ s with boot := { s.boot with failMask := if bit s.boot.failMask slot then s.boot.failMask else s.boot.failMask + 2 ^ slot } } : State).commitMark slot
      = true := h
  simp only [State.failSlot, e, if_true]
  rfl

/-- A good slot 1 starts where slot 0 is not armed, and where slot 0 is preferred but does not verify. -/
theorem witness_Starts_good {fl fl' : Tab Byte} (h : fl = imgFlash (armRec 1)) (h' : fl' = imgFlash recs01) :
    (let r := (startIn fl).takeLc.rollback
     r.candidate 1 = true ∧ r.candidate 0 = false ∧ r.slotCheck [] 1 = none) ∧
    (let r := (startIn fl').takeLc.rollback
     r.candidate 0 = true ∧ r.preferB = decide (0 = 1) ∧ r.candidate 1 = true ∧ r.slotCheck [] 0 = some (0, 0) ∧ (r.failSlot 0 0 0 1).slotCheck [] 1 = none) := by
  have r1 := startIn_rollback h (by decide +kernel) (by decide +kernel)
  have r2 := startIn_rollback h' (by decide +kernel) (by decide +kernel)
  have hc := failSlot_committed (startIn fl') 0 0 0 1 ((startIn_mark h' 0 _ _ (by decide) (by decide)).trans (by decide +kernel))
  have f2 : HasImage recs01 ((startIn fl').failSlot 0 0 0 1) := by
    constructor
    · rw [hc]; exact h'
    · exact below_01
    all_goals rw [hc]; rfl
  dsimp only
  rw [show (startIn fl).takeLc = startIn fl from rfl, show (startIn fl').takeLc = startIn fl' from rfl, r1, r2]
  refine ⟨⟨startIn_candidate h 1 (by decide) (by decide +kernel), startIn_none h 0 (by decide) (by decide +kernel), slotCheck_none _ _ (image_first (startIn_has h below_1))⟩,
    startIn_candidate h' 0 (by decide) (by decide +kernel), ?_, startIn_candidate h' 1 (by decide) (by decide +kernel), slotCheck_some _ _ _ (startIn_bad h' (by decide +kernel)),
    slotCheck_none _ _ (image_first f2)⟩
  rw [State.preferB, startIn_seq h' 0 (by decide), startIn_seq h' 1 (by decide), State.commitMark, State.commitMark, startIn_mark h' 0 _ _ (by decide) (by decide),
    startIn_mark h' 1 _ _ (by decide) (by decide)]
  decide +kernel

/-- The recovery loader in its second session, with an empty flash: what it writes verifies. -/
def recov : State := { State.reset with boot := { stage := .recovery, lc := 2, roots := [(0, digR)] } }
theorem recov_writes (img : Bytes) :
    (((recov.eraseRecord 1).flashErase (slotBase 1) 12582912).flashWrite (slotBase 1) img).boot.flash = Mem.write 0xFF [] 0xD00000 img := rfl
theorem witness_Recovery_good {img : Bytes} (h : img = image) :
    recov.boot.stage = .recovery ∧ recov.boot.flashLeft = none ∧ (recov.boot.sessions + 1) % 2 = 1 ∧ img.length ≤ 12582912 ∧
    (((recov.eraseRecord 1).flashErase (slotBase 1) 12582912).flashWrite (slotBase 1) (img.take 12582912)).imageOk 1 = true := by
  have hl : img.length ≤ 12582912 := by rw [h, image_length]; decide
  refine ⟨rfl, rfl, rfl, hl, ?_⟩
  rw [List.take_of_length_le hl]
  exact image_ok (m := []) ⟨by rw [recov_writes, h, imgFlash], fun e he => absurd he (List.not_mem_nil), rfl, rfl, rfl, rfl⟩

/-! ## Vectors of the public standards -/

/-- The ASCII digits 1 to 9, the check input of the CRC catalogues. -/
def digits19 : Bytes := [0x31, 0x32, 0x33, 0x34, 0x35, 0x36, 0x37, 0x38, 0x39]
theorem test_crc32c : crc32c 0 digits19 = 0xE3069283 := by decide +kernel
theorem test_fcs : fcsOf digits19 = toLe 4 0xCBF43926 := by decide +kernel
/-- FIPS 180-4, "abc". -/
theorem test_sha256 : sha256 [0x61, 0x62, 0x63] = toBe 32 0xba7816bf8f01cfea414140de5dae2223b00361a396177a9cb410ff61f20015ad := by decide +kernel
theorem test_sha384 : sha384 [0x61, 0x62, 0x63] =
    toBe 48 0xcb00753f45a35e8bb5a03d699ac65007272c32ab0eded1631a8b605a43ff5bed8086072ba1e7cc2358baeca134c825a7 := by decide +kernel
/-- The GCM specification's test cases 2 and 14: one block of zeros under a zero key. -/
theorem test_gcm128 : aeadSeal 0 (zs 16) (zs 12) [] (zs 16) = (toBe 16 0x0388dace60b6a392f328c2b971b2fe78, toBe 16 0xab6e47d42cec13bdf53a67b21257bddf) := by
  decide +kernel
theorem test_gcm256 : aeadSeal 1 (zs 32) (zs 12) [] (zs 16) = (toBe 16 0xcea7403d4d606b6e074ec5d3baf39d18, toBe 16 0xd0d1c8a799996bf0265b98b5d48ab919) := by
  decide +kernel
/-- RFC 8439, 2.8.2. -/
theorem test_chacha : (aeadSeal 2 ((List.range 32).map (fun i => BitVec.ofNat 8 (0x80 + i))) [7, 0, 0, 0, 0x40, 0x41, 0x42, 0x43, 0x44, 0x45, 0x46, 0x47]
    [0x50, 0x51, 0x52, 0x53, 0xc0, 0xc1, 0xc2, 0xc3, 0xc4, 0xc5, 0xc6, 0xc7]
    (toBe 114 0x4c616469657320616e642047656e746c656d656e206f662074686520636c617373206f66202739393a204966204920636f756c64206f6666657220796f75206f6e6c79206f6e652074697020666f7220746865206675747572652c2073756e73637265656e20776f756c642062652069742e)).2 = toBe 16 0x1ae10b594f09e26a7e902ecbd0600691 := by decide +kernel

/-! ## Effects on small states -/

/-- An outcome is a next state of which `f` holds. -/
def nextHas (o : Outcome) (f : State → Bool) : Bool := match o with | .next u => f u | _ => false

theorem test_wait : nextHas (exec (.lysWait 16 5 6) (thr 2 (fun t => { xs 16 0 t with events := 48 })))
    (fun u => (u.thread 16).reg 5 == 16 && (u.thread 16).events == 32 && (u.thread 16).pc == 0x104) = true := by decide +kernel
theorem test_sub : nextHas (exec (.instruction 16 .none) (ins 2 0x407302B3 (xs 5 9))) (fun u => (u.thread 16).reg 5 == 0xFFFFFFFFFFFFFFFC) = true := by
  decide +kernel
theorem test_lui_signs : nextHas (exec (.instruction 16 .none) (ins 2 0x800002B7)) (fun u => (u.thread 16).reg 5 == 0xFFFFFFFF80000000) = true := by
  decide +kernel
theorem test_compressed_li : nextHas (exec (.instruction 16 .none) (ins 2 0x4285)) (fun u => (u.thread 16).reg 5 == 1 && (u.thread 16).pc == 0x102) = true := by
  decide +kernel
theorem test_chput_commits : nextHas (exec (.lysChput 16 5 6 7) (chn 3 (fun c => { c with holder := some 16, asm := [1, 2, 3, 4, 5, 6, 7] }) lsd))
    (fun u => (u.chan 9).map (fun c => (c.msgs.getLast?, c.holder)) == some (some (([1, 2, 3, 4, 5, 6, 7, 77] : List Nat).flatMap (toLe 8)), none)) = true := by
  decide +kernel
theorem test_engine_carry : nextHas (exec (.microwordStep 3 {}) (eng wAdd (fun x => { x with regs := [(1, 0xFFFFFFFFFFFFFFFE)] })))
    (fun u => (u.engine 3).reg 2 == 3 && (u.engine 3).carry && !(u.engine 3).zero && (u.engine 3).pc == 33) = true := by decide +kernel
theorem test_engine_request : nextHas (exec (.microwordStep 3 {}) (eng wWaitEop (fun x => { x with reqs := 6 })))
    (fun u => (u.engine 3).pc == 8 && (u.engine 3).resume == 32 && (u.engine 3).reqs == 4) = true := by decide +kernel
theorem test_thermal_two_samples : nextHas (exec (.sensorSample 63 120500) (pw (fun p => { p with samples := [(63, (119999, 0))] })))
    (fun u => u.power.level == 3) = true := by decide +kernel
theorem test_cap_steps_up : nextHas (exec (.powerWindow 501) (pw (fun p => { p with capW := 500, overN := 2, mode := 1, limit := 2 })))
    (fun u => u.power.mode == 2 && u.power.setW == 620 && u.power.setE == 620) = true := by decide +kernel
theorem test_ledger_write : nextHas (exec (.ledgerWrite true) (led id)) (fun u => u.ledger.buf == [rec1] && u.ledger.next == 1) = true := by decide +kernel
theorem test_split : nextHas (exec (.splitDeclare 5) (hv (fun r => { r with cut := true }))) (fun u => u.rel.split && u.hif.devState == 2) = true := by
  decide +kernel
theorem test_lane_to_spare : nextHas (execD2dLaneLoss 4 1 103 none
      (hv (fun r => { r with buckets := [(resId 2 (4 * 208 + 1 * 104 + 103), { level := 3 })], d2d := [(4, { lost := [104] })] })))
    (fun u => u.rel.retired == [resId 2 (4 * 208 + 1 * 104 + 103)] && !(u.d2dLink 4).down) = true := by decide +kernel
theorem test_rejoin_interrupted : nextHas (execD2dLinkLoss 4 (hv (fun r => { r with
      cut := true, split := true, rejoin := some 0, d2d := (List.range 4).map (fun i => (i, { down := true })), rulesE := some [] })))
    (fun u => u.rel.split && u.rel.rejoin == none && u.rel.rulesE == some [] && u.ledger.buf.any (fun r => r.code == 0x0104 && r.data.take 2 == [3, 0])) =
      true := by decide +kernel
theorem test_self_test_fails : nextHas (execStbyPwrgdRise 5 [0x07000003] ({ State.reset with boot := { stbyGood := false, stage := .off } }))
    (fun u => u.boot.stage == .first && u.rel.retired == [0x07000003] && (u.thread 48).state == .lost) = true := by decide +kernel
theorem test_cap_set : nextHas (exec (.capSet .i3c [0x90, 1, 2, 0]) (mg id)) (fun u => u.power.capW == 400 && u.out == [.ibi, .mgmt .i3c [7, 1, 0, 0]]) = true := by
  decide +kernel
theorem test_cipher_dispatch : nextHas (exec (.cipherDispatch 0) (cip 0x20 (fun c => { c with bulk := [(0, [job 0x20])], cacheW := [7] })))
    (fun u => Tab.find 0 u.cry.cores == some (job 0x20) && u.bulkQ 0 == []) = true := by decide +kernel

end Sys2Proof.Tests
end

/-! SUPPORT. What an access to a register reaches, by its place and its width, and the statements about register accesses and about a step of the
block. -/

namespace Sys2Proof.Machine

open Sys2Proof

/-! ## Rows that pass the checks of the TLP (R42, R463) -/

theorem exec_registerWrite (space : RegSpace) (o : BitVec 32) (n : Nat) (v co : BitVec 64) (c : TlpCheck) (more : Bytes) (s : State) :
    exec (.registerWrite space o n v co c more) s = execRegisterWrite space o n v s co c more := rfl

theorem exec_rcRegisterRead (space : RegSpace) (o : BitVec 32) (n co : Nat) (c : TlpCheck) (s : State) :
    exec (.rcRegisterRead space o n co c) s = execRcRegisterRead space o n co s c := rfl

theorem exec_registerWrite_cp (o : BitVec 32) (n : Nat) (v co : BitVec 64) (c : TlpCheck) (more : Bytes) (s : State) :
    exec (.registerWrite .cp o n v co c more) s = .next (s.cpWrite o.toNat v.toNat) := rfl

theorem exec_registerWrite_bar0 {fid : Fid} {s : State} (hon : s.barOn fid = true) (o : BitVec 32) (n : Nat) (v co : BitVec 64) (more : Bytes) :
    exec (.registerWrite (.bar0 fid) o n v co .ok more) s = .next (s.barWrite fid o.toNat n (wideValue v more % 2 ^ (8 * n)) co.toNat) := by
  simp [exec_registerWrite, execRegisterWrite, hon, done]

theorem exec_registerWrite_barOff {fid : Fid} {s : State} (hoff : s.barOn fid = false) (o : BitVec 32) (n : Nat) (v co : BitVec 64) (c : TlpCheck)
    (more : Bytes) : exec (.registerWrite (.bar0 fid) o n v co c more) s = .next s := by
  simp [exec_registerWrite, execRegisterWrite, hoff, done]

theorem exec_registerWrite_ecrc {fid : Fid} {s : State} (hon : s.barOn fid = true) (o : BitVec 32) (n : Nat) (v co : BitVec 64) (more : Bytes) :
    exec (.registerWrite (.bar0 fid) o n v co .ecrc more) s = .next (s.tlpFails fid .ecrc) := by
  simp [exec_registerWrite, execRegisterWrite, hon, done]

theorem exec_rcRegisterRead_bar0 {fid : Fid} {s : State} (hon : s.barOn fid = true) (o : BitVec 32) (n c : Nat) :
    exec (.rcRegisterRead (.bar0 fid) o n c .ok) s =
      .next ((s.barRead fid o.toNat n c).2.regReply fid o (s.barRead fid o.toNat n c).1 n) := by
  simp [exec_rcRegisterRead, execRcRegisterRead, hon, done]

/-- Configuration space that answers is not one that asks for a retry (R463). -/
theorem State.cfgRetry_of_cfgOn {s : State} {fid : Nat} (h : s.cfgOn fid = true) : s.cfgRetry fid = false := by
  simp only [State.cfgOn, Bool.and_eq_true] at h
  obtain ⟨⟨-, hserve⟩, -⟩ := h
  simp [State.cfgRetry, hserve]

theorem exec_rcRegisterRead_config {fid : Fid} {s : State} (hon : s.cfgOn fid = true) (reg : CfgReg) (o : BitVec 32) (n c : Nat) :
    exec (.rcRegisterRead (.config fid reg) o n c .ok) s = .next (s.tlp fid
      (.reg (BitVec.ofNat 64 (s.cfgValue fid reg)) ((Config.readAttr o).getLsbD 0) ((Config.readAttr o).getLsbD 1))) := by
  simp [exec_rcRegisterRead, execRcRegisterRead, State.cfgRetry_of_cfgOn hon, hon, done]

/-! ## Places of BAR0 (R47, R48) -/

theorem State.placeOf_area {off : Nat} (h : off < 4096) (s : State) (fid : Nat) : s.placeOf fid off = .area off := if_pos h

/-- Each register of the pages is what lies at its own offset. -/
theorem State.placeOf_reg {r : Nat × Nat × Bool} (hr : r ∈ pageRegs) (s : State) (fid : Nat) : s.placeOf fid r.1 = .reg r.1 r.2.1 r.2.2 := by
  have hpages : ∀ r ∈ pageRegs, ¬ r.1 < 0x1000 ∧ r.1 < 0x4000 ∧
      pageRegs.find? (fun q => decide (q.1 ≤ r.1) && decide (r.1 < q.1 + q.2.1)) = some r := by decide
  obtain ⟨hlo, hhi, hfind⟩ := hpages r hr
  rw [State.placeOf, if_neg hlo, if_pos hhi, hfind]

/-- An access at a page register's own offset is allowed in its full width, and in no other but one half of a readable 64-bit register (R48). -/
theorem allowed_at_reg {r : Nat × Nat × Bool} (hr : r ∈ pageRegs) (n : Nat) :
    allowed r.1 r.2.1 r.2.2 r.1 n = if n = r.2.1 ∨ (r.2.1 = 8 ∧ r.2.2 = false ∧ n = 4) then some 0 else none := by
  have hpage : ∀ r ∈ pageRegs, r.1 ≠ 0x10000 := by decide
  by_cases hn : n = r.2.1 <;> simp [allowed, hpage r hr, hn]

theorem State.barWrite_area {off : Nat} (h : off < 4096) (fid n v co : Nat) (s : State) :
    s.barWrite fid off n v co = if (s.fn fid).owner then s else
      s.modFn fid (fun f => { f with area := Mem.write 0 f.area off (toLe (min n (4096 - off)) v) }) := by
  simp only [State.barWrite, State.placeOf_area h]

theorem State.barRead_area {off : Nat} (h : off < 4096) (fid n c : Nat) (s : State) :
    s.barRead fid off n c = (leNat (Mem.read 0 (s.fn fid).area off (min n (4096 - off))), s) := by
  simp only [State.barRead, State.placeOf_area h]

/-- A write of a page register in its full width acts by the register's access code. -/
theorem State.barWrite_reg {r : Nat × Nat × Bool} (hr : r ∈ pageRegs) (fid v co : Nat) (s : State) :
    s.barWrite fid r.1 r.2.1 v co = s.regWrite fid r.1 0 r.2.1 v co := by
  simp only [State.barWrite, State.placeOf_reg hr, allowed_at_reg hr, true_or, if_true]

/-- A write of a page register in a width it does not have is discarded with MMIO_BAD (R48). -/
theorem State.barWrite_badWidth {r : Nat × Nat × Bool} (hr : r ∈ pageRegs) {n : Nat} (hn : n ≠ r.2.1)
    (hhalf : ¬ (r.2.1 = 8 ∧ r.2.2 = false ∧ n = 4)) (fid v co : Nat) (s : State) : s.barWrite fid r.1 n v co = s.mmioBad fid := by
  simp only [State.barWrite, State.placeOf_reg hr, allowed_at_reg hr, hn, hhalf, or_self, if_false]

/-- A read of a page register in its full width answers its value, and clears it where it is RC. -/
theorem State.barRead_reg {r : Nat × Nat × Bool} (hr : r ∈ pageRegs) (fid c : Nat) (s : State) :
    s.barRead fid r.1 r.2.1 c = (s.regValue fid r.1 % 2 ^ (8 * r.2.1), s.clearRc fid r.1 c) := by
  simp only [State.barRead, State.placeOf_reg hr, allowed_at_reg hr, true_or, if_true, bits, Nat.pow_zero, Nat.div_one]

/-- The row of a write to a page register in its full width. -/
theorem exec_registerWrite_reg {fid : Fid} {s : State} (hon : s.barOn fid = true) {o : BitVec 32} {w : Nat} {wo : Bool}
    (hr : (o.toNat, w, wo) ∈ pageRegs) (v co : BitVec 64) (hv : v.toNat < 2 ^ (8 * w)) :
    exec (.registerWrite (.bar0 fid) o w v co .ok) s = .next (s.regWrite fid o.toNat 0 w v.toNat co.toNat) := by
  rw [exec_registerWrite_bar0 hon, wideValue_nil, Nat.mod_eq_of_lt hv, State.barWrite_reg hr]

/-- The row of a read of a page register in its full width. -/
theorem exec_rcRegisterRead_reg {fid : Fid} {s : State} (hon : s.barOn fid = true) {o : BitVec 32} {w : Nat} {wo : Bool}
    (hr : (o.toNat, w, wo) ∈ pageRegs) (c : Nat) :
    exec (.rcRegisterRead (.bar0 fid) o w c .ok) s =
      .next ((s.clearRc fid o.toNat c).regReply fid o (s.regValue fid o.toNat % 2 ^ (8 * w)) w) := by
  rw [exec_rcRegisterRead_bar0 hon, State.barRead_reg hr]

/-! ## What the registers do -/

/-- A link's register block changed twice is changed once by both. -/
theorem State.modLink_modLink (l : Nat) (f g : Link → Link) (s : State) : (s.modLink l f).modLink l g = s.modLink l (fun k => g (f k)) := by
  simp only [State.modLink, Tab.upd_upd]

/-- A TLP that fails ECRC leaves its two records on the function's link and nothing else (R42). -/
theorem State.tlpFails_ecrc (fid : Nat) (s : State) :
    s.tlpFails fid .ecrc = s.modLink (s.linkOf fid) (fun k => { k with err := k.err ||| 1, aerEcrc := true }) :=
  State.modLink_modLink _ _ _ s

theorem State.cfgValue_ids_pf {s : State} {fid : Nat} (h : s.isPf fid = true) : s.cfgValue fid .ids = Config.vendorId.toNat + 0x5120 * 65536 := by
  simp [State.cfgValue, h]

theorem State.regWrite_mbxCtrl (fid sh n v co : Nat) (s : State) : s.regWrite fid 0x1000 sh n v co =
    s.modFn fid (fun f => { f with irqEn := bit v 8, vector := BitVec.ofNat 8 (bits v 16 8) }) := rfl

theorem State.regWrite_fnErr (fid sh n v co : Nat) (s : State) : s.regWrite fid 0x2020 sh n v co =
    s.modFn fid (fun f => { f with err := (f.err &&& ~~~ (BitVec.ofNat 4 v)) ||| BitVec.ofNat 4 co }) := rfl

theorem State.regWrite_hifErr {s : State} {fid : Nat} (h : s.isPf fid = true) (sh n v co : Nat) : s.regWrite fid 0x3018 sh n v co =
    s.modLink (s.linkOf fid) (fun k => { k with err := (k.err &&& ~~~ (BitVec.ofNat 4 v)) ||| BitVec.ofNat 4 co }) := if_pos h

/-- HIF_SCRATCH stores a write of all its eight bytes. -/
theorem State.regWrite_scratch {s : State} {fid : Nat} (h : s.isPf fid = true) (v : BitVec 64) (sh co : Nat) :
    s.regWrite fid 0x3020 sh 8 v.toNat co = s.modLink (s.linkOf fid) (fun k => { k with scratch := v }) := by
  simp [State.regWrite, h]

theorem State.cpWrite_heartbeat (v : Nat) (s : State) : s.cpWrite 0x05000014 v = s.modCp 0 (fun c => { c with lastBeat := s.clock.now }) := rfl

theorem State.clearRc_rejectCnt (fid c : Nat) (s : State) :
    s.clearRc fid 0x2028 c = s.modFn fid (fun f => { f with dbReject := min c 0xFFFFFFFF }) := if_pos rfl

theorem State.clearRc_other {base : Nat} (h : base ≠ 0x2028) (fid c : Nat) (s : State) : s.clearRc fid base c = s := if_neg h

/-- The completion of a read of eight bytes or fewer carries one word, with the attributes the implementation gives its offset. -/
theorem State.regReply_word {o : BitVec 32} {n : Nat} (ho : o ≠ 0x2018) (hn : n ≤ 8) (fid v : Nat) (s : State) : s.regReply fid o v n =
    s.tlp fid (.reg (BitVec.ofNat 64 v) ((Config.readAttr o).getLsbD 0) ((Config.readAttr o).getLsbD 1)) := by
  rw [State.regReply, if_neg ho, Nat.sub_eq_zero_of_le hn, toLe]

/-- The completion of a read of FN_ABORT_STATUS has both ordering attributes clear (R58). -/
theorem State.regReply_abortStatus {n : Nat} (hn : n ≤ 8) (fid v : Nat) (s : State) :
    s.regReply fid 0x2018 v n = s.tlp fid (.reg (BitVec.ofNat 64 v) false false) := by
  rw [State.regReply, if_pos rfl, Nat.sub_eq_zero_of_le hn, toLe]
  rfl

/-- Settles O16: an access is taken to its place of BAR0 by `State.placeOf_reg` or `State.placeOf_area`, and there acts by the register's equation. -/
theorem registerAccesses : Obligations.RegisterAccesses := by
  unfold Obligations.RegisterAccesses
  refine ⟨?mbxCtrl, ?fnErr, ?hifErr, ?scratch, ?areaWrite, ?areaRead, ?badWidth, ?ecrc, ?rejectCnt, ?abortStatus, ?deviceId, ?heartbeat, ?barOff⟩
  case mbxCtrl =>
    exact fun fid v co s hon hv => (exec_registerWrite_reg hon (wo := false) (by decide) v co hv).trans
      (congrArg _ (State.regWrite_mbxCtrl ..))
  case fnErr =>
    exact fun fid v co s hon hv => (exec_registerWrite_reg hon (wo := false) (by decide) v co hv).trans
      (congrArg _ (State.regWrite_fnErr ..))
  case hifErr =>
    exact fun fid v co s hon hpf hv => (exec_registerWrite_reg hon (wo := false) (by decide) v co hv).trans
      (congrArg _ (State.regWrite_hifErr hpf ..))
  case scratch =>
    exact fun fid v co s hon hpf => (exec_registerWrite_reg hon (wo := false) (by decide) v co v.isLt).trans
      (congrArg _ (State.regWrite_scratch hpf ..))
  case areaWrite =>
    intro fid o n v co more s hon ho
    rw [exec_registerWrite_bar0 hon, State.barWrite_area ho]
  case areaRead =>
    intro fid o n c s hon ho
    rw [exec_rcRegisterRead_bar0 hon, State.barRead_area ho]
  case badWidth =>
    intro fid v co s hon
    have hdoorbell : (0x1008, 4, true) ∈ pageRegs := by decide
    exact (exec_registerWrite_bar0 hon ..).trans (congrArg _ (State.barWrite_badWidth hdoorbell (by decide) (by decide) ..))
  case ecrc =>
    intro fid o n v co s hon
    rw [exec_registerWrite_ecrc hon, State.tlpFails_ecrc]
  case rejectCnt =>
    intro fid c s hon
    rw [exec_rcRegisterRead_reg hon (wo := false) (by decide), State.regReply_word (by decide) (by decide)]
    exact congrArg _ (congrArg _ (State.clearRc_rejectCnt ..))
  case abortStatus =>
    intro fid c s hon
    rw [exec_rcRegisterRead_reg hon (wo := false) (by decide), State.regReply_abortStatus (by decide), State.clearRc_other (by decide)]
    rfl
  case deviceId =>
    intro fid o n c s hon hpf
    rw [exec_rcRegisterRead_config hon, State.cfgValue_ids_pf hpf]
  case heartbeat => exact fun v co s => (exec_registerWrite_cp ..).trans (congrArg _ (State.cpWrite_heartbeat ..))
  case barOff => exact fun fid v co s hoff => exec_registerWrite_barOff hoff ..

/-! ## A step of the block -/

/-- A step with commands waiting is its front command, run on the queue's rest. -/
theorem step_pending_cons (c : Instr) (cs : List Instr) (s : State) : step { s with pending := c :: cs } = exec c { s with pending := cs } := rfl

/-- A step with nothing waiting is one nanosecond that passes. -/
theorem step_pending_nil {s : State} (h : s.pending = []) : step s = .next (s.advance 1) := by
  simp only [step, h, State.tick]

@[simp] theorem Clock.quiet_now (c before : Clock) (powered : Bool) : (c.quiet before powered).now = c.now := by
  cases powered <;> rfl

@[simp] theorem State.advance_now (dt : Nat) (s : State) : (s.advance dt).clock.now = s.clock.now + dt := Clock.quiet_now _ _ _

/-- Settles O56: by the two equations of a step; an idle step is `State.advance` by 1, whose frame is the clock. -/
theorem frontAndIdle : Obligations.FrontAndIdle := by
  unfold Obligations.FrontAndIdle
  refine ⟨step_pending_cons, fun s hidle => ⟨s.advance 1, step_pending_nil hidle, State.advance_now 1 s, ?_, State.advance_only 1 s⟩⟩
  rw [State.advance_pending, hidle]

end Sys2Proof.Machine
